-- ==== Sys2Proof/Word.lean ====
section
/-!
DEFINITION. The word types of the ZX9 and their plainest arithmetic (R7: every multi-byte value is little-endian).
-/
namespace Sys2Proof

/-- The smallest addressable unit (06, "Address spaces"). -/
abbrev Byte := BitVec 8

/-- A scalar register and a 64-bit register of a block. -/
abbrev Word := BitVec 64

/-- A 32-bit word: an element of a vector register, half a register (R15). -/
abbrev W32 := BitVec 32

/-- A master identity (R162). -/
abbrev Master := BitVec 8

/-- A physical core, n = 8k + j (R21). -/
abbrev CoreId := Fin 128

/-- A Thoyr link. -/
abbrev LinkId := Fin 64

/-- An HBM stack. -/
abbrev StackId := Fin 12

/-- A chip address: group, board, position (R266). -/
abbrev ChipAddr := BitVec 15

end Sys2Proof
end

