-- ==== Sys2Proof/Syntax.lean ====
section
/-!
DEFINITION. The commands of the ZX9 block: one constructor of `Instr` for each row of spec/opcode_table.json. A core
instruction names the core that issues it in a packet of one slot (log entry 20); an event command names what happened and
carries what the outside brings (measured values, arriving frames, data); a host command carries its parameters as the
device reads them (log entry 10).
-/
namespace Sys2Proof

/-- One port pair of the cabling plan: a port of a group and the peer group and port it pairs with (R270). -/
structure CablePair where
  group : Nat
  port : Nat
  peerGroup : Nat
  peerPort : Nat
  deriving DecidableEq, Repr

/-- The machine configuration (R267, R270, R348): the group of this chip, the number of groups, the cabling plan of every
group, and the values firmware writes into CTL_HOSTWR, LIF_HOLDUP_CFG, LIF_MIRROR and RST_CFG. -/
structure MachineConfig where
  group : Nat
  groups : Nat
  cables : List CablePair
  hostwr : Nat
  holdupCfg : Nat
  mirror : Nat
  perst : Nat
  deriving DecidableEq, Repr

/-- A plan of the bundle as firmware knows it (R226, R242, R279): its id, for each link whose table sets it changes the base of the
new transmit and receive set and their TL128 digests, the base of a new open route table, the chips it touches, and both ends (chip, link) of
the link whose detour plan it is, if it is one. -/
structure PlanInfo where
  id : Nat
  sets : List (Nat × Nat × Nat × Nat × Nat)
  route : Option Nat
  chips : List Nat
  ends : List (Nat × Nat)
  deriving DecidableEq, Repr

/-- The link section of the job configuration for one link: its number, enable, grace in 100 µs, encryption flag, and the open
buffer sizes of the open-market section. -/
structure LinkCfg where
  link : Nat
  en : Bool
  grace : Nat
  enc : Bool
  req : Nat
  rpl : Nat
  deriving DecidableEq, Repr

/-- The job configuration, as the device reads it: the job NCORE and arithmetic mode, the declared grade and speed suffix, the
ranked chips in rank order and the spares, the reshape mode, the power class and section, the time root and this chip's
parents, the link sections, the throttle, the seed, the starting step and s1, the fault-record ring, the observation section
(tally enable and sheet ring, counter selections), and the verify option (the bank to verify of each region). -/
structure JobConfig where
  ncore : Nat
  inv : Bool
  grade : Nat
  speed : Nat
  ranks : List Nat
  spares : List Nat
  reshape : Nat
  cls : Nat
  powerCtrl : Nat
  root : Nat
  parent : Nat
  alt : Nat
  altEn : Bool
  links : List LinkCfg
  thrOn : Nat
  thrOff : Nat
  openMap : List Nat
  seed : Nat
  startStep : Nat
  arg : Nat
  recBase : Nat
  tally : Bool
  sheetBase : Nat
  sheetLog2 : Nat
  sheetHost : Bool
  pmcUser : Bool
  pmcSel : List Nat
  verify : List (Nat × Bool)
  deriving DecidableEq, Repr

/-- One program image (03, "Loading a core program"). -/
structure Image where
  entry : Nat
  size : Nat
  bytes : List Byte
  deriving DecidableEq, Repr

/-- One link's sets in the bundle: the link, the bases and bytes of the transmit and receive set, and their digests (R213, R214). -/
structure LinkSets where
  link : Nat
  tx : Nat
  txBytes : List (Nat × Nat)
  txDigest : Nat
  rx : Nat
  rxBytes : List (Nat × Nat)
  rxDigest : Nat
  deriving DecidableEq, Repr

/-- An alternate plan for a smaller job (R276): the ranked chips in their new order and the table sets of this chip. -/
structure AltPlan where
  ranks : List Nat
  sets : List LinkSets
  deriving DecidableEq, Repr

/-- The fields of a bundle that the device reads: the shape constraints (admitted NCORE, NCHIP, grades and speed suffixes), the
images and the role map, the declared modes, planning frequency, bell division and HBM plan, the porter section, the region, shard
and tree tables, the plans with the table sets they name, the alternate plans and the holders of pool regions (region, chip; R291), the rank table the stall tables were compiled for, whether it admits spare reshaping, the G-links
that have a cut plan, and where the rank table and bank words go. Table bytes are (offset, byte) pairs over zero. -/
structure Bundle where
  ncoreMin : Nat
  ncoreMax : Nat
  ncoreStep : Nat
  nchips : List Nat
  grades : List Nat
  speeds : List Nat
  modes : List Bool
  planMhz : Nat
  images : List Image
  roles : List Nat
  bellUs : Nat
  roundLen : Nat
  origin : Nat
  quiet : List Word
  req : Nat
  rpl : Nat
  ctl : Nat
  awn : Nat
  margin : Nat
  hbmPlan : List (Nat × Nat × Nat × Nat)
  openTmo : Nat
  watch : Nat
  zgate : Bool
  nilgate : Bool
  sets : List LinkSets
  route : Nat
  tableBase : Nat
  regions : List Byte
  shards : List Byte
  coreOff : Nat
  treeBase : Nat
  trees : List Byte
  plans : List PlanInfo
  planSets : List LinkSets
  alts : List AltPlan
  holders : List (Nat × Nat)
  ranks : List Nat
  spareOk : Bool
  cuts : List (Nat × Nat)
  rankBase : Nat
  deriving DecidableEq, Repr

/-- What a TRAIN frame carries in HANDSHAKE (R199, R202, R365): a refusal's REASON, the sender's identity, settings, resume token
(flush flag, last accepted and next new sequence number), the timestamps t1 to t4 of the 16 exchanges in 2^-16 ns, and the
key exchange (serial, identity key, certificate signature, ephemeral key, transcript signature). -/
structure TrainFrame where
  refusal : Option Nat
  chip : Nat
  link : Nat
  widthMax : Nat
  speed : Nat
  enc : Bool
  flushed : Bool
  accepted : Nat
  next : Nat
  exchanges : List (Nat × Nat × Nat × Nat)
  kex : Option (List Byte × List Byte × List Byte × List Byte × List Byte)
  deriving DecidableEq, Repr

/-- The commands of the block, one for each row of the opcode table, in the table's order. -/
inductive Instr where
  /-- REGISTER_WRITE; R11-R15: a full-width write by master m of the register at offset off of register space. -/
  | registerWrite (m : Master) (off : BitVec 32) (v : BitVec 64)
  /-- LOW_HALF_WRITE; R15: a write of the low half of the 64-bit register at off. -/
  | lowHalfWrite (m : Master) (off : BitVec 32) (v : BitVec 32)
  /-- HIGH_HALF_WRITE; R15: a write of the high half; off is that of the high half. -/
  | highHalfWrite (m : Master) (off : BitVec 32) (v : BitVec 32)
  /-- LOW_HALF_READ; R15: a read of the low half of the 64-bit register at off. -/
  | lowHalfRead (m : Master) (off : BitVec 32)
  /-- HIGH_HALF_READ; R15: a read of the high half; off is that of the high half. -/
  | highHalfRead (m : Master) (off : BitVec 32)
  /-- RC_READ; R9: a full-width read of the register at off. -/
  | rcRead (m : Master) (off : BitVec 32)
  /-- DROOP_EVENT; R36, R38: region r stretches its next cycles by stretch tenths of a percent; drift crossings leave the range 1 to 7. -/
  | droopEvent (r : Fin 24) (stretch drift : Nat)
  /-- FLL_WINDOW; R36: the cycles region r completed, and lost to droop, in the last 1 µs window. -/
  | fllWindow (r : Fin 24) (cycles lost : Nat)
  /-- ALIGN_TIMEOUT; R39: a crossing of region r does not align within 10 µs. -/
  | alignTimeout (r : Fin 24)
  /-- REFERENCE_LOSS; R41: the monitor declares the reference lost. -/
  | referenceLoss
  /-- REFERENCE_PRESENT; R42: the monitor declares the reference present. -/
  | referencePresent
  /-- FCHG_ARM; R46: a write of 1 to CLK_FCHG_CTRL.ARM by master m. -/
  | fchgArm (m : Master)
  /-- FREQ_CHANGE_RESTART; R48: the stopped regions restart. -/
  | freqChangeRestart
  /-- BELL_PULSE; R49: the bell phase reaches the bell length. -/
  | bellPulse
  /-- BEL_COMMIT_ARM; R51: a write of BEL_COMMIT with ARM set and this BELL. -/
  | belCommitArm (bell : BitVec 32)
  /-- BEL_FT_INC_WRITE; R53. -/
  | belFtIncWrite (inc : BitVec 40)
  /-- HOLDOVER_ENTRY; R54: BEL_HOLD_LIMIT bells have passed without a usable mark. -/
  | holdoverEntry
  /-- BEL_PARENT_WRITE; R54: a write of BEL_PARENT. -/
  | belParentWrite (v : BitVec 32)
  /-- BEL_FT_SETBELL_WRITE; R56. -/
  | belFtSetbellWrite (bell : BitVec 64)
  /-- BEL_FT_STEP_WRITE; R56: signed, in 2^-16 ns. -/
  | belFtStepWrite (step : BitVec 48)
  /-- JOIN; R56: BEL_CTRL.JOIN is set. -/
  | join
  /-- WALL_SET; R57: a write of BEL_WALL_SET_NS. -/
  | wallSet (ns : BitVec 30)
  /-- PPS_CAPTURE; R58: a rising edge on PPS_IN. -/
  | ppsCapture
  /-- WALL_NS_READ; R59: a read of BEL_WALL_NS. -/
  | wallNsRead (m : Master)
  /-- PHASE_READ; R59: a read of BEL_PHASE. -/
  | phaseRead (m : Master)
  /-- TRIG_ARM; R61: a write v of BEL_TRIG_CTRL[t] with ARM set; v carries KIND, CORE and EVENT. -/
  | trigArm (t : Fin 8) (v : BitVec 32)
  /-- NOP; R71: core c issues a packet whose S slot is NOP. -/
  | nop (c : CoreId)
  /-- ADD; R75: format R of the scalar slot. -/
  | add (c : CoreId) (rd rs1 rs2 : BitVec 5)
  /-- SUB; R75: format R of the scalar slot. -/
  | sub (c : CoreId) (rd rs1 rs2 : BitVec 5)
  /-- AND; R75: format R of the scalar slot. -/
  | and (c : CoreId) (rd rs1 rs2 : BitVec 5)
  /-- OR; R75: format R of the scalar slot. -/
  | or (c : CoreId) (rd rs1 rs2 : BitVec 5)
  /-- XOR; R75: format R of the scalar slot. -/
  | xor (c : CoreId) (rd rs1 rs2 : BitVec 5)
  /-- SLL; R75: format R of the scalar slot. -/
  | sll (c : CoreId) (rd rs1 rs2 : BitVec 5)
  /-- SRL; R75: format R of the scalar slot. -/
  | srl (c : CoreId) (rd rs1 rs2 : BitVec 5)
  /-- SRA; R75: format R of the scalar slot. -/
  | sra (c : CoreId) (rd rs1 rs2 : BitVec 5)
  /-- SLT; R75: format R of the scalar slot. -/
  | slt (c : CoreId) (rd rs1 rs2 : BitVec 5)
  /-- SLTU; R75: format R of the scalar slot. -/
  | sltu (c : CoreId) (rd rs1 rs2 : BitVec 5)
  /-- MIN; R75: format R of the scalar slot. -/
  | min (c : CoreId) (rd rs1 rs2 : BitVec 5)
  /-- MAX; R75: format R of the scalar slot. -/
  | max (c : CoreId) (rd rs1 rs2 : BitVec 5)
  /-- MUL; R75: format R of the scalar slot. -/
  | mul (c : CoreId) (rd rs1 rs2 : BitVec 5)
  /-- MULHU; R75: format R of the scalar slot. -/
  | mulhu (c : CoreId) (rd rs1 rs2 : BitVec 5)
  /-- ADDI; R75: format I of the scalar slot. -/
  | addi (c : CoreId) (rd rs1 : BitVec 5) (imm : BitVec 22)
  /-- ANDI; R75: format I of the scalar slot. -/
  | andi (c : CoreId) (rd rs1 : BitVec 5) (imm : BitVec 22)
  /-- ORI; R75: format I of the scalar slot. -/
  | ori (c : CoreId) (rd rs1 : BitVec 5) (imm : BitVec 22)
  /-- XORI; R75: format I of the scalar slot. -/
  | xori (c : CoreId) (rd rs1 : BitVec 5) (imm : BitVec 22)
  /-- SLLI; R75: format I of the scalar slot. -/
  | slli (c : CoreId) (rd rs1 : BitVec 5) (imm : BitVec 22)
  /-- SRLI; R75: format I of the scalar slot. -/
  | srli (c : CoreId) (rd rs1 : BitVec 5) (imm : BitVec 22)
  /-- SRAI; R75: format I of the scalar slot. -/
  | srai (c : CoreId) (rd rs1 : BitVec 5) (imm : BitVec 22)
  /-- SLTI; R75: format I of the scalar slot. -/
  | slti (c : CoreId) (rd rs1 : BitVec 5) (imm : BitVec 22)
  /-- LIX; R75: format I of the scalar slot. -/
  | lix (c : CoreId) (rd rs1 : BitVec 5) (imm : BitVec 22)
  /-- LD; R75: a load from the core store. -/
  | ld (c : CoreId) (rd rs1 : BitVec 5) (imm : BitVec 22)
  /-- LW; R75: a load from the core store. -/
  | lw (c : CoreId) (rd rs1 : BitVec 5) (imm : BitVec 22)
  /-- ST; R75: a store; rd names the data register. -/
  | st (c : CoreId) (rd rs1 : BitVec 5) (imm : BitVec 22)
  /-- SW; R75: a store; rd names the data register. -/
  | sw (c : CoreId) (rd rs1 : BitVec 5) (imm : BitVec 22)
  /-- BEQ; R76: format B. -/
  | beq (c : CoreId) (rs1 rs2 : BitVec 5) (off : BitVec 22)
  /-- BNE; R76: format B. -/
  | bne (c : CoreId) (rs1 rs2 : BitVec 5) (off : BitVec 22)
  /-- BLT; R76: format B. -/
  | blt (c : CoreId) (rs1 rs2 : BitVec 5) (off : BitVec 22)
  /-- BGE; R76: format B. -/
  | bge (c : CoreId) (rs1 rs2 : BitVec 5) (off : BitVec 22)
  /-- BLTU; R76: format B. -/
  | bltu (c : CoreId) (rs1 rs2 : BitVec 5) (off : BitVec 22)
  /-- BGEU; R76: format B. -/
  | bgeu (c : CoreId) (rs1 rs2 : BitVec 5) (off : BitVec 22)
  /-- JAL; R76. -/
  | jal (c : CoreId) (rd : BitVec 5) (imm : BitVec 22)
  /-- JR; R76. -/
  | jr (c : CoreId) (rs1 : BitVec 5) (imm : BitVec 22)
  /-- LOOP; R78. -/
  | loop (c : CoreId) (rs1 : BitVec 5) (off : BitVec 22)
  /-- TRAP; R97. -/
  | trap (c : CoreId) (imm : BitVec 22)
  /-- HALT; R79. -/
  | halt (c : CoreId)
  /-- RDSH; R66. -/
  | rdsh (c : CoreId) (rd : BitVec 5) (imm : BitVec 22)
  /-- WAITE; R80. -/
  | waite (c : CoreId) (e : BitVec 4) (rs1 : BitVec 5) (imm : BitVec 22)
  /-- WAITE_COMPLETE; R65: the waiting WAITE of core c finds its count. -/
  | waiteComplete (c : CoreId)
  /-- EVSEND; R81. -/
  | evsend (c : CoreId) (e : BitVec 4) (rs1 : BitVec 5)
  /-- EVSEND_DELIVERY; R81: the oldest count in flight from src to input e of dst arrives. -/
  | evsendDelivery (src dst : CoreId) (e : BitVec 4)
  /-- EVREAD; R74, R65: the counter view. -/
  | evread (c : CoreId) (rd : BitVec 5) (e : BitVec 4)
  /-- WAITP; R82. -/
  | waitp (c : CoreId) (rs1 : BitVec 5) (imm : BitVec 22)
  /-- WAITP_COMPLETE; R82: the waiting WAITP of core c finds every tag set. -/
  | waitpComplete (c : CoreId)
  /-- RELEASE; R83. -/
  | release (c : CoreId) (rs1 : BitVec 5)
  /-- PCLR; R84. -/
  | pclr (c : CoreId) (rs1 : BitVec 5) (imm : BitVec 22)
  /-- BELLWAIT; R85. -/
  | bellwait (c : CoreId) (rs1 : BitVec 5) (imm : BitVec 22)
  /-- STEPINC; R86. -/
  | stepinc (c : CoreId)
  /-- PACK; R87. -/
  | pack (c : CoreId) (sc sf : BitVec 5) (pd pm : BitVec 3) (vs vd : BitVec 5)
  /-- UNPACK; R87. -/
  | unpack (c : CoreId) (sf : BitVec 5) (pm : BitVec 3) (vs vd : BitVec 5)
  /-- PUT; R89-R92, R245: the porter fields of the M slot. -/
  | put (c : CoreId) (dt : BitVec 4) (sub : BitVec 3) (even : Bool) (ev : BitVec 4) (rn rr rl : BitVec 5) (b : Bool)
  /-- GET; R89-R92, R247: the porter fields of the M slot. -/
  | get (c : CoreId) (dt : BitVec 4) (sub : BitVec 3) (even : Bool) (ev : BitVec 4) (rn rr rl : BitVec 5) (b : Bool)
  /-- ACC; R89-R92, R256: the porter fields of the M slot. -/
  | acc (c : CoreId) (dt : BitVec 4) (sub : BitVec 3) (even : Bool) (ev : BitVec 4) (rn rr rl : BitVec 5) (b : Bool)
  /-- ATOM; R89-R92, R261: the porter fields of the M slot. -/
  | atom (c : CoreId) (dt : BitVec 4) (sub : BitVec 3) (even : Bool) (ev : BitVec 4) (rn rr rl : BitVec 5) (b : Bool)
  /-- PORTER_LOCAL_COMPLETE; R92: the oldest operation of core c that has reached its completion completes locally. -/
  | porterLocalComplete (c : CoreId)
  /-- WAIT_LIMIT; R99: core c has waited through more than CORE_WAIT_LIMIT pulses. -/
  | waitLimit (c : CoreId)
  /-- CORE_HOLD; R411: CORE_CTRL.HOLD is set. -/
  | coreHold (c : CoreId)
  /-- CORE_RESUME; R411: CORE_CTRL.HOLD is cleared. -/
  | coreResume (c : CoreId)
  /-- CORE_FENCE_WRITE; R102: a write of CORE_CTRL.FENCE. -/
  | coreFenceWrite (c : CoreId) (v : Bool)
  /-- CHIP_HALT_STOP; R100: a write of 1 to CHIP_HALT.STOP. -/
  | chipHaltStop
  /-- MXCFG; R112. -/
  | mxcfg (c : CoreId) (rx rq rs : BitVec 5) (sp as ws : Bool) (af wf : BitVec 4)
  /-- MXLW; R113. -/
  | mxlw (c : CoreId) (we : BitVec 2) (rk rw : BitVec 5)
  /-- MXRUN; R114: nb and ne hold NB - 1 and NE - 1. -/
  | mxrun (c : CoreId) (msk clr : Bool) (nb ab ne we : BitVec 2) (rc ra : BitVec 5)
  /-- MXDRAIN; R117: f is OF. -/
  | mxdrain (c : CoreId) (ev : BitVec 4) (even clr : Bool) (f : BitVec 4) (a : BitVec 2) (rs rd : BitVec 5)
  /-- DRAIN_EVENT; R117: the oldest drain of core c with EVEN has written every byte. -/
  | drainEvent (c : CoreId)
  /-- MXMASK; R116: nb holds NB - 1. -/
  | mxmask (c : CoreId) (mode : Bool) (nb ab : BitVec 2) (rf : BitVec 5)
  /-- VMOV; R145, R146, R150: format VR. -/
  | vmov (c : CoreId) (ty pg : BitVec 3) (va vd : BitVec 5)
  /-- VADD; R145, R146: format VR. -/
  | vadd (c : CoreId) (ty pg : BitVec 3) (vb va vd : BitVec 5)
  /-- VSUB; R145, R146: format VR. -/
  | vsub (c : CoreId) (ty pg : BitVec 3) (vb va vd : BitVec 5)
  /-- VMUL; R145, R146: format VR. -/
  | vmul (c : CoreId) (ty pg : BitVec 3) (vb va vd : BitVec 5)
  /-- VFMA; R145, R146: format VR. -/
  | vfma (c : CoreId) (ty pg : BitVec 3) (vb va vd : BitVec 5)
  /-- VMIN; R145, R146: format VR. -/
  | vmin (c : CoreId) (ty pg : BitVec 3) (vb va vd : BitVec 5)
  /-- VMAX; R145, R146: format VR. -/
  | vmax (c : CoreId) (ty pg : BitVec 3) (vb va vd : BitVec 5)
  /-- VABS; R145, R146, R150: format VR. -/
  | vabs (c : CoreId) (ty pg : BitVec 3) (va vd : BitVec 5)
  /-- VNEG; R145, R146, R150: format VR. -/
  | vneg (c : CoreId) (ty pg : BitVec 3) (va vd : BitVec 5)
  /-- VDIV; R145, R146: format VR. -/
  | vdiv (c : CoreId) (ty pg : BitVec 3) (vb va vd : BitVec 5)
  /-- VSQRT; R145, R146, R150: format VR. -/
  | vsqrt (c : CoreId) (ty pg : BitVec 3) (va vd : BitVec 5)
  /-- VBCAST; R145: ra is the scalar register in the VA field. -/
  | vbcast (c : CoreId) (ty pg : BitVec 3) (ra vd : BitVec 5)
  /-- VCMPEQ; R145, R146: format VR. -/
  | vcmpeq (c : CoreId) (ty pg : BitVec 3) (vb va vd : BitVec 5)
  /-- VCMPLT; R145, R146: format VR. -/
  | vcmplt (c : CoreId) (ty pg : BitVec 3) (vb va vd : BitVec 5)
  /-- VCMPLE; R145, R146: format VR. -/
  | vcmple (c : CoreId) (ty pg : BitVec 3) (vb va vd : BitVec 5)
  /-- VSEL; R145, R146: format VR. -/
  | vsel (c : CoreId) (ty pg : BitVec 3) (vb va vd : BitVec 5)
  /-- VAND; R145, R146: format VR. -/
  | vand (c : CoreId) (ty pg : BitVec 3) (vb va vd : BitVec 5)
  /-- VOR; R145, R146: format VR. -/
  | vor (c : CoreId) (ty pg : BitVec 3) (vb va vd : BitVec 5)
  /-- VXOR; R145, R146: format VR. -/
  | vxor (c : CoreId) (ty pg : BitVec 3) (vb va vd : BitVec 5)
  /-- VSHL; R145, R146: format VR. -/
  | vshl (c : CoreId) (ty pg : BitVec 3) (vb va vd : BitVec 5)
  /-- VSHR; R145, R146: format VR. -/
  | vshr (c : CoreId) (ty pg : BitVec 3) (vb va vd : BitVec 5)
  /-- VSRA; R145, R146: format VR. -/
  | vsra (c : CoreId) (ty pg : BitVec 3) (vb va vd : BitVec 5)
  /-- VCVT; R147. -/
  | vcvt (c : CoreId) (x : BitVec 11) (ty pg : BitVec 3) (vb va vd : BitVec 5)
  /-- VMXSC; R148. -/
  | vmxsc (c : CoreId) (x : BitVec 11) (ty pg : BitVec 3) (vb va vd : BitVec 5)
  /-- VWID; R149. -/
  | vwid (c : CoreId) (x : BitVec 11) (ty pg : BitVec 3) (vb va vd : BitVec 5)
  /-- VRSUM; R145, R146, R150: format VR. -/
  | vrsum (c : CoreId) (ty pg : BitVec 3) (va vd : BitVec 5)
  /-- VRMAX; R145, R146, R150: format VR. -/
  | vrmax (c : CoreId) (ty pg : BitVec 3) (va vd : BitVec 5)
  /-- VLD; R151. -/
  | vld (c : CoreId) (imm : BitVec 14) (pg : BitVec 3) (rs vd : BitVec 5)
  /-- VST; R151: vd is the VS field. -/
  | vst (c : CoreId) (imm : BitVec 14) (pg : BitVec 3) (rs vd : BitVec 5)
  /-- VGATH; R151. -/
  | vgath (c : CoreId) (pg : BitVec 3) (vi rs vd : BitVec 5)
  /-- VSCAT; R151: vd is the VS field. -/
  | vscat (c : CoreId) (pg : BitVec 3) (vi rs vd : BitVec 5)
  /-- VEXP; R152: format VR. -/
  | vexp (c : CoreId) (ty pg : BitVec 3) (va vd : BitVec 5)
  /-- VLOG; R152: format VR. -/
  | vlog (c : CoreId) (ty pg : BitVec 3) (va vd : BitVec 5)
  /-- VRSQRT; R152: format VR. -/
  | vrsqrt (c : CoreId) (ty pg : BitVec 3) (va vd : BitVec 5)
  /-- VTANH; R152: format VR. -/
  | vtanh (c : CoreId) (ty pg : BitVec 3) (va vd : BitVec 5)
  /-- VERF; R152: format VR. -/
  | verf (c : CoreId) (ty pg : BitVec 3) (va vd : BitVec 5)
  /-- VSIGM; R152: format VR. -/
  | vsigm (c : CoreId) (ty pg : BitVec 3) (va vd : BitVec 5)
  /-- PAND; R145: predicates in the low three bits of the fields. -/
  | pand (c : CoreId) (pg : BitVec 3) (vb va vd : BitVec 5)
  /-- POR; R145: predicates in the low three bits of the fields. -/
  | por (c : CoreId) (pg : BitVec 3) (vb va vd : BitVec 5)
  /-- PXOR; R145: predicates in the low three bits of the fields. -/
  | pxor (c : CoreId) (pg : BitVec 3) (vb va vd : BitVec 5)
  /-- PNOT; R145. -/
  | pnot (c : CoreId) (pg : BitVec 3) (va vd : BitVec 5)
  /-- RAND; R155. -/
  | rand (c : CoreId) (x : BitVec 11) (ty pg : BitVec 3) (rt ri vd : BitVec 5)
  /-- TALLY; R319. -/
  | tally (c : CoreId) (rk rt rn rs : BitVec 5)
  /-- TEMIT; R321. -/
  | temit (c : CoreId) (rt : BitVec 5)
  /-- PMCRD; R326. -/
  | pmcrd (c : CoreId) (sel : BitVec 4) (rd : BitVec 5)
  /-- SLD; R176-R178. -/
  | sld (c : CoreId) (even : Bool) (ev : BitVec 4) (rt rn rr rl : BitVec 5) (ps : Bool)
  /-- SST; R176-R178. -/
  | sst (c : CoreId) (even : Bool) (ev : BitVec 4) (rt rn rr rl : BitVec 5) (ps : Bool)
  /-- STREAM_COMPLETE; R178: the oldest stream of core c has moved every byte. -/
  | streamComplete (c : CoreId)
  /-- PCIE_READ_COMPLETION; R181: the PCIe read of the oldest waiting host-window stream of core c completes. -/
  | pcieReadCompletion (c : CoreId) (data : List Byte) (err : Bool)
  /-- FILL_PORT_ECC; R168: a fill-port read meets an uncorrectable word. -/
  | fillPortEcc (c : CoreId) (addr : BitVec 23)
  /-- HBM_SLOT; R171, R172: slot of a µs of stack st. -/
  | hbmSlot (st : StackId) (slot : Fin 50)
  /-- HBM_TEMP_CHECK; R173, R174: the check of each µs, with the measured temperature. -/
  | hbmTempCheck (st : StackId) (deg : BitVec 8)
  /-- TX_SLOT; R194: the next transmit slot of link n. -/
  | txSlot (n : LinkId)
  /-- FRAME_RECEIVE; R191: a frame arrives on link n: its 524 bytes after descrambling, and the symbols that the Reed-Solomon code corrected,
  none when a codeword cannot be corrected. -/
  | frameReceive (n : LinkId) (bytes : List Byte) (fec : Option Nat)
  /-- REPLAY_TIMEOUT; R193: the oldest frame of the replay buffer of link n has timed out. -/
  | replayTimeout (n : LinkId)
  /-- ERR_LIMIT_RETRAIN; R206: the bell mark after RETRAIN_PEND has been sent. -/
  | errLimitRetrain (n : LinkId)
  /-- BELL_MARK_RECEIVE; R209: a bell mark arrives on link n, as its frame. -/
  | bellMarkReceive (n : LinkId) (bytes : List Byte) (fec : Option Nat)
  /-- LINK_ENABLE; R198: LNK_CTRL.EN is set. -/
  | linkEnable (n : LinkId)
  /-- LINK_DISABLE; R198: LNK_CTRL.EN is cleared. -/
  | linkDisable (n : LinkId)
  /-- SIGNAL_DETECT; R198: these lanes of link n show signal for 100 µs. -/
  | signalDetect (n : LinkId) (lanes : BitVec 4)
  /-- TRAIN_PASS; R200: these lanes pass on both sides, with the peer's WIDTH_MAX and SPEED. -/
  | trainPass (n : LinkId) (lanes : BitVec 4) (peerWidth : BitVec 2) (peerSpeed : Bool)
  /-- TRAIN_FULL_TIMEOUT; R198: 30 ms in TRAIN_FULL. -/
  | trainFullTimeout (n : LinkId)
  /-- TRAIN_FAST_TIMEOUT; R198: 500 µs in TRAIN_FAST. -/
  | trainFastTimeout (n : LinkId)
  /-- TRAIN_FRAME_RECEIVE; R199, R202, R365. -/
  | trainFrameReceive (n : LinkId) (t : TrainFrame)
  /-- HANDSHAKE_TIMEOUT; R199: no TRAIN frame for 10 ms in HANDSHAKE. -/
  | handshakeTimeout (n : LinkId)
  /-- SIGNAL_LOSS; R198: no lane of LANE_MASK shows signal. -/
  | signalLoss (n : LinkId)
  /-- LANE_LOSS; R204: the lanes that still hold lock. -/
  | laneLoss (n : LinkId) (lock : BitVec 4)
  /-- PEER_TRAINING_PATTERN; R413. -/
  | peerTrainingPattern (n : LinkId)
  /-- LNK_RETRAIN_WRITE; R414. -/
  | lnkRetrainWrite (n : LinkId)
  /-- LNK_RESET_WRITE; R198. -/
  | lnkResetWrite (n : LinkId)
  /-- LNK_FLUSH_WRITE; R203. -/
  | lnkFlushWrite (n : LinkId)
  /-- GRACE_EXPIRY; R203. -/
  | graceExpiry (n : LinkId)
  /-- REKEY_ARM; R208: a write of LNK_ENC with REKEY_ARM set and this REKEY_BELL. -/
  | rekeyArm (n : LinkId) (bell : BitVec 32)
  /-- LINK_RETRAIN; R205. -/
  | linkRetrain (n : LinkId) (width : BitVec 8)
  /-- TX_PAGE_LOAD; R216. -/
  | txPageLoad (n : LinkId)
  /-- RX_PAGE_LOAD; R216. -/
  | rxPageLoad (n : LinkId)
  /-- FLOW_VECTOR_START; R222. -/
  | flowVectorStart (n : LinkId) (f : BitVec 12)
  /-- FLOW_RESET; R228: a write of FLW_CTRL.RESET on link n. -/
  | flowReset (n : LinkId)
  /-- STL_COMMIT_ARM; R242: a write of STL_COMMIT with ARM set and this BELL. -/
  | stlCommitArm (n : LinkId) (bell : BitVec 32)
  /-- OPN_COMMIT_ARM; R243: a write of OPN_COMMIT with ARM set and this BELL. -/
  | opnCommitArm (bell : BitVec 32)
  /-- OPEN_PACKET_START; R239: the head of the class queue of link n. -/
  | openPacketStart (n : LinkId) (cls : Fin 3)
  /-- THROTTLE_CHECK; R241. -/
  | throttleCheck
  /-- COMMIT_PLAN; R279. -/
  | commitPlan (plan : BitVec 32) (bell : BitVec 64)
  /-- OPEN_REQUEST_ARRIVAL; R250: the oldest request packet that has reached this chip. -/
  | openRequestArrival
  /-- OPEN_REPLY_ARRIVAL; R251: the oldest reply packet that has reached this chip. -/
  | openReplyArrival
  /-- OPEN_TIMEOUT; R252: the oldest overdue open operation of core c. -/
  | openTimeout (c : CoreId)
  /-- FLOW_WATCH_REPORT; R264. -/
  | flowWatchReport (n : LinkId) (rx : Bool) (f : BitVec 12)
  /-- CHIP_ADDR_LOCK; R267: a write of CHIP_ADDR with LOCK set and this GROUP. -/
  | chipAddrLock (group : BitVec 10)
  /-- SET_MACHINE_CONFIG; R270, R347, R348. -/
  | setMachineConfig (cfg : MachineConfig)
  /-- PROPOSE; R279: a PROPOSE packet from src arrives. -/
  | propose (src : ChipAddr) (plan : BitVec 32) (bell : BitVec 64)
  /-- ACCEPT; R279: an ACCEPT answer arrives. -/
  | accept (src : ChipAddr) (plan : BitVec 32) (bell : BitVec 64)
  /-- COUNTER; R279: a COUNTER answer arrives. -/
  | counter (src : ChipAddr) (plan : BitVec 32) (bell : BitVec 64)
  /-- CONFIRM; R279: a CONFIRM packet arrives. -/
  | confirm (src : ChipAddr) (plan : BitVec 32) (bell : BitVec 64)
  /-- DONE; R280: a DONE packet arrives; result true is not committed. -/
  | done (src : ChipAddr) (plan : BitVec 32) (bell : BitVec 64) (result : Bool)
  /-- AGREE_DEADLINE; R280: B - 64 has come for the agreement on plan. -/
  | agreeDeadline (plan : BitVec 32)
  /-- DONE_DEADLINE; R280: B + 64 has come for the agreement on plan. -/
  | doneDeadline (plan : BitVec 32)
  /-- NOTICE_SEND; R282, R283: the oldest fault notice due is sent. -/
  | noticeSend
  /-- NOTICE; R281, R284: a NOTICE packet from src arrives. -/
  | notice (src : ChipAddr) (suspect : ChipAddr) (cls : BitVec 8) (bell : BitVec 64) (detail : BitVec 16)
  /-- MERGE_CLOSE; R285: the oldest merge that is due closes. -/
  | mergeClose
  /-- RECORD_DELIVER; R286. -/
  | recordDeliver
  /-- SET_HEALTHY; R284. -/
  | setHealthy (v : BitVec 32)
  /-- HALT_STEP; R100. -/
  | haltStep
  /-- FENCE_CORE; R102. -/
  | fenceCore (c : CoreId) (clear : Bool)
  /-- LOAD_BUNDLE; R103: the last step, with the parsed job configuration and bundle and the commit bell or 0. -/
  | loadBundle (job : JobConfig) (bundle : Bundle) (bell : BitVec 64)
  /-- START_ROUND; R104. -/
  | startRound (bell : BitVec 64)
  /-- LOAD_SHARDS; R296: the crier jobs of the parameter block. -/
  | loadShards (jobs : List (Word × Word × Word × Word))
  /-- CRIER_JOB_START; R296: the job at CRI_JOB_TAIL. -/
  | crierJobStart
  /-- CRIER_PIECE_WRITE; R294: the next piece of the job running on the tree, into feed 0-3 or (feed 4) the root's own copy. -/
  | crierPieceWrite (tree : BitVec 16) (feed : Fin 5)
  /-- SWAP_BANK; R300. -/
  | swapBank (mask : BitVec 32)
  /-- WGT_SWAP_ARM; R300: a write of WGT_SWAP with ARM set and this BELL. -/
  | wgtSwapArm (bell : BitVec 32)
  /-- SCRUB_PASS_START; R303. -/
  | scrubPassStart
  /-- SCRUB_SHARD; R304: the scrub finishes the shard it reads. -/
  | scrubShard
  /-- BAR2_WRITE; R342, R308. -/
  | bar2Write (off : BitVec 40) (data : List Byte)
  /-- HOST_WRITE_RUN_CLOSE; R308. -/
  | hostWriteRunClose
  /-- REPLAY_FEED; R314. -/
  | replayFeed
  /-- LDG_WALL_NS_READ; R311. -/
  | ldgWallNsRead (m : Master)
  /-- LEDGER_MODE; R313. -/
  | ledgerMode (mode : BitVec 2) (payMask : BitVec 16) (stop : BitVec 32) (rings : Option (List Word))
  /-- PUT_BATCH; R314. -/
  | putBatch (host target : BitVec 64) (len batch : BitVec 32)
  /-- WATCHDOG_EXPIRY; R330. -/
  | watchdogExpiry (i : Fin 8)
  /-- WDOG_KICK; R330: a write of CTL_WDOG[i] with KICK set and this LIMIT. -/
  | wdogKick (i : Fin 8) (limit : BitVec 16)
  /-- MASTER_CHANGE; R328: a write of CTL_MASTER.CORE by master m. -/
  | masterChange (m : Master) (core : Fin 8)
  /-- MBX_SEND; R332: a write of MBX_DATA[ch]. -/
  | mbxSend (m : Master) (ch : Fin 64) (v : BitVec 64)
  /-- MBX_TAKE; R332: a read of MBX_DATA[ch]. -/
  | mbxTake (m : Master) (ch : Fin 64)
  /-- MBX_LOCK_ACQUIRE; R333: a read of MBX_LOCK[ch]. -/
  | mbxLockAcquire (m : Master) (ch : Fin 64)
  /-- MBX_LOCK_RELEASE; R333: a write of MBX_LOCK[ch].RELEASE. -/
  | mbxLockRelease (m : Master) (ch : Fin 64)
  /-- DOORBELL; R344. -/
  | doorbell (tail : BitVec 16)
  /-- COMMAND_TAKE; R343, R346: the 64 bytes of the entry at HEAD; paramOk: its parameter block can be read. -/
  | commandTake (entry : List Byte) (paramOk : Bool)
  /-- CPL_HEAD_WRITE; R345. -/
  | cplHeadWrite (head : BitVec 16)
  /-- HOST_BAR0_WRITE; R341: a full-width host write through BAR0. -/
  | hostBar0Write (off : BitVec 32) (v : BitVec 64)
  /-- FUNCTION_LEVEL_RESET; R350. -/
  | functionLevelReset
  /-- CONFIG_REQUEST; R386: a PCIe configuration request. -/
  | configRequest (addr : BitVec 12)
  /-- SIDEBAND_READ; R352. -/
  | sidebandRead (idx : BitVec 8)
  /-- TELEMETRY_REFRESH; R353. -/
  | telemetryRefresh
  /-- NOP_COMMAND; R346. -/
  | nopCommand
  /-- SET_WALL_TIME; R57. -/
  | setWallTime (secs : BitVec 64) (ns : BitVec 32) (sample : Bool)
  /-- SET_POWER_CLASS; R376. -/
  | setPowerClass (cls : BitVec 8)
  /-- SHUTDOWN; R388. -/
  | shutdown
  /-- SHUTDOWN_LINK_DOWN; R388: the next link in ascending number; late: 1 ms has passed. -/
  | shutdownLinkDown (late : Bool)
  /-- FW_UPDATE; R372: one step, with the bytes that PTR names. -/
  | fwUpdate (step : BitVec 8) (last : Bool) (act : BitVec 8) (off : Word) (data : List Byte)
  /-- FW_CORE_RESTART; R373: the next control core starts from the new image. -/
  | fwCoreRestart
  /-- FW_RESTART_TIMEOUT; R373: 50 ms without its start. -/
  | fwRestartTimeout
  /-- HOLDUP_RETRY; R369. -/
  | holdupRetry
  /-- HOLDUP_REFUSAL_TIMEOUT; R372: 10 s of refusals. -/
  | holdupRefusalTimeout
  /-- ATTEST; R361. -/
  | attest (buf : Word) (plen : BitVec 32) (nonce : List Byte)
  /-- ZEROISE; R363. -/
  | zeroise (word : BitVec 32) (clear : Bool)
  /-- TAMPER; R364: 0 LID, 1 VOLT, 2 TEMP, 3 CLOCK. -/
  | tamper (cause : Fin 4)
  /-- ENTROPY_FAILURE; R356. -/
  | entropyFailure
  /-- DEBUG_UNLOCK; R362: the 256-byte token. -/
  | debugUnlock (token : List Byte)
  /-- NOR_OP_START; R368. -/
  | norOpStart
  /-- NOR_OP_COMPLETE; R368. -/
  | norOpComplete
  /-- JOURNAL_RECORD; R370. -/
  | journalRecord
  /-- THERMAL_TRIP; R378: cluster k measures deg. -/
  | thermalTrip (k : Fin 16) (deg : BitVec 8)
  /-- CLASS_DESCENT; R379. -/
  | classDescent
  /-- CRITICAL_TEMP; R380: the hottest sensor measures deg. -/
  | criticalTemp (deg : BitVec 8)
  /-- POWER_MEASURE; R377: the measurements of the last 1 ms: package power, the hold-up voltage in 10 mV and HOLDUP_OK, and PWR_TEMP. -/
  | powerMeasure (watts : BitVec 16) (hold : BitVec 12) (holdOk : Bool) (temps : BitVec 32)
  /-- PWRGOOD_DEASSERT; R396. -/
  | pwrgoodDeassert
  /-- VAUX_LOW; R396. -/
  | vauxLow
  /-- PWRGOOD_ASSERT; R381, R356, R364: PWRGOOD has been asserted for 10 ms; the self-tests pass, the lid trace is closed, a NOR device answers. -/
  | pwrgoodAssert (selftest lid : Bool) (nor : Bool)
  /-- WARM_RESET; R381: a write of RST_CTRL.WARM. -/
  | warmReset
  /-- PERST_N_ASSERT; R381. -/
  | perstNAssert
  /-- CLUSTER_RESET; R383: a write of RST_CLUSTER.MASK. -/
  | clusterReset (mask : BitVec 16)
  /-- CLUSTER_RESET_END; R381: 10 µs of the reset of cluster k have passed. -/
  | clusterResetEnd (k : Fin 16)
  /-- CORE_RESET; R383: a write of RST_CORE with GO set and this CORE. -/
  | coreReset (c : CoreId)
  /-- CORE_RESET_END; R381: 1 µs has passed. -/
  | coreResetEnd
  /-- KO_ENTRY; R384. -/
  | koEntry (k : Fin 16)
  /-- SECURE_BOOT; R358. -/
  | secureBoot
  /-- FIRMWARE_START; R385. -/
  | firmwareStart
  /-- CLOCK_START; R385. -/
  | clockStart
  /-- HBM_TRAIN; R385: the stacks that train. -/
  | hbmTrain (pass : BitVec 12)
  /-- LINK_TRAIN_START; R385. -/
  | linkTrainStart
  /-- TIME_ACQUIRE; R56: a step of the acquisition: its state is looked at again. -/
  | timeAcquire
  /-- READY_NOTICE; R386. -/
  | readyNotice
  /-- LINK_RETRAIN_TIMEOUT; R205: 30 ms after the LINK_RETRAIN that is outstanding. -/
  | linkRetrainTimeout
  /-- BATCH_LANDED; R306: the host data of the outstanding PUT_BATCH. -/
  | batchLanded (data : List Byte)
  /-- CRIER_HOST_READ_COMPLETION; R296: the read of the next bytes of the shard of the job on the tree. -/
  | crierHostReadCompletion (tree : BitVec 16) (data : List Byte) (err : Bool)
  /-- PWR_THERM_TRIPLE_CHECK; R378. -/
  | pwrThermTripleCheck
  deriving DecidableEq, Repr

end Sys2Proof
end

