-- ==== Sys2Proof/Decode.lean ====
section
/-!
DEFINITION. The decoder of the table's words. spec/opcode_table.json gives no row any bits, so no word spells a command. The binary
encodings the spec does give, the slots of a core's packet (R63-R72), are read by `Machine.decodeSlot` and written by
`Machine.slotBits` in Machine/Packet.lean.
-/
namespace Sys2Proof

/-- The command that a word of the opcode table spells: none, since the table gives no row bits. -/
def decodeTableWord (_nbits _w : Nat) : Option Instr := none

end Sys2Proof
end

