-- ==== Sys2Proof/Config.lean ====
section
/-!
DEFINITION. What the spec leaves open, as constants without a body: nothing can be proved of their values. Free values (log
entry 2) are numbered by `State.free`. The cryptographic algorithms that 14 names without stating them (ECDSA P-384,
SHA-384, AES-256-GCM, the key derivations) stand here as uninterpreted functions (log entry 9).
-/
namespace Sys2Proof.Config

/-- The n-th free value: a value the spec calls undefined or does not state (log entry 2). -/
opaque freeNat : Nat → Nat

/-- The VDD_CORE in mV that the fuses of a part give a cluster at a target in MHz: target, cluster (R374; log entry 85). -/
opaque fusedVdd : Nat → Nat → Nat

/-- What a lane of VDIV on INT32 gives for a dividend and a divisor of 0, which the spec does not state (log entry 23). -/
opaque intQuotient : Int → Nat

/-- What a lane of VSQRT on INT32 gives for a negative operand, which the spec does not state (log entry 23). -/
opaque intRoot : Int → Nat

/-- Idle bytes before the k-th frame of a link, modulo 5: as many as hold its start word on its stall, by a servo and a line clock that move
apart (R185; log entry 74). -/
opaque idleBytes : Nat → Nat → Nat

/-- Whether the k-th time this chip asks, a link of another chip is UP: link n of chip c (R271; log entry 36). -/
opaque remoteUp : Nat → Nat → Nat → Bool

/-- SHA-384 of a byte string, as a number (log entry 9). -/
opaque sha384 : List Byte → Nat

/-- Whether a signature (third) over a byte string (second) verifies under a public key (ECDSA P-384; log entry 9). -/
opaque sigOk : List Byte → List Byte → List Byte → Bool

/-- The signature of a byte string under a key (log entry 9). -/
opaque sign : Nat → List Byte → List Byte

/-- A key derived from a secret and a label (log entry 9). -/
opaque kdf : Nat → List Byte → Nat

/-- Byte i of the AES-256-GCM key stream of a key and an IV: cipher text is plain text xor key stream (log entry 9). -/
opaque gcmStream : Nat → List Byte → Nat → Byte

/-- The AES-256-GCM tag of additional data and cipher text under a key and an IV (log entry 9). -/
opaque gcmTag : Nat → List Byte → List Byte → List Byte → Nat

/-- The public key of a private key on P-384, uncompressed (log entry 9). -/
opaque pubKey : Nat → List Byte

/-- The ECDH shared secret of a private key and a peer's public key (log entry 9). -/
opaque ecdh : Nat → List Byte → Nat

/-- The identity-CA public key in the boot ROM, whose value the spec does not give (log entry 6). -/
opaque caKey : List Byte

/-- The dwords of PCI configuration space, as far as the spec does not give their bits: the vendor ID, the revision, what the host has written (R339;
log entry 83). -/
opaque pcieDword : Nat → Nat

/-- The bytes of the boot ROM, whose contents the spec does not give (log entry 6). -/
opaque bootRom : Nat → Byte

end Sys2Proof.Config
end

