-- ==== Sys2Proof/Machine/Regs.lean ====
section
/-!
DEFINITION. The register fields of the ZX9, transcribed from the field tables of every chapter of spec/ (block
maps: Offset, Name, Width; field tables: Bits, Field, Access, Reset, Kept by). A field is the unit of storage: it has one
home in `State.regs`, under its code and its instance number. Generated from the tables of spec/ by a script that reads
the section files alone; the four HST_MSIX registers follow the PCI Express layout the spec names (R339; log entry 13).
-/
namespace Sys2Proof.Machine

/-- The access types of the table of 00_scope.md, "Register conventions". -/
inductive Acc | RO | RW | WO | W1C | W1S | RC | ST | LK
  deriving DecidableEq, Repr

/-- The reset classes of R381 other than power-on, which keeps no field. -/
inductive Rst | W | F | K | C | L
  deriving DecidableEq, Repr

/-- One field of a register: its place in the register, its access type, its reset value and the reset classes that keep it. -/
structure Fld where
  code : Nat
  lo : Nat
  w : Nat
  acc : Acc
  rst : Nat
  kept : List Rst
  deriving DecidableEq, Repr

/-- The register blocks of R161 and of the core window. -/
inductive Blk
  | chip | clk | bel | core | mxe | vec | prt | pmc | hbm | lnk | stl | opn | wgt | ldg | ctl | mbx | hst | sec | lif | pwr | rst
  deriving DecidableEq, Repr

/-- One register of a block map: the block, the offset of element 0, the stride and the number of elements of an array, the width
in bits and the fields. -/
structure Reg where
  code : Nat
  blk : Blk
  off : Nat
  stride : Nat
  cnt : Nat
  width : Nat
  flds : List Fld
  deriving DecidableEq, Repr

/-- Kept by none. -/
abbrev keptNone : List Rst := []
/-- Kept by F. -/
abbrev keptF : List Rst := [.F]
/-- Kept by F, C, L. -/
abbrev keptFCL : List Rst := [.F, .C, .L]
/-- Kept by F, K, C. -/
abbrev keptFKC : List Rst := [.F, .K, .C]
/-- Kept by F, K, C, L. -/
abbrev keptFKCL : List Rst := [.F, .K, .C, .L]
/-- Kept by F, K, L. -/
abbrev keptFKL : List Rst := [.F, .K, .L]
/-- Kept by F, L. -/
abbrev keptFL : List Rst := [.F, .L]
/-- Kept by K, C, L. -/
abbrev keptKCL : List Rst := [.K, .C, .L]
/-- Kept by W, F, K, C, L. -/
abbrev keptWFKCL : List Rst := [.W, .F, .K, .C, .L]

namespace Fld

-- CLK_REFLOSS
def CLK_REFLOSS_LOST : Fld := ⟨0, 0, 1, .W1C, 0, keptFKCL⟩
def CLK_REFLOSS_PRESENT : Fld := ⟨1, 1, 1, .RO, 0, keptNone⟩
def CLK_REFLOSS_COUNT : Fld := ⟨2, 16, 32, .RO, 0, keptFKCL⟩

-- CLK_REFMON_CFG
def CLK_REFMON_CFG_PPM_LIMIT : Fld := ⟨3, 0, 16, .RW, 0x3e8, keptFKCL⟩
def CLK_REFMON_CFG_QUAL_MS : Fld := ⟨4, 16, 8, .RW, 0xa, keptFKCL⟩

-- CLK_TARGET
def CLK_TARGET_MHZ : Fld := ⟨5, 0, 12, .RO, 0x76c, keptFKCL⟩

-- CLK_FCHG_TARGET
def CLK_FCHG_TARGET_MHZ : Fld := ⟨6, 0, 12, .ST, 0, keptFKCL⟩

-- CLK_FCHG_MASK
def CLK_FCHG_MASK_REGIONS : Fld := ⟨7, 0, 24, .ST, 0, keptFKCL⟩

-- CLK_FCHG_BELL
def CLK_FCHG_BELL_BELL : Fld := ⟨8, 0, 32, .ST, 0, keptFKCL⟩

-- CLK_FCHG_CTRL
def CLK_FCHG_CTRL_ARM : Fld := ⟨9, 0, 1, .W1S, 0, keptFKCL⟩
def CLK_FCHG_CTRL_STATUS : Fld := ⟨10, 4, 4, .RO, 0, keptFKCL⟩

-- CLK_XALIGN
def CLK_XALIGN_ALIGNED : Fld := ⟨11, 0, 1, .RO, 0, keptF⟩
def CLK_XALIGN_FAIL : Fld := ⟨12, 1, 1, .W1C, 0, keptF⟩
def CLK_XALIGN_FAIL_REGION : Fld := ⟨13, 2, 5, .RO, 0, keptF⟩

-- CLK_RGN_STATUS
def CLK_RGN_STATUS_LOCKED : Fld := ⟨14, 0, 1, .RO, 0, keptFCL⟩
def CLK_RGN_STATUS_HALVED : Fld := ⟨15, 1, 1, .RO, 0, keptFCL⟩
def CLK_RGN_STATUS_HOLDING : Fld := ⟨16, 2, 1, .RO, 0, keptFCL⟩
def CLK_RGN_STATUS_STOPPED : Fld := ⟨17, 3, 1, .RO, 0, keptFCL⟩
def CLK_RGN_STATUS_DROOP_OVER : Fld := ⟨18, 4, 1, .W1C, 0, keptFCL⟩
def CLK_RGN_STATUS_AVG_MHZ : Fld := ⟨19, 16, 12, .RO, 0, keptFCL⟩

-- CLK_RGN_DROOP
def CLK_RGN_DROOP_EVENTS : Fld := ⟨20, 0, 32, .RC, 0, keptFCL⟩
def CLK_RGN_DROOP_MAX_STRETCH : Fld := ⟨21, 32, 8, .RC, 0, keptFCL⟩
def CLK_RGN_DROOP_XDRIFT : Fld := ⟨22, 40, 24, .RC, 0, keptFCL⟩

-- BEL_CTRL
def BEL_CTRL_ROOT : Fld := ⟨23, 0, 1, .RW, 0, keptFKCL⟩
def BEL_CTRL_JOIN : Fld := ⟨24, 1, 1, .W1S, 0, keptFKCL⟩

-- BEL_STATUS
def BEL_STATUS_JOINED : Fld := ⟨25, 0, 1, .RO, 0, keptFKCL⟩
def BEL_STATUS_HOLDOVER : Fld := ⟨26, 1, 1, .RO, 0, keptFKCL⟩
def BEL_STATUS_REF_HOLDOVER : Fld := ⟨27, 2, 1, .RO, 0, keptFKCL⟩
def BEL_STATUS_CFG_MISMATCH : Fld := ⟨28, 3, 1, .W1C, 0, keptFKCL⟩
def BEL_STATUS_INC_CLAMP : Fld := ⟨29, 4, 1, .W1C, 0, keptFKCL⟩
def BEL_STATUS_WALL_BADSET : Fld := ⟨30, 5, 1, .W1C, 0, keptFKCL⟩
def BEL_STATUS_ALT_ACTIVE : Fld := ⟨31, 6, 1, .RO, 0, keptFKCL⟩
def BEL_STATUS_PARENT_FRESH : Fld := ⟨32, 32, 2, .RO, 0, keptFKC⟩

-- BEL_NOW
def BEL_NOW_BELL : Fld := ⟨33, 0, 64, .RO, 0, keptFKCL⟩

-- BEL_PHASE
def BEL_PHASE_NS : Fld := ⟨34, 16, 16, .RO, 0, keptFKCL⟩
def BEL_PHASE_FRAC : Fld := ⟨35, 0, 16, .RO, 0, keptFKCL⟩

-- BEL_FT_INC
def BEL_FT_INC_INC : Fld := ⟨36, 0, 40, .RW, 0x100000000, keptFKCL⟩

-- BEL_FT_STEP
def BEL_FT_STEP_STEP : Fld := ⟨37, 0, 48, .WO, 0, keptNone⟩

-- BEL_FT_SETBELL
def BEL_FT_SETBELL_BELL : Fld := ⟨38, 0, 64, .WO, 0, keptNone⟩

-- BEL_LEN
def BEL_LEN_US : Fld := ⟨39, 0, 7, .ST, 0x10, keptFKCL⟩

-- BEL_ROUND_LEN
def BEL_ROUND_LEN_LEN_M1 : Fld := ⟨40, 0, 12, .ST, 0, keptFKCL⟩

-- BEL_ROUND_ORIGIN
def BEL_ROUND_ORIGIN_BELL : Fld := ⟨41, 0, 64, .ST, 0, keptFKCL⟩

-- BEL_COMMIT
def BEL_COMMIT_BELL : Fld := ⟨42, 0, 32, .RW, 0, keptFKCL⟩
def BEL_COMMIT_ARM : Fld := ⟨43, 32, 1, .W1S, 0, keptFKCL⟩
def BEL_COMMIT_STATUS : Fld := ⟨44, 33, 3, .RO, 0, keptFKCL⟩

-- BEL_ACTIVE
def BEL_ACTIVE_US : Fld := ⟨45, 0, 7, .RO, 0x10, keptFKCL⟩
def BEL_ACTIVE_LEN_M1 : Fld := ⟨46, 16, 12, .RO, 0, keptFKCL⟩

-- BEL_ROUND_POS
def BEL_ROUND_POS_POS : Fld := ⟨47, 0, 12, .RO, 0, keptFKCL⟩

-- BEL_PARENT
def BEL_PARENT_PARENT : Fld := ⟨48, 0, 6, .RW, 0, keptFKCL⟩
def BEL_PARENT_ALT : Fld := ⟨49, 8, 6, .RW, 0, keptFKCL⟩
def BEL_PARENT_ALT_EN : Fld := ⟨50, 15, 1, .RW, 0, keptFKCL⟩

-- BEL_HOLD_LIMIT
def BEL_HOLD_LIMIT_BELLS : Fld := ⟨51, 0, 16, .RW, 0x40, keptFKCL⟩

-- BEL_TS_DEP
def BEL_TS_DEP_TS : Fld := ⟨52, 0, 64, .RO, 0, keptFKC⟩

-- BEL_TS_ARR
def BEL_TS_ARR_TS : Fld := ⟨53, 0, 64, .RO, 0, keptFKC⟩

-- BEL_LINKDLY
def BEL_LINKDLY_DLY : Fld := ⟨54, 0, 32, .RO, 0, keptFKC⟩

-- BEL_WALL_S
def BEL_WALL_S_S : Fld := ⟨55, 0, 48, .RO, 0, keptFKCL⟩

-- BEL_WALL_NS
def BEL_WALL_NS_NS : Fld := ⟨56, 0, 30, .RO, 0, keptFKCL⟩

-- BEL_WALL_INC
def BEL_WALL_INC_INC : Fld := ⟨57, 0, 40, .RW, 0x100000000, keptFKCL⟩

-- BEL_WALL_SET_S
def BEL_WALL_SET_S_S : Fld := ⟨58, 0, 48, .RW, 0, keptFKCL⟩

-- BEL_WALL_SET_NS
def BEL_WALL_SET_NS_NS : Fld := ⟨59, 0, 30, .WO, 0, keptNone⟩

-- BEL_PPS_CAP_S
def BEL_PPS_CAP_S_S : Fld := ⟨60, 0, 48, .RO, 0, keptFKCL⟩

-- BEL_PPS_CAP_NS
def BEL_PPS_CAP_NS_NS : Fld := ⟨61, 0, 30, .RO, 0, keptFKCL⟩

-- BEL_PPS_CAP_FT
def BEL_PPS_CAP_FT_TS : Fld := ⟨62, 0, 64, .RO, 0, keptFKCL⟩

-- BEL_PPS_CTRL
def BEL_PPS_CTRL_EN : Fld := ⟨63, 0, 1, .RW, 0, keptFKCL⟩
def BEL_PPS_CTRL_EDGES : Fld := ⟨64, 16, 16, .RO, 0, keptFKCL⟩

-- BEL_TRIG_CMP
def BEL_TRIG_CMP_BELL : Fld := ⟨65, 0, 32, .RW, 0, keptFKCL⟩

-- BEL_TRIG_CTRL
def BEL_TRIG_CTRL_ARM : Fld := ⟨66, 0, 1, .W1S, 0, keptFKCL⟩
def BEL_TRIG_CTRL_LATE : Fld := ⟨67, 1, 1, .W1C, 0, keptFKCL⟩
def BEL_TRIG_CTRL_KIND : Fld := ⟨68, 2, 1, .RW, 0, keptFKCL⟩
def BEL_TRIG_CTRL_CORE : Fld := ⟨69, 3, 7, .RW, 0, keptFKCL⟩
def BEL_TRIG_CTRL_EVENT : Fld := ⟨70, 10, 4, .RW, 0, keptFKCL⟩

-- BEL_QUIET
def BEL_QUIET_MAP : Fld := ⟨71, 0, 64, .ST, 0, keptFKCL⟩

-- CORE_CTRL
def CORE_CTRL_HOLD : Fld := ⟨72, 0, 1, .RW, 0, keptFL⟩
def CORE_CTRL_FENCE : Fld := ⟨73, 1, 1, .RW, 0, keptFCL⟩
def CORE_CTRL_FAULT_IRQ_EN : Fld := ⟨74, 2, 1, .RW, 1, keptFCL⟩

-- CORE_STATUS
def CORE_STATUS_STATE : Fld := ⟨75, 0, 3, .RO, 0, keptFL⟩
def CORE_STATUS_WAIT_KIND : Fld := ⟨76, 4, 3, .RO, 0, keptFL⟩
def CORE_STATUS_EVT_SAT : Fld := ⟨77, 16, 16, .W1C, 0, keptFL⟩

-- CORE_BIND
def CORE_BIND_LOGICAL : Fld := ⟨78, 0, 7, .RW, 0, keptFCL⟩
def CORE_BIND_BOUND : Fld := ⟨79, 7, 1, .RW, 0, keptFCL⟩
def CORE_BIND_IMAGE : Fld := ⟨80, 8, 3, .RW, 0, keptFCL⟩

-- CORE_PROG
def CORE_PROG_SIZE : Fld := ⟨81, 0, 4, .RW, 3, keptFCL⟩
def CORE_PROG_ENTRY : Fld := ⟨82, 4, 16, .RW, 0, keptFCL⟩

-- CORE_PC
def CORE_PC_PC : Fld := ⟨83, 0, 16, .RO, 0, keptFL⟩

-- CORE_SHAPE
def CORE_SHAPE_NCORE : Fld := ⟨84, 0, 8, .RW, 0, keptFCL⟩
def CORE_SHAPE_NCHIP : Fld := ⟨85, 16, 16, .RW, 0, keptFCL⟩
def CORE_SHAPE_MYCHIP : Fld := ⟨86, 32, 15, .RW, 0, keptFCL⟩

-- CORE_STEP
def CORE_STEP_STEP : Fld := ⟨87, 0, 64, .RW, 0, keptFL⟩

-- CORE_ARG
def CORE_ARG_ARG : Fld := ⟨88, 0, 64, .RW, 0, keptFCL⟩

-- CORE_WAIT_LIMIT
def CORE_WAIT_LIMIT_BELLS : Fld := ⟨89, 0, 16, .RW, 0x400, keptFCL⟩

-- CORE_FAULT
def CORE_FAULT_VALID : Fld := ⟨90, 0, 1, .W1C, 0, keptFCL⟩
def CORE_FAULT_OVERRUN : Fld := ⟨91, 1, 1, .W1C, 0, keptFCL⟩
def CORE_FAULT_CODE : Fld := ⟨92, 8, 8, .RO, 0, keptFCL⟩
def CORE_FAULT_SLOT : Fld := ⟨93, 16, 2, .RO, 0, keptFCL⟩
def CORE_FAULT_DETAIL : Fld := ⟨94, 32, 32, .RO, 0, keptFCL⟩

-- CORE_FAULT_PC
def CORE_FAULT_PC_PC : Fld := ⟨95, 0, 16, .RO, 0, keptFCL⟩

-- CORE_FAULT_ADDR
def CORE_FAULT_ADDR_ADDR : Fld := ⟨96, 0, 64, .RO, 0, keptFCL⟩

-- CORE_FAULT_BELL
def CORE_FAULT_BELL_BELL : Fld := ⟨97, 0, 64, .RO, 0, keptFCL⟩

-- CORE_LATE
def CORE_LATE_BELLS : Fld := ⟨98, 0, 32, .RC, 0, keptFL⟩

-- CORE_PACK_OVF
def CORE_PACK_OVF_STEP_OVF : Fld := ⟨99, 0, 32, .RO, 0, keptFL⟩
def CORE_PACK_OVF_TOTAL : Fld := ⟨100, 32, 32, .RC, 0, keptFL⟩

-- CORE_EVT
def CORE_EVT_COUNT : Fld := ⟨101, 0, 16, .RO, 0, keptFL⟩

-- MXE_CTRL
def MXE_CTRL_INV : Fld := ⟨102, 0, 1, .ST, 0, keptFCL⟩
def MXE_CTRL_ZGATE_EN : Fld := ⟨103, 1, 1, .RW, 1, keptFCL⟩
def MXE_CTRL_NILGATE_EN : Fld := ⟨104, 2, 1, .RW, 1, keptFCL⟩

-- MXE_STATUS
def MXE_STATUS_INV_ACTIVE : Fld := ⟨105, 0, 1, .RO, 0, keptFCL⟩
def MXE_STATUS_NINV : Fld := ⟨106, 1, 1, .W1C, 0, keptFL⟩
def MXE_STATUS_ISAT : Fld := ⟨107, 2, 1, .W1C, 0, keptFL⟩

-- MXE_CFG
def MXE_CFG_WF : Fld := ⟨108, 0, 4, .RO, 0, keptFL⟩
def MXE_CFG_AF : Fld := ⟨109, 4, 4, .RO, 0, keptFL⟩
def MXE_CFG_WS : Fld := ⟨110, 8, 1, .RO, 0, keptFL⟩
def MXE_CFG_AS : Fld := ⟨111, 9, 1, .RO, 0, keptFL⟩
def MXE_CFG_SP : Fld := ⟨112, 10, 1, .RO, 0, keptFL⟩

-- MXE_RUN_CYC
def MXE_RUN_CYC_CYCLES : Fld := ⟨113, 0, 64, .RC, 0, keptFL⟩

-- MXE_MASK_ROWS
def MXE_MASK_ROWS_ROWS : Fld := ⟨114, 0, 64, .RC, 0, keptFL⟩

-- MXE_NIL_ROWS
def MXE_NIL_ROWS_ROWS : Fld := ⟨115, 0, 64, .RC, 0, keptFL⟩

-- MXE_WAIT_CYC
def MXE_WAIT_CYC_CYCLES : Fld := ⟨116, 0, 64, .RC, 0, keptFL⟩

-- VEC_SEED
def VEC_SEED_SEED : Fld := ⟨117, 0, 64, .RW, 0, keptFCL⟩

-- VEC_STATUS
def VEC_STATUS_SAT : Fld := ⟨118, 0, 1, .W1C, 0, keptFL⟩
def VEC_STATUS_NAN_LOST : Fld := ⟨119, 1, 1, .W1C, 0, keptFL⟩
def VEC_STATUS_INVALID : Fld := ⟨120, 2, 1, .W1C, 0, keptFL⟩

-- HBM_CTRL
def HBM_CTRL_MARGIN : Fld := ⟨121, 0, 2, .ST, 2, keptFKCL⟩
def HBM_CTRL_HOT_FORCE : Fld := ⟨122, 4, 1, .RW, 0, keptFKCL⟩
def HBM_CTRL_UE_IRQ_EN : Fld := ⟨123, 5, 1, .RW, 1, keptFKCL⟩

-- HBM_STATUS
def HBM_STATUS_TRAINED : Fld := ⟨124, 0, 1, .RO, 0, keptWFKCL⟩
def HBM_STATUS_HOT : Fld := ⟨125, 1, 1, .RO, 0, keptWFKCL⟩
def HBM_STATUS_FAIL : Fld := ⟨126, 2, 1, .RO, 0, keptWFKCL⟩
def HBM_STATUS_CFG_MISMATCH : Fld := ⟨127, 3, 1, .W1C, 0, keptFKCL⟩
def HBM_STATUS_MARGIN_ACT : Fld := ⟨128, 4, 2, .RO, 2, keptFKCL⟩

-- HBM_TEMP
def HBM_TEMP_DEG : Fld := ⟨129, 0, 8, .RO, 0, keptWFKCL⟩
def HBM_TEMP_HOT_ON : Fld := ⟨130, 8, 8, .RW, 0x55, keptFKCL⟩
def HBM_TEMP_HOT_OFF : Fld := ⟨131, 16, 8, .RW, 0x53, keptFKCL⟩

-- HBM_ECC_CE
def HBM_ECC_CE_COUNT : Fld := ⟨132, 0, 48, .RO, 0, keptWFKCL⟩

-- HBM_ECC_UE
def HBM_ECC_UE_COUNT : Fld := ⟨133, 0, 48, .RO, 0, keptWFKCL⟩

-- HBM_UE_ADDR
def HBM_UE_ADDR_ADDR : Fld := ⟨134, 0, 44, .RO, 0, keptWFKCL⟩
def HBM_UE_ADDR_VALID : Fld := ⟨135, 63, 1, .W1C, 0, keptWFKCL⟩

-- HBM_LATE
def HBM_LATE_SLOTS : Fld := ⟨136, 0, 48, .RO, 0, keptFKCL⟩

-- HBM_HOT_US
def HBM_HOT_US_US : Fld := ⟨137, 0, 48, .RO, 0, keptWFKCL⟩

-- LNK_CTRL
def LNK_CTRL_EN : Fld := ⟨138, 0, 1, .RW, 0, keptFKCL⟩
def LNK_CTRL_RETRAIN : Fld := ⟨139, 1, 1, .W1S, 0, keptNone⟩
def LNK_CTRL_RESET : Fld := ⟨140, 2, 1, .W1S, 0, keptNone⟩
def LNK_CTRL_FLUSH : Fld := ⟨141, 3, 1, .W1S, 0, keptNone⟩
def LNK_CTRL_ERR_IRQ_EN : Fld := ⟨142, 4, 1, .RW, 1, keptFKCL⟩
def LNK_CTRL_DOWN_IRQ_EN : Fld := ⟨143, 5, 1, .RW, 1, keptFKCL⟩

-- LNK_CFG
def LNK_CFG_LANE_MASK : Fld := ⟨144, 0, 4, .ST, 0xf, keptFKCL⟩
def LNK_CFG_WIDTH_MAX : Fld := ⟨145, 4, 2, .ST, 3, keptFKCL⟩
def LNK_CFG_SPEED : Fld := ⟨146, 6, 1, .ST, 0, keptFKCL⟩
def LNK_CFG_ENC_EN : Fld := ⟨147, 7, 1, .ST, 0, keptFKCL⟩

-- LNK_STATUS
def LNK_STATUS_STATE : Fld := ⟨148, 0, 4, .RO, 0, keptFKC⟩
def LNK_STATUS_WIDTH_ACT : Fld := ⟨149, 4, 2, .RO, 0, keptFKC⟩
def LNK_STATUS_SPEED_ACT : Fld := ⟨150, 6, 1, .RO, 0, keptFKC⟩
def LNK_STATUS_LANES_OK : Fld := ⟨151, 8, 4, .RO, 0, keptFKC⟩
def LNK_STATUS_GRACE : Fld := ⟨152, 12, 1, .RO, 0, keptFKCL⟩
def LNK_STATUS_RETRAIN_PEND : Fld := ⟨153, 13, 1, .RO, 0, keptFKC⟩
def LNK_STATUS_ENC_ACT : Fld := ⟨154, 14, 1, .RO, 0, keptFKC⟩
def LNK_STATUS_FLUSHED : Fld := ⟨155, 16, 1, .W1C, 0, keptFKCL⟩
def LNK_STATUS_CFG_MISMATCH : Fld := ⟨156, 17, 1, .W1C, 0, keptFKCL⟩
def LNK_STATUS_AUTH_FAIL : Fld := ⟨157, 18, 1, .W1C, 0, keptFKCL⟩
def LNK_STATUS_REASON : Fld := ⟨158, 19, 3, .RO, 0, keptFKC⟩
def LNK_STATUS_ERR_WIN : Fld := ⟨159, 48, 16, .RO, 0, keptFKC⟩

-- LNK_PEER
def LNK_PEER_CHIP : Fld := ⟨160, 0, 15, .RO, 0, keptFKC⟩
def LNK_PEER_LINK : Fld := ⟨161, 16, 6, .RO, 0, keptFKC⟩
def LNK_PEER_VALID : Fld := ⟨162, 31, 1, .RO, 0, keptFKC⟩

-- LNK_EXPECT
def LNK_EXPECT_CHIP : Fld := ⟨163, 0, 15, .RW, 0, keptFKCL⟩
def LNK_EXPECT_LINK : Fld := ⟨164, 16, 6, .RW, 0, keptFKCL⟩
def LNK_EXPECT_CHECK_EN : Fld := ⟨165, 31, 1, .RW, 0, keptFKCL⟩

-- LNK_GRACE
def LNK_GRACE_UNITS : Fld := ⟨166, 0, 10, .RW, 0x14, keptFKCL⟩

-- LNK_RPL_CFG
def LNK_RPL_CFG_TMO_EXTRA : Fld := ⟨167, 0, 11, .RW, 0xc8, keptFKCL⟩
def LNK_RPL_CFG_LIMIT : Fld := ⟨168, 16, 4, .RW, 8, keptFKCL⟩

-- LNK_RTT
def LNK_RTT_RTT : Fld := ⟨169, 0, 32, .RO, 0, keptFKC⟩

-- LNK_ERR_CFG
def LNK_ERR_CFG_WINDOW : Fld := ⟨170, 0, 16, .RW, 0x40, keptFKCL⟩
def LNK_ERR_CFG_LIMIT : Fld := ⟨171, 16, 16, .RW, 0x10, keptFKCL⟩

-- LNK_ENC
def LNK_ENC_EPOCH : Fld := ⟨172, 0, 16, .RO, 0, keptFKC⟩
def LNK_ENC_REKEY_BELL : Fld := ⟨173, 16, 32, .RW, 0, keptFKCL⟩
def LNK_ENC_REKEY_ARM : Fld := ⟨174, 48, 1, .W1S, 0, keptFKC⟩
def LNK_ENC_REKEY_STATUS : Fld := ⟨175, 49, 3, .RO, 0, keptFKC⟩

-- LNK_SEQ
def LNK_SEQ_TX_NEXT : Fld := ⟨176, 0, 16, .RO, 0, keptFKC⟩
def LNK_SEQ_TX_ACKED : Fld := ⟨177, 16, 16, .RO, 0xffff, keptFKC⟩
def LNK_SEQ_RX_LAST : Fld := ⟨178, 32, 16, .RO, 0xffff, keptFKC⟩

-- LNK_MOD
def LNK_MOD_PRESENT : Fld := ⟨179, 0, 1, .RO, 0, keptFKCL⟩
def LNK_MOD_INT : Fld := ⟨180, 1, 1, .RO, 0, keptFKCL⟩
def LNK_MOD_RESET : Fld := ⟨181, 2, 1, .RW, 1, keptFKCL⟩
def LNK_MOD_LPMODE : Fld := ⟨182, 3, 1, .RW, 1, keptFKCL⟩

-- LNK_LANE
def LNK_LANE_SIGNAL : Fld := ⟨183, 0, 1, .RO, 0, keptFKC⟩
def LNK_LANE_LOCK : Fld := ⟨184, 1, 1, .RO, 0, keptFKC⟩
def LNK_LANE_SNR : Fld := ⟨185, 8, 8, .RO, 0, keptFKC⟩
def LNK_LANE_SYMERR : Fld := ⟨186, 16, 16, .RO, 0, keptFKC⟩

-- LNK_CNT_CRC
def LNK_CNT_CRC_COUNT : Fld := ⟨187, 0, 48, .RO, 0, keptWFKCL⟩

-- LNK_CNT_FECSYM
def LNK_CNT_FECSYM_COUNT : Fld := ⟨188, 0, 48, .RO, 0, keptWFKCL⟩

-- LNK_CNT_NAK
def LNK_CNT_NAK_COUNT : Fld := ⟨189, 0, 48, .RO, 0, keptWFKCL⟩

-- LNK_CNT_RPL
def LNK_CNT_RPL_COUNT : Fld := ⟨190, 0, 48, .RO, 0, keptWFKCL⟩

-- LNK_CNT_TMO
def LNK_CNT_TMO_COUNT : Fld := ⟨191, 0, 48, .RO, 0, keptWFKCL⟩

-- LNK_CNT_RPLFR
def LNK_CNT_RPLFR_COUNT : Fld := ⟨192, 0, 48, .RO, 0, keptWFKCL⟩

-- LNK_CNT_STALL
def LNK_CNT_STALL_COUNT : Fld := ⟨193, 0, 48, .RO, 0, keptWFKCL⟩

-- LNK_CNT_LATE
def LNK_CNT_LATE_COUNT : Fld := ⟨194, 0, 48, .RO, 0, keptWFKCL⟩

-- LNK_CNT_FAST
def LNK_CNT_FAST_COUNT : Fld := ⟨195, 0, 48, .RO, 0, keptWFKCL⟩

-- LNK_CNT_FULL
def LNK_CNT_FULL_COUNT : Fld := ⟨196, 0, 48, .RO, 0, keptWFKCL⟩

-- LNK_CNT_TFAIL
def LNK_CNT_TFAIL_COUNT : Fld := ⟨197, 0, 48, .RO, 0, keptWFKCL⟩

-- LNK_CNT_LANELOSS
def LNK_CNT_LANELOSS_COUNT : Fld := ⟨198, 0, 48, .RO, 0, keptWFKCL⟩

-- LNK_CNT_FLUSH
def LNK_CNT_FLUSH_COUNT : Fld := ⟨199, 0, 48, .RO, 0, keptWFKCL⟩

-- LNK_CNT_BELLMIS
def LNK_CNT_BELLMIS_COUNT : Fld := ⟨200, 0, 48, .RO, 0, keptWFKCL⟩

-- STL_CTRL
def STL_CTRL_HOLD_IRQ_EN : Fld := ⟨201, 0, 1, .RW, 1, keptFKCL⟩
def STL_CTRL_BAD_IRQ_EN : Fld := ⟨202, 1, 1, .RW, 1, keptFKCL⟩

-- STL_CFG
def STL_CFG_REQ : Fld := ⟨203, 0, 6, .ST, 3, keptFKCL⟩
def STL_CFG_RPL : Fld := ⟨204, 8, 6, .ST, 3, keptFKCL⟩
def STL_CFG_CTL : Fld := ⟨205, 16, 5, .ST, 2, keptFKCL⟩
def STL_CFG_AWN : Fld := ⟨206, 24, 6, .ST, 0xc, keptFKCL⟩

-- STL_ACT
def STL_ACT_REQ : Fld := ⟨207, 0, 6, .RO, 3, keptFKCL⟩
def STL_ACT_RPL : Fld := ⟨208, 8, 6, .RO, 3, keptFKCL⟩
def STL_ACT_CTL : Fld := ⟨209, 16, 5, .RO, 2, keptFKCL⟩
def STL_ACT_AWN : Fld := ⟨210, 24, 6, .RO, 0xc, keptFKCL⟩

-- STL_STATUS
def STL_STATUS_CFG_MISMATCH : Fld := ⟨211, 0, 1, .W1C, 0, keptFKCL⟩
def STL_STATUS_PAGE_BAD : Fld := ⟨212, 1, 1, .W1C, 0, keptFKCL⟩
def STL_STATUS_DESC_BAD : Fld := ⟨213, 2, 1, .W1C, 0, keptFKCL⟩
def STL_STATUS_HOLD_FULL : Fld := ⟨214, 3, 1, .W1C, 0, keptFKCL⟩
def STL_STATUS_LOADING : Fld := ⟨215, 4, 1, .RO, 0, keptFKCL⟩

-- STL_TXBASE
def STL_TXBASE_BASE : Fld := ⟨216, 16, 28, .ST, 0, keptFKCL⟩

-- STL_RXBASE
def STL_RXBASE_BASE : Fld := ⟨217, 16, 28, .ST, 0, keptFKCL⟩

-- STL_TXBASE_ACT
def STL_TXBASE_ACT_BASE : Fld := ⟨218, 16, 28, .RO, 0, keptFKCL⟩

-- STL_RXBASE_ACT
def STL_RXBASE_ACT_BASE : Fld := ⟨219, 16, 28, .RO, 0, keptFKCL⟩

-- STL_COMMIT
def STL_COMMIT_BELL : Fld := ⟨220, 0, 32, .RW, 0, keptFKCL⟩
def STL_COMMIT_ARM : Fld := ⟨221, 32, 1, .W1S, 0, keptFKCL⟩
def STL_COMMIT_STATUS : Fld := ⟨222, 33, 3, .RO, 0, keptFKCL⟩

-- STL_TXPAGE
def STL_TXPAGE_PAGE : Fld := ⟨223, 0, 12, .RO, 0, keptFKCL⟩

-- STL_RXCUR
def STL_RXCUR_BELL : Fld := ⟨224, 0, 64, .RO, 0, keptFKCL⟩

-- STL_FAULT
def STL_FAULT_FLOW : Fld := ⟨225, 0, 12, .RO, 0, keptFKCL⟩
def STL_FAULT_GRANULE : Fld := ⟨226, 12, 16, .RO, 0, keptFKCL⟩
def STL_FAULT_BELL : Fld := ⟨227, 32, 32, .RO, 0, keptFKCL⟩

-- STL_CNT_EMPTY
def STL_CNT_EMPTY_COUNT : Fld := ⟨228, 0, 48, .RO, 0, keptWFKCL⟩

-- STL_CNT_HELD
def STL_CNT_HELD_COUNT : Fld := ⟨229, 0, 48, .RO, 0, keptWFKCL⟩

-- STL_CNT_AWN
def STL_CNT_AWN_COUNT : Fld := ⟨230, 0, 48, .RO, 0, keptWFKCL⟩

-- STL_CNT_RXLATE
def STL_CNT_RXLATE_COUNT : Fld := ⟨231, 0, 48, .RO, 0, keptWFKCL⟩

-- STL_CNT_PAGEBAD
def STL_CNT_PAGEBAD_COUNT : Fld := ⟨232, 0, 48, .RO, 0, keptWFKCL⟩

-- STL_CNT_REFUSED
def STL_CNT_REFUSED_COUNT : Fld := ⟨233, 0, 48, .RO, 0, keptWFKCL⟩

-- FLW_SEL
def FLW_SEL_FLOW : Fld := ⟨234, 0, 12, .RW, 0, keptFKCL⟩
def FLW_SEL_DIR : Fld := ⟨235, 12, 1, .RW, 0, keptFKCL⟩

-- FLW_STATE
def FLW_STATE_PCOUNT : Fld := ⟨236, 0, 8, .RO, 0, keptFKCL⟩
def FLW_STATE_SLOT : Fld := ⟨237, 8, 4, .RO, 0, keptFKCL⟩
def FLW_STATE_CURSOR : Fld := ⟨238, 12, 16, .RO, 0, keptFKCL⟩
def FLW_STATE_ACTIVE : Fld := ⟨239, 28, 1, .RO, 0, keptFKCL⟩
def FLW_STATE_REFUSED : Fld := ⟨240, 29, 1, .RO, 0, keptFKCL⟩
def FLW_STATE_RESET_BUSY : Fld := ⟨241, 30, 1, .W1C, 0, keptFKCL⟩
def FLW_STATE_PUTS : Fld := ⟨242, 32, 4, .RO, 0, keptFKCL⟩

-- FLW_CTRL
def FLW_CTRL_RESET : Fld := ⟨243, 0, 1, .W1S, 0, keptNone⟩

-- OPN_THROTTLE
def OPN_THROTTLE_ON : Fld := ⟨244, 0, 12, .RW, 0x100, keptFKCL⟩
def OPN_THROTTLE_OFF : Fld := ⟨245, 16, 12, .RW, 0x80, keptFKCL⟩

-- OPN_STATUS
def OPN_STATUS_CFG_MISMATCH : Fld := ⟨246, 0, 1, .W1C, 0, keptFKCL⟩
def OPN_STATUS_THROTTLING : Fld := ⟨247, 1, 1, .RO, 0, keptFKCL⟩

-- OPN_ROUTE_BASE
def OPN_ROUTE_BASE_BASE : Fld := ⟨248, 16, 28, .ST, 0, keptFKCL⟩

-- OPN_ROUTE_ACT
def OPN_ROUTE_ACT_BASE : Fld := ⟨249, 16, 28, .RO, 0, keptFKCL⟩

-- OPN_COMMIT
def OPN_COMMIT_BELL : Fld := ⟨250, 0, 32, .RW, 0, keptFKCL⟩
def OPN_COMMIT_ARM : Fld := ⟨251, 32, 1, .W1S, 0, keptFKCL⟩
def OPN_COMMIT_STATUS : Fld := ⟨252, 33, 3, .RO, 0, keptFKCL⟩

-- OPN_RBUF
def OPN_RBUF_REQ : Fld := ⟨253, 0, 8, .ST, 0x10, keptFKC⟩
def OPN_RBUF_RPL : Fld := ⟨254, 8, 8, .ST, 0x10, keptFKC⟩

-- OPN_RBUF_ACT
def OPN_RBUF_ACT_REQ : Fld := ⟨255, 0, 8, .RO, 0x10, keptFKC⟩
def OPN_RBUF_ACT_RPL : Fld := ⟨256, 8, 8, .RO, 0x10, keptFKC⟩

-- OPN_CNT_THROTTLE
def OPN_CNT_THROTTLE_COUNT : Fld := ⟨257, 0, 48, .RO, 0, keptWFKCL⟩

-- OPN_CNT_CREDIT
def OPN_CNT_CREDIT_COUNT : Fld := ⟨258, 0, 48, .RO, 0, keptWFKCL⟩

-- OPN_CNT_FWD
def OPN_CNT_FWD_COUNT : Fld := ⟨259, 0, 48, .RO, 0, keptWFKCL⟩

-- OPN_CNT_ROUTE
def OPN_CNT_ROUTE_COUNT : Fld := ⟨260, 0, 48, .RO, 0, keptWFKCL⟩

-- PRT_CTRL
def PRT_CTRL_ERR_IRQ_EN : Fld := ⟨261, 0, 1, .RW, 1, keptFCL⟩
def PRT_CTRL_WATCH_IRQ_EN : Fld := ⟨262, 1, 1, .RW, 1, keptFCL⟩

-- PRT_CFG
def PRT_CFG_OPEN_TMO : Fld := ⟨263, 0, 16, .RW, 0x1000, keptFCL⟩

-- PRT_STATUS
def PRT_STATUS_INFLIGHT : Fld := ⟨264, 0, 8, .RO, 0, keptFL⟩
def PRT_STATUS_STREAMS : Fld := ⟨265, 8, 4, .RO, 0, keptFL⟩

-- PRT_ERR
def PRT_ERR_VALID : Fld := ⟨266, 0, 1, .W1C, 0, keptFCL⟩
def PRT_ERR_OVERRUN : Fld := ⟨267, 1, 1, .W1C, 0, keptFCL⟩
def PRT_ERR_OP : Fld := ⟨268, 8, 6, .RO, 0, keptFCL⟩
def PRT_ERR_STATUS : Fld := ⟨269, 16, 4, .RO, 0, keptFCL⟩
def PRT_ERR_TAG : Fld := ⟨270, 32, 16, .RO, 0, keptFCL⟩

-- PRT_ERR_ADDR
def PRT_ERR_ADDR_ADDR : Fld := ⟨271, 0, 59, .RO, 0, keptFCL⟩

-- PRT_ERR_BELL
def PRT_ERR_BELL_BELL : Fld := ⟨272, 0, 64, .RO, 0, keptFCL⟩

-- PRT_WATCH_CFG
def PRT_WATCH_CFG_LIMIT : Fld := ⟨273, 0, 16, .RW, 0x100, keptFCL⟩

-- PRT_WATCH
def PRT_WATCH_VALID : Fld := ⟨274, 0, 1, .W1C, 0, keptFCL⟩
def PRT_WATCH_OVERRUN : Fld := ⟨275, 1, 1, .W1C, 0, keptFCL⟩
def PRT_WATCH_WAIT : Fld := ⟨276, 2, 3, .RO, 0, keptFCL⟩
def PRT_WATCH_DIR : Fld := ⟨277, 5, 1, .RO, 0, keptFCL⟩
def PRT_WATCH_LINK : Fld := ⟨278, 8, 6, .RO, 0, keptFCL⟩
def PRT_WATCH_FLOW : Fld := ⟨279, 16, 12, .RO, 0, keptFCL⟩

-- PRT_WATCH_BELL
def PRT_WATCH_BELL_BELL : Fld := ⟨280, 0, 64, .RO, 0, keptFCL⟩

-- PRT_CNT_OPS
def PRT_CNT_OPS_COUNT : Fld := ⟨281, 0, 48, .RC, 0, keptFL⟩

-- PRT_CNT_ERR
def PRT_CNT_ERR_COUNT : Fld := ⟨282, 0, 48, .RC, 0, keptFL⟩

-- PRT_CNT_TMO
def PRT_CNT_TMO_COUNT : Fld := ⟨283, 0, 48, .RC, 0, keptFL⟩

-- PRT_CNT_STALE
def PRT_CNT_STALE_COUNT : Fld := ⟨284, 0, 48, .RC, 0, keptFL⟩

-- PRT_CNT_FULL
def PRT_CNT_FULL_COUNT : Fld := ⟨285, 0, 48, .RC, 0, keptFL⟩

-- PRT_CNT_WATCH
def PRT_CNT_WATCH_COUNT : Fld := ⟨286, 0, 48, .RC, 0, keptFL⟩

-- PRT_CNT_FLUSHSTR
def PRT_CNT_FLUSHSTR_COUNT : Fld := ⟨287, 0, 48, .RC, 0, keptFL⟩

-- CHIP_ID
def CHIP_ID_PART : Fld := ⟨288, 0, 16, .RO, 0x901, keptFKCL⟩
def CHIP_ID_STEPPING : Fld := ⟨289, 16, 4, .RO, 0, keptFKCL⟩

-- CHIP_GRADE
def CHIP_GRADE_NCORE_EN : Fld := ⟨290, 0, 8, .RO, 0x80, keptFKCL⟩
def CHIP_GRADE_SPEED : Fld := ⟨291, 8, 1, .RO, 0, keptFKCL⟩

-- CHIP_FUSE_LO
def CHIP_FUSE_LO_EN : Fld := ⟨292, 0, 64, .RO, 0xffffffffffffffff, keptFKCL⟩

-- CHIP_FUSE_HI
def CHIP_FUSE_HI_EN : Fld := ⟨293, 0, 64, .RO, 0xffffffffffffffff, keptFKCL⟩

-- CHIP_ADDR
def CHIP_ADDR_POSITION : Fld := ⟨294, 0, 2, .RO, 0, keptWFKCL⟩
def CHIP_ADDR_BOARD : Fld := ⟨295, 2, 3, .RO, 0, keptWFKCL⟩
def CHIP_ADDR_GROUP : Fld := ⟨296, 5, 10, .LK, 0, keptWFKCL⟩
def CHIP_ADDR_LOCK : Fld := ⟨297, 31, 1, .W1S, 0, keptWFKCL⟩

-- CHIP_SHAPE
def CHIP_SHAPE_NCHIP : Fld := ⟨298, 0, 16, .RW, 0, keptFKCL⟩
def CHIP_SHAPE_MYCHIP : Fld := ⟨299, 16, 15, .RW, 0, keptFKCL⟩
def CHIP_SHAPE_SPARE : Fld := ⟨300, 31, 1, .RW, 0, keptFKCL⟩
def CHIP_SHAPE_RESHAPE : Fld := ⟨301, 32, 2, .RW, 0, keptFKCL⟩

-- CHIP_HALT
def CHIP_HALT_STOP : Fld := ⟨302, 0, 1, .W1S, 0, keptNone⟩
def CHIP_HALT_STOPPED : Fld := ⟨303, 1, 1, .RO, 0, keptFKCL⟩
def CHIP_HALT_CAUSE : Fld := ⟨304, 4, 4, .RO, 0, keptFKCL⟩

-- CHIP_GROUP_VIEW
def CHIP_GROUP_VIEW_HEALTHY : Fld := ⟨305, 0, 32, .RW, 0xffffffff, keptFKCL⟩

-- CHIP_STEWARD
def CHIP_STEWARD_INDEX : Fld := ⟨306, 0, 5, .RO, 0, keptFKCL⟩
def CHIP_STEWARD_SELF : Fld := ⟨307, 8, 1, .RO, 0, keptFKCL⟩
def CHIP_STEWARD_MERGE : Fld := ⟨308, 16, 8, .RW, 0x40, keptFKCL⟩

-- CHIP_CNT_NOTICE
def CHIP_CNT_NOTICE_COUNT : Fld := ⟨309, 0, 48, .RO, 0, keptWFKCL⟩

-- CHIP_CNT_SUPPR
def CHIP_CNT_SUPPR_COUNT : Fld := ⟨310, 0, 48, .RO, 0, keptWFKCL⟩

-- CHIP_CNT_RECORD
def CHIP_CNT_RECORD_COUNT : Fld := ⟨311, 0, 48, .RO, 0, keptWFKCL⟩

-- CHIP_CNT_RECLOST
def CHIP_CNT_RECLOST_COUNT : Fld := ⟨312, 0, 48, .RO, 0, keptWFKCL⟩

-- WGT_CTRL
def WGT_CTRL_SCRUB_EN : Fld := ⟨313, 0, 1, .RW, 1, keptFKCL⟩
def WGT_CTRL_BAD_IRQ_EN : Fld := ⟨314, 1, 1, .RW, 1, keptFKCL⟩
def WGT_CTRL_LOADED_IRQ_EN : Fld := ⟨315, 2, 1, .RW, 1, keptFKCL⟩

-- WGT_STATUS
def WGT_STATUS_ACTIVE_BAD : Fld := ⟨316, 0, 1, .W1C, 0, keptFKCL⟩
def WGT_STATUS_SCRUB_BUSY : Fld := ⟨317, 1, 1, .RO, 0, keptFKCL⟩
def WGT_STATUS_CFG_MISMATCH : Fld := ⟨318, 2, 1, .W1C, 0, keptFKCL⟩
def WGT_STATUS_SWAP_HALT : Fld := ⟨319, 3, 1, .W1C, 0, keptFKCL⟩

-- WGT_TABLE_BASE
def WGT_TABLE_BASE_BASE : Fld := ⟨320, 16, 28, .RW, 0, keptFKCL⟩

-- WGT_CORE_OFF
def WGT_CORE_OFF_GRANULE : Fld := ⟨321, 9, 14, .RW, 0, keptFKCL⟩

-- WGT_SWAP_MASK
def WGT_SWAP_MASK_REGIONS : Fld := ⟨322, 0, 32, .ST, 0, keptFKCL⟩

-- WGT_SWAP
def WGT_SWAP_BELL : Fld := ⟨323, 0, 32, .RW, 0, keptFKCL⟩
def WGT_SWAP_ARM : Fld := ⟨324, 32, 1, .W1S, 0, keptFKCL⟩
def WGT_SWAP_STATUS : Fld := ⟨325, 33, 3, .RO, 0, keptFKCL⟩

-- WGT_SCRUB_CFG
def WGT_SCRUB_CFG_GAP : Fld := ⟨326, 0, 16, .RW, 0x3c, keptFKCL⟩

-- WGT_SCRUB_POS
def WGT_SCRUB_POS_REGION : Fld := ⟨327, 0, 5, .RO, 0, keptFKCL⟩
def WGT_SCRUB_POS_BANK : Fld := ⟨328, 5, 1, .RO, 0, keptFKCL⟩
def WGT_SCRUB_POS_SHARD : Fld := ⟨329, 8, 18, .RO, 0, keptFKCL⟩

-- WGT_BAD
def WGT_BAD_SHARD : Fld := ⟨330, 0, 18, .RO, 0, keptFKCL⟩
def WGT_BAD_REGION : Fld := ⟨331, 18, 5, .RO, 0, keptFKCL⟩
def WGT_BAD_BANK : Fld := ⟨332, 23, 1, .RO, 0, keptFKCL⟩
def WGT_BAD_SOURCE : Fld := ⟨333, 24, 1, .RO, 0, keptFKCL⟩
def WGT_BAD_OVERRUN : Fld := ⟨334, 30, 1, .W1C, 0, keptFKCL⟩
def WGT_BAD_VALID : Fld := ⟨335, 31, 1, .W1C, 0, keptFKCL⟩

-- WGT_RGN
def WGT_RGN_STATE_A : Fld := ⟨336, 0, 3, .RO, 0, keptFKCL⟩
def WGT_RGN_STATE_B : Fld := ⟨337, 3, 3, .RO, 0, keptFKCL⟩
def WGT_RGN_ACT_BANK : Fld := ⟨338, 6, 1, .RO, 0, keptFKCL⟩
def WGT_RGN_HAS_ACT : Fld := ⟨339, 7, 1, .RO, 0, keptFKCL⟩
def WGT_RGN_DRAIN : Fld := ⟨340, 8, 4, .RO, 0, keptFKCL⟩
def WGT_RGN_GEN : Fld := ⟨341, 32, 32, .RO, 0, keptFKCL⟩

-- WGT_RGN_CFG
def WGT_RGN_CFG_VALID : Fld := ⟨342, 0, 1, .RO, 0, keptFKCL⟩
def WGT_RGN_CFG_MUTABLE : Fld := ⟨343, 1, 1, .RO, 0, keptFKCL⟩
def WGT_RGN_CFG_TIER : Fld := ⟨344, 2, 2, .RO, 0, keptFKCL⟩
def WGT_RGN_CFG_PIPE : Fld := ⟨345, 4, 4, .RO, 0, keptFKCL⟩
def WGT_RGN_CFG_SHARDS : Fld := ⟨346, 32, 32, .RO, 0, keptFKCL⟩

-- CRI_CTRL
def CRI_CTRL_EN : Fld := ⟨347, 0, 1, .RW, 1, keptFKCL⟩
def CRI_CTRL_ERR_IRQ_EN : Fld := ⟨348, 1, 1, .RW, 1, keptFKCL⟩

-- CRI_STATUS
def CRI_STATUS_BUSY : Fld := ⟨349, 0, 1, .RO, 0, keptFKCL⟩
def CRI_STATUS_JOB_ERR : Fld := ⟨350, 1, 1, .W1C, 0, keptFKCL⟩
def CRI_STATUS_RUNNING : Fld := ⟨351, 2, 4, .RO, 0, keptFKCL⟩

-- CRI_TREE_BASE
def CRI_TREE_BASE_BASE : Fld := ⟨352, 16, 28, .RW, 0, keptFKCL⟩

-- CRI_JOB_BASE
def CRI_JOB_BASE_BASE : Fld := ⟨353, 16, 28, .RW, 0, keptFKCL⟩
def CRI_JOB_BASE_LOG2 : Fld := ⟨354, 48, 4, .RW, 6, keptFKCL⟩

-- CRI_JOB_HEAD
def CRI_JOB_HEAD_HEAD : Fld := ⟨355, 0, 16, .RW, 0, keptFKCL⟩

-- CRI_JOB_TAIL
def CRI_JOB_TAIL_TAIL : Fld := ⟨356, 0, 16, .RO, 0, keptFKCL⟩

-- WGT_CNT_LOADED
def WGT_CNT_LOADED_COUNT : Fld := ⟨357, 0, 48, .RO, 0, keptWFKCL⟩

-- WGT_CNT_BAD
def WGT_CNT_BAD_COUNT : Fld := ⟨358, 0, 48, .RO, 0, keptWFKCL⟩

-- WGT_CNT_REJECT
def WGT_CNT_REJECT_COUNT : Fld := ⟨359, 0, 48, .RO, 0, keptWFKCL⟩

-- WGT_CNT_SCRUBBED
def WGT_CNT_SCRUBBED_COUNT : Fld := ⟨360, 0, 48, .RO, 0, keptWFKCL⟩

-- WGT_CNT_PASSES
def WGT_CNT_PASSES_COUNT : Fld := ⟨361, 0, 48, .RO, 0, keptWFKCL⟩

-- CRI_CNT_PIECES
def CRI_CNT_PIECES_COUNT : Fld := ⟨362, 0, 48, .RO, 0, keptWFKCL⟩

-- CRI_CNT_WAIT
def CRI_CNT_WAIT_COUNT : Fld := ⟨363, 0, 48, .RO, 0, keptWFKCL⟩

-- CRI_CNT_HOSTERR
def CRI_CNT_HOSTERR_COUNT : Fld := ⟨364, 0, 48, .RO, 0, keptWFKCL⟩

-- TAL_KEY_LO
def TAL_KEY_LO_H : Fld := ⟨365, 0, 64, .RO, 0x5a3c96e10f2db487, keptNone⟩

-- TAL_KEY_HI
def TAL_KEY_HI_H : Fld := ⟨366, 0, 64, .RO, 0, keptNone⟩

-- LDG_CTRL
def LDG_CTRL_MODE : Fld := ⟨367, 0, 2, .RW, 0, keptFKCL⟩
def LDG_CTRL_IRQ_EN : Fld := ⟨368, 2, 1, .RW, 1, keptFKCL⟩
def LDG_CTRL_PAY_MASK : Fld := ⟨369, 16, 16, .RW, 6, keptFKCL⟩

-- LDG_STATUS
def LDG_STATUS_NEAR_FULL : Fld := ⟨370, 0, 1, .RO, 0, keptFKCL⟩
def LDG_STATUS_LOST : Fld := ⟨371, 1, 1, .W1C, 0, keptFKCL⟩
def LDG_STATUS_PAY_LOST : Fld := ⟨372, 2, 1, .W1C, 0, keptFKCL⟩
def LDG_STATUS_MISMATCH : Fld := ⟨373, 3, 1, .W1C, 0, keptFKCL⟩
def LDG_STATUS_RPL_DONE : Fld := ⟨374, 4, 1, .W1C, 0, keptFKCL⟩
def LDG_STATUS_RPL_END : Fld := ⟨375, 5, 1, .W1C, 0, keptFKCL⟩
def LDG_STATUS_MODE_REFUSED : Fld := ⟨376, 6, 1, .W1C, 0, keptFKCL⟩

-- LDG_RING_BASE
def LDG_RING_BASE_BASE : Fld := ⟨377, 16, 48, .RW, 0, keptFKCL⟩

-- LDG_RING_CFG
def LDG_RING_CFG_LOG2 : Fld := ⟨378, 0, 5, .RW, 0x10, keptFKCL⟩
def LDG_RING_CFG_HOST : Fld := ⟨379, 8, 1, .RW, 0, keptFKCL⟩

-- LDG_RING_HEAD
def LDG_RING_HEAD_HEAD : Fld := ⟨380, 0, 24, .RO, 0, keptFKCL⟩

-- LDG_RING_TAIL
def LDG_RING_TAIL_TAIL : Fld := ⟨381, 0, 24, .RW, 0, keptFKCL⟩

-- LDG_PAY_BASE
def LDG_PAY_BASE_BASE : Fld := ⟨382, 16, 48, .RW, 0, keptFKCL⟩

-- LDG_PAY_CFG
def LDG_PAY_CFG_LOG2 : Fld := ⟨383, 0, 6, .RW, 0x1e, keptFKCL⟩
def LDG_PAY_CFG_HOST : Fld := ⟨384, 8, 1, .RW, 0, keptFKCL⟩

-- LDG_PAY_HEAD
def LDG_PAY_HEAD_OFF : Fld := ⟨385, 0, 40, .RO, 0, keptFKCL⟩

-- LDG_PAY_TAIL
def LDG_PAY_TAIL_OFF : Fld := ⟨386, 0, 40, .RW, 0, keptFKCL⟩

-- LDG_SEQ
def LDG_SEQ_SEQ : Fld := ⟨387, 0, 32, .RO, 0, keptFKCL⟩

-- LDG_STEP
def LDG_STEP_STEP : Fld := ⟨388, 0, 64, .RW, 0, keptFKCL⟩

-- LDG_RPL_BASE
def LDG_RPL_BASE_BASE : Fld := ⟨389, 16, 48, .RW, 0, keptFKCL⟩

-- LDG_RPL_PAY_BASE
def LDG_RPL_PAY_BASE_BASE : Fld := ⟨390, 16, 48, .RW, 0, keptFKCL⟩

-- LDG_RPL_CFG
def LDG_RPL_CFG_LOG2 : Fld := ⟨391, 0, 5, .RW, 0x10, keptFKCL⟩
def LDG_RPL_CFG_HOST : Fld := ⟨392, 8, 1, .RW, 0, keptFKCL⟩
def LDG_RPL_CFG_COUNT : Fld := ⟨393, 32, 24, .RW, 0, keptFKCL⟩

-- LDG_RPL_CUR
def LDG_RPL_CUR_CUR : Fld := ⟨394, 0, 24, .RO, 0, keptFKCL⟩

-- LDG_RPL_STOP
def LDG_RPL_STOP_SEQ : Fld := ⟨395, 0, 32, .RW, 0, keptFKCL⟩

-- LDG_MISMATCH
def LDG_MISMATCH_VALID : Fld := ⟨396, 0, 1, .W1C, 0, keptFKCL⟩
def LDG_MISMATCH_OVERRUN : Fld := ⟨397, 1, 1, .W1C, 0, keptFKCL⟩
def LDG_MISMATCH_REASON : Fld := ⟨398, 4, 3, .RO, 0, keptFKCL⟩
def LDG_MISMATCH_KIND : Fld := ⟨399, 8, 7, .RO, 0, keptFKCL⟩
def LDG_MISMATCH_SEQ : Fld := ⟨400, 32, 32, .RO, 0, keptFKCL⟩

-- LDG_MISMATCH_BELL
def LDG_MISMATCH_BELL_BELL : Fld := ⟨401, 0, 64, .RO, 0, keptFKCL⟩

-- LDG_WALL_S
def LDG_WALL_S_S : Fld := ⟨402, 0, 48, .RO, 0, keptFKCL⟩

-- LDG_WALL_NS
def LDG_WALL_NS_NS : Fld := ⟨403, 0, 30, .RO, 0, keptFKCL⟩

-- LDG_CNT_ENTRIES
def LDG_CNT_ENTRIES_COUNT : Fld := ⟨404, 0, 48, .RO, 0, keptWFKCL⟩

-- LDG_CNT_LOST
def LDG_CNT_LOST_COUNT : Fld := ⟨405, 0, 48, .RO, 0, keptWFKCL⟩

-- LDG_CNT_PAYLOST
def LDG_CNT_PAYLOST_COUNT : Fld := ⟨406, 0, 48, .RO, 0, keptWFKCL⟩

-- LDG_CNT_MISMATCH
def LDG_CNT_MISMATCH_COUNT : Fld := ⟨407, 0, 48, .RO, 0, keptWFKCL⟩

-- LDG_CNT_FED
def LDG_CNT_FED_COUNT : Fld := ⟨408, 0, 48, .RO, 0, keptWFKCL⟩

-- TAL_CTRL
def TAL_CTRL_EN : Fld := ⟨409, 0, 1, .RW, 0, keptFKCL⟩
def TAL_CTRL_IRQ_EN : Fld := ⟨410, 1, 1, .RW, 1, keptFKCL⟩

-- TAL_STATUS
def TAL_STATUS_NEAR_FULL : Fld := ⟨411, 0, 1, .RO, 0, keptFKCL⟩
def TAL_STATUS_LOST : Fld := ⟨412, 1, 1, .W1C, 0, keptFKCL⟩

-- TAL_SHEET_BASE
def TAL_SHEET_BASE_BASE : Fld := ⟨413, 16, 48, .RW, 0, keptFKCL⟩

-- TAL_SHEET_CFG
def TAL_SHEET_CFG_LOG2 : Fld := ⟨414, 0, 5, .RW, 0x10, keptFKCL⟩
def TAL_SHEET_CFG_HOST : Fld := ⟨415, 8, 1, .RW, 0, keptFKCL⟩

-- TAL_SHEET_HEAD
def TAL_SHEET_HEAD_HEAD : Fld := ⟨416, 0, 24, .RO, 0, keptFKCL⟩

-- TAL_SHEET_TAIL
def TAL_SHEET_TAIL_TAIL : Fld := ⟨417, 0, 24, .RW, 0, keptFKCL⟩

-- TAL_CNT_EMIT
def TAL_CNT_EMIT_COUNT : Fld := ⟨418, 0, 48, .RO, 0, keptWFKCL⟩

-- TAL_CNT_FOLD
def TAL_CNT_FOLD_COUNT : Fld := ⟨419, 0, 48, .RO, 0, keptWFKCL⟩

-- TAL_CNT_LOST
def TAL_CNT_LOST_COUNT : Fld := ⟨420, 0, 48, .RO, 0, keptWFKCL⟩

-- PMC_USER_EN
def PMC_USER_EN_EN : Fld := ⟨421, 0, 1, .RW, 0, keptFCL⟩

-- PMC_STATUS
def PMC_STATUS_SAT : Fld := ⟨422, 0, 8, .W1C, 0, keptFL⟩

-- PMC_CYCLES
def PMC_CYCLES_CYCLES : Fld := ⟨423, 0, 64, .RO, 0, keptFL⟩

-- PMC_DENIED
def PMC_DENIED_COUNT : Fld := ⟨424, 0, 48, .RC, 0, keptFL⟩

-- PMC_STORE_CE
def PMC_STORE_CE_COUNT : Fld := ⟨425, 0, 48, .RO, 0, keptFL⟩

-- PMC_SEL
def PMC_SEL_EVENT : Fld := ⟨426, 0, 8, .RW, 0, keptFCL⟩
def PMC_SEL_EN : Fld := ⟨427, 8, 1, .RW, 0, keptFCL⟩

-- PMC_CNT
def PMC_CNT_COUNT : Fld := ⟨428, 0, 48, .RW, 0, keptFL⟩

-- CTL_MASTER
def CTL_MASTER_CORE : Fld := ⟨429, 0, 3, .RW, 0, keptFKCL⟩
def CTL_MASTER_TAKEOVER : Fld := ⟨430, 8, 1, .W1C, 0, keptFKCL⟩

-- CTL_STATUS
def CTL_STATUS_RUNNING : Fld := ⟨431, 0, 8, .RO, 0, keptFKCL⟩
def CTL_STATUS_RESTARTED : Fld := ⟨432, 8, 8, .W1C, 0, keptFKCL⟩
def CTL_STATUS_GATED : Fld := ⟨433, 16, 8, .RO, 0, keptFKCL⟩

-- CTL_HOSTWR
def CTL_HOSTWR_MASK : Fld := ⟨434, 0, 11, .LK, 0, keptFKCL⟩

-- CTL_LOCK
def CTL_LOCK_LOCK : Fld := ⟨435, 0, 1, .W1S, 0, keptFKCL⟩

-- CTL_FW_VER
def CTL_FW_VER_VER : Fld := ⟨436, 0, 32, .RO, 0, keptFKCL⟩

-- CTL_WDOG
def CTL_WDOG_LIMIT : Fld := ⟨437, 0, 16, .RW, 0, keptFKCL⟩
def CTL_WDOG_KICK : Fld := ⟨438, 31, 1, .W1S, 0, keptNone⟩

-- CTL_PWR
def CTL_PWR_GATE : Fld := ⟨439, 0, 1, .RW, 0, keptFKCL⟩

-- CTL_CNT_RESTART
def CTL_CNT_RESTART_COUNT : Fld := ⟨440, 0, 48, .RO, 0, keptWFKCL⟩

-- MBX_CTRL
def MBX_CTRL_BIND_LOCK : Fld := ⟨441, 0, 1, .W1S, 0, keptWFKCL⟩

-- MBX_BIND
def MBX_BIND_RECV : Fld := ⟨442, 0, 8, .LK, 0, keptWFKCL⟩
def MBX_BIND_SEND : Fld := ⟨443, 8, 8, .LK, 0, keptWFKCL⟩
def MBX_BIND_SMASK : Fld := ⟨444, 16, 8, .LK, 0, keptWFKCL⟩
def MBX_BIND_EN : Fld := ⟨445, 31, 1, .LK, 0, keptWFKCL⟩

-- MBX_DATA
def MBX_DATA_NOTICE : Fld := ⟨446, 0, 64, .RW, 0, keptFKCL⟩

-- MBX_PEEK
def MBX_PEEK_NOTICE : Fld := ⟨447, 0, 64, .RO, 0, keptFKCL⟩

-- MBX_LOCK
def MBX_LOCK_OWNER : Fld := ⟨448, 0, 8, .RO, 0, keptFKCL⟩
def MBX_LOCK_HELD : Fld := ⟨449, 8, 1, .RO, 0, keptFKCL⟩
def MBX_LOCK_FULL : Fld := ⟨450, 9, 1, .RO, 0, keptFKCL⟩
def MBX_LOCK_RELEASE : Fld := ⟨451, 16, 1, .W1S, 0, keptNone⟩

-- MBX_STAT
def MBX_STAT_FULL : Fld := ⟨452, 0, 1, .RO, 0, keptFKCL⟩
def MBX_STAT_TAKEN : Fld := ⟨453, 1, 1, .RO, 0, keptFKCL⟩
def MBX_STAT_COLLISION : Fld := ⟨454, 2, 1, .W1C, 0, keptFKCL⟩
def MBX_STAT_ABORTED : Fld := ⟨455, 3, 1, .W1C, 0, keptFKCL⟩
def MBX_STAT_DENIED : Fld := ⟨456, 4, 1, .W1C, 0, keptFKCL⟩
def MBX_STAT_LOCKED : Fld := ⟨457, 5, 1, .RO, 0, keptFKCL⟩
def MBX_STAT_OWNER : Fld := ⟨458, 8, 8, .RO, 0, keptFKCL⟩

-- MBX_CNT_NOTICE
def MBX_CNT_NOTICE_COUNT : Fld := ⟨459, 0, 48, .RO, 0, keptWFKCL⟩

-- MBX_CNT_COLL
def MBX_CNT_COLL_COUNT : Fld := ⟨460, 0, 48, .RO, 0, keptWFKCL⟩

-- MBX_CNT_ABORT
def MBX_CNT_ABORT_COUNT : Fld := ⟨461, 0, 48, .RO, 0, keptWFKCL⟩

-- HST_CTRL
def HST_CTRL_CQ_EN : Fld := ⟨462, 0, 1, .RW, 0, keptKCL⟩

-- HST_STATUS
def HST_STATUS_READY : Fld := ⟨463, 0, 1, .RO, 0, keptKCL⟩
def HST_STATUS_CPL_STALL : Fld := ⟨464, 1, 1, .RO, 0, keptKCL⟩
def HST_STATUS_BAR0_DENIED : Fld := ⟨465, 2, 1, .W1C, 0, keptKCL⟩
def HST_STATUS_DB_LOST : Fld := ⟨466, 3, 1, .W1C, 0, keptKCL⟩
def HST_STATUS_ABORTS : Fld := ⟨467, 4, 1, .W1C, 0, keptFKCL⟩

-- HST_CQ_BASE
def HST_CQ_BASE_BASE : Fld := ⟨468, 12, 52, .RW, 0, keptKCL⟩

-- HST_CPL_BASE
def HST_CPL_BASE_BASE : Fld := ⟨469, 12, 52, .RW, 0, keptKCL⟩

-- HST_CQ_CFG
def HST_CQ_CFG_LOG2 : Fld := ⟨470, 0, 5, .RW, 6, keptKCL⟩

-- HST_CPL_CFG
def HST_CPL_CFG_LOG2 : Fld := ⟨471, 0, 5, .RW, 6, keptKCL⟩

-- HST_CQ_TAIL
def HST_CQ_TAIL_TAIL : Fld := ⟨472, 0, 16, .RW, 0, keptKCL⟩

-- HST_CQ_HEAD
def HST_CQ_HEAD_HEAD : Fld := ⟨473, 0, 16, .RO, 0, keptKCL⟩

-- HST_CPL_HEAD
def HST_CPL_HEAD_HEAD : Fld := ⟨474, 0, 16, .RW, 0, keptKCL⟩

-- HST_CPL_TAIL
def HST_CPL_TAIL_TAIL : Fld := ⟨475, 0, 16, .RO, 0, keptKCL⟩

-- HST_BAR2_OFF
def HST_BAR2_OFF_OFF : Fld := ⟨476, 30, 14, .RW, 0, keptKCL⟩

-- HST_DENIED_ADDR
def HST_DENIED_ADDR_OFF : Fld := ⟨477, 0, 32, .RO, 0, keptKCL⟩
def HST_DENIED_ADDR_VALID : Fld := ⟨478, 63, 1, .W1C, 0, keptKCL⟩

-- HST_LINK
def HST_LINK_RATE : Fld := ⟨479, 0, 4, .RO, 0, keptKCL⟩
def HST_LINK_WIDTH : Fld := ⟨480, 4, 5, .RO, 0, keptKCL⟩

-- HST_HOSTWIN
def HST_HOSTWIN_BASE : Fld := ⟨481, 30, 34, .RW, 0, keptKCL⟩

-- HST_ABORT
def HST_ABORT_CMD_ID : Fld := ⟨482, 0, 32, .RO, 0, keptFKCL⟩
def HST_ABORT_CODE : Fld := ⟨483, 32, 16, .RO, 0, keptFKCL⟩
def HST_ABORT_STEPNO : Fld := ⟨484, 48, 8, .RO, 0, keptFKCL⟩
def HST_ABORT_ARMED : Fld := ⟨485, 56, 1, .RO, 0, keptFKCL⟩
def HST_ABORT_VALID : Fld := ⟨486, 63, 1, .W1C, 0, keptFKCL⟩

-- HST_CNT_CMD
def HST_CNT_CMD_COUNT : Fld := ⟨487, 0, 48, .RO, 0, keptWFKCL⟩

-- HST_CNT_DENIED
def HST_CNT_DENIED_COUNT : Fld := ⟨488, 0, 48, .RO, 0, keptWFKCL⟩

-- HST_CNT_DBLOST
def HST_CNT_DBLOST_COUNT : Fld := ⟨489, 0, 48, .RO, 0, keptWFKCL⟩

-- SEC_STATUS
def SEC_STATUS_STATE : Fld := ⟨490, 0, 2, .RO, 0, keptFKCL⟩
def SEC_STATUS_DEBUG : Fld := ⟨491, 2, 2, .RO, 2, keptFKCL⟩
def SEC_STATUS_APPROVED : Fld := ⟨492, 4, 1, .RO, 0, keptFKCL⟩
def SEC_STATUS_ZEROISED : Fld := ⟨493, 5, 1, .RO, 0, keptWFKCL⟩
def SEC_STATUS_SELFTEST_FAIL : Fld := ⟨494, 6, 1, .RO, 0, keptFKCL⟩
def SEC_STATUS_TAMPER : Fld := ⟨495, 7, 1, .RO, 0, keptWFKCL⟩

-- SEC_BOOT
def SEC_BOOT_SLOT : Fld := ⟨496, 0, 1, .RO, 0, keptFKCL⟩
def SEC_BOOT_FALLBACK : Fld := ⟨497, 1, 1, .RO, 0, keptFKCL⟩
def SEC_BOOT_A_VALID : Fld := ⟨498, 2, 1, .RO, 0, keptFKCL⟩
def SEC_BOOT_B_VALID : Fld := ⟨499, 3, 1, .RO, 0, keptFKCL⟩
def SEC_BOOT_KEY : Fld := ⟨500, 4, 2, .RO, 0, keptFKCL⟩
def SEC_BOOT_APPROVED_IMG : Fld := ⟨501, 6, 1, .RO, 0, keptFKCL⟩

-- SEC_SVN
def SEC_SVN_MIN : Fld := ⟨502, 0, 7, .RO, 0, keptFKCL⟩
def SEC_SVN_RUN : Fld := ⟨503, 8, 7, .RO, 0, keptFKCL⟩

-- SEC_VER_A
def SEC_VER_A_VER : Fld := ⟨504, 0, 32, .RO, 0, keptFKCL⟩

-- SEC_VER_B
def SEC_VER_B_VER : Fld := ⟨505, 0, 32, .RO, 0, keptFKCL⟩

-- SEC_SERIAL
def SEC_SERIAL_SERIAL : Fld := ⟨506, 0, 64, .RO, 0, keptFKCL⟩

-- SEC_ZCAUSE
def SEC_ZCAUSE_COMMAND : Fld := ⟨507, 0, 1, .RO, 0, keptWFKCL⟩
def SEC_ZCAUSE_LID : Fld := ⟨508, 1, 1, .RO, 0, keptWFKCL⟩
def SEC_ZCAUSE_VOLT : Fld := ⟨509, 2, 1, .RO, 0, keptWFKCL⟩
def SEC_ZCAUSE_TEMP : Fld := ⟨510, 3, 1, .RO, 0, keptWFKCL⟩
def SEC_ZCAUSE_CLOCK : Fld := ⟨511, 4, 1, .RO, 0, keptWFKCL⟩
def SEC_ZCAUSE_ENTROPY : Fld := ⟨512, 5, 1, .RO, 0, keptWFKCL⟩
def SEC_ZCAUSE_DEBUG : Fld := ⟨513, 6, 1, .RO, 0, keptWFKCL⟩

-- SEC_DBG_NONCE
def SEC_DBG_NONCE_NONCE : Fld := ⟨514, 0, 64, .RO, 0, keptFKCL⟩

-- SEC_IDHASH
def SEC_IDHASH_HASH : Fld := ⟨515, 0, 64, .RO, 0, keptFKCL⟩

-- SEC_CNT_KEX
def SEC_CNT_KEX_COUNT : Fld := ⟨516, 0, 48, .RO, 0, keptWFKCL⟩

-- SEC_CNT_KEXFAIL
def SEC_CNT_KEXFAIL_COUNT : Fld := ⟨517, 0, 48, .RO, 0, keptWFKCL⟩

-- SEC_CNT_ATTEST
def SEC_CNT_ATTEST_COUNT : Fld := ⟨518, 0, 48, .RO, 0, keptWFKCL⟩

-- LIF_CTRL
def LIF_CTRL_EN : Fld := ⟨519, 0, 1, .RW, 1, keptFKCL⟩
def LIF_CTRL_INTERVAL : Fld := ⟨520, 8, 8, .RW, 0xa, keptFKCL⟩

-- LIF_STATUS
def LIF_STATUS_BUSY : Fld := ⟨521, 0, 1, .RO, 0, keptFKCL⟩
def LIF_STATUS_REFUSED : Fld := ⟨522, 1, 1, .W1C, 0, keptFKCL⟩
def LIF_STATUS_JOURNAL_ERR : Fld := ⟨523, 2, 1, .W1C, 0, keptFKCL⟩
def LIF_STATUS_NOR_ABSENT : Fld := ⟨524, 3, 1, .RO, 0, keptFKCL⟩

-- LIF_HOLDUP
def LIF_HOLDUP_OK : Fld := ⟨525, 0, 1, .RO, 0, keptNone⟩
def LIF_HOLDUP_V : Fld := ⟨526, 4, 12, .RO, 0, keptNone⟩

-- LIF_HOLDUP_CFG
def LIF_HOLDUP_CFG_CAP : Fld := ⟨527, 0, 16, .RW, 0, keptFKCL⟩
def LIF_HOLDUP_CFG_VMIN : Fld := ⟨528, 16, 12, .RW, 0, keptFKCL⟩
def LIF_HOLDUP_CFG_EPROG : Fld := ⟨529, 32, 16, .RW, 0, keptFKCL⟩
def LIF_HOLDUP_CFG_EERASE : Fld := ⟨530, 48, 16, .RW, 0, keptFKCL⟩

-- LIF_SEQ
def LIF_SEQ_SEQ : Fld := ⟨531, 0, 64, .RW, 0, keptWFKCL⟩

-- LIF_POH
def LIF_POH_S : Fld := ⟨532, 0, 48, .RW, 0, keptWFKCL⟩

-- LIF_ENERGY
def LIF_ENERGY_J : Fld := ⟨533, 0, 64, .RW, 0, keptWFKCL⟩

-- LIF_TCYC
def LIF_TCYC_COUNT : Fld := ⟨534, 0, 32, .RW, 0, keptWFKCL⟩

-- LIF_MIRROR
def LIF_MIRROR_BASE : Fld := ⟨535, 12, 32, .RW, 0, keptFKCL⟩

-- LIF_CNT_WRITES
def LIF_CNT_WRITES_COUNT : Fld := ⟨536, 0, 48, .RO, 0, keptWFKCL⟩

-- LIF_CNT_REFUSED
def LIF_CNT_REFUSED_COUNT : Fld := ⟨537, 0, 48, .RO, 0, keptWFKCL⟩

-- LIF_CNT_EVLOST
def LIF_CNT_EVLOST_COUNT : Fld := ⟨538, 0, 48, .RO, 0, keptWFKCL⟩

-- PWR_CTRL
def PWR_CTRL_CG_RET : Fld := ⟨539, 0, 1, .RW, 1, keptFKCL⟩
def PWR_CTRL_CG_WAIT : Fld := ⟨540, 1, 1, .RW, 0, keptFKCL⟩
def PWR_CTRL_KO_IDLE : Fld := ⟨541, 2, 1, .RW, 0, keptFKCL⟩
def PWR_CTRL_THERM_IRQ_EN : Fld := ⟨542, 3, 1, .RW, 1, keptFKCL⟩

-- PWR_CLASS
def PWR_CLASS_ACT : Fld := ⟨543, 0, 2, .RO, 2, keptFKCL⟩
def PWR_CLASS_LOW : Fld := ⟨544, 2, 2, .RO, 0, keptFKCL⟩
def PWR_CLASS_PLAN_MHZ : Fld := ⟨545, 4, 12, .RO, 0, keptFKCL⟩

-- PWR_STATUS
def PWR_STATUS_PHASE : Fld := ⟨546, 0, 4, .RO, 0, keptFKCL⟩
def PWR_STATUS_DEGRADED : Fld := ⟨547, 4, 1, .RO, 0, keptFKCL⟩
def PWR_STATUS_CRIT : Fld := ⟨548, 5, 1, .RO, 0, keptFKCL⟩
def PWR_STATUS_OVER : Fld := ⟨549, 6, 1, .W1C, 0, keptFKCL⟩
def PWR_STATUS_CFG_MISMATCH : Fld := ⟨550, 7, 1, .W1C, 0, keptFKCL⟩

-- PWR_THERM
def PWR_THERM_TRIP : Fld := ⟨551, 0, 8, .RW, 0x6e, keptFKCL⟩
def PWR_THERM_RELEASE : Fld := ⟨552, 8, 8, .RW, 0x64, keptFKCL⟩
def PWR_THERM_CRIT : Fld := ⟨553, 16, 8, .RW, 0x7d, keptFKCL⟩

-- PWR_PKG
def PWR_PKG_W : Fld := ⟨554, 0, 16, .RO, 0, keptFKCL⟩

-- PWR_TEMP
def PWR_TEMP_COMPUTE : Fld := ⟨555, 0, 8, .RO, 0, keptFKCL⟩
def PWR_TEMP_PORT0 : Fld := ⟨556, 8, 8, .RO, 0, keptFKCL⟩
def PWR_TEMP_PORT1 : Fld := ⟨557, 16, 8, .RO, 0, keptFKCL⟩
def PWR_TEMP_PHY : Fld := ⟨558, 24, 8, .RO, 0, keptFKCL⟩

-- PWR_CLU
def PWR_CLU_OFF : Fld := ⟨559, 0, 1, .RO, 0, keptFKCL⟩
def PWR_CLU_DEG : Fld := ⟨560, 8, 8, .RO, 0, keptFKCL⟩
def PWR_CLU_VDD_MV : Fld := ⟨561, 16, 12, .RO, 0, keptFKCL⟩

-- PWR_CNT_THERM
def PWR_CNT_THERM_COUNT : Fld := ⟨562, 0, 48, .RO, 0, keptWFKCL⟩

-- PWR_CNT_OVER
def PWR_CNT_OVER_COUNT : Fld := ⟨563, 0, 48, .RO, 0, keptWFKCL⟩

-- PWR_CNT_CLASS
def PWR_CNT_CLASS_COUNT : Fld := ⟨564, 0, 48, .RO, 0, keptWFKCL⟩

-- RST_CTRL
def RST_CTRL_WARM : Fld := ⟨565, 0, 1, .W1S, 0, keptNone⟩

-- RST_CFG
def RST_CFG_PERST_MODE : Fld := ⟨566, 0, 1, .RW, 0, keptWFKCL⟩

-- RST_CAUSE
def RST_CAUSE_CAUSE : Fld := ⟨567, 0, 3, .RO, 0, keptFKCL⟩
def RST_CAUSE_NOR_WAIT : Fld := ⟨568, 3, 1, .RO, 0, keptFKCL⟩

-- RST_CLUSTER
def RST_CLUSTER_MASK : Fld := ⟨569, 0, 16, .W1S, 0, keptNone⟩

-- RST_CORE
def RST_CORE_CORE : Fld := ⟨570, 0, 7, .RW, 0, keptFKCL⟩
def RST_CORE_GO : Fld := ⟨571, 7, 1, .W1S, 0, keptNone⟩

-- RST_STATUS
def RST_STATUS_CLUSTER : Fld := ⟨572, 0, 16, .RO, 0, keptFL⟩
def RST_STATUS_CORE : Fld := ⟨573, 16, 1, .RO, 0, keptFKL⟩
def RST_STATUS_IGNORED : Fld := ⟨574, 17, 1, .W1C, 0, keptFKCL⟩

-- RST_CNT_WARM
def RST_CNT_WARM_COUNT : Fld := ⟨575, 0, 48, .RO, 0, keptWFKCL⟩

-- RST_CNT_FUNC
def RST_CNT_FUNC_COUNT : Fld := ⟨576, 0, 48, .RO, 0, keptWFKCL⟩

-- RST_CNT_CLUSTER
def RST_CNT_CLUSTER_COUNT : Fld := ⟨577, 0, 48, .RO, 0, keptWFKCL⟩

-- HST_MSIX_ADDR
def HST_MSIX_ADDR_ADDR : Fld := ⟨578, 0, 64, .RW, 0, keptKCL⟩

-- HST_MSIX_DATA
def HST_MSIX_DATA_DATA : Fld := ⟨579, 0, 32, .RW, 0, keptKCL⟩

-- HST_MSIX_CTRL
def HST_MSIX_CTRL_MASK : Fld := ⟨580, 0, 1, .RW, 1, keptKCL⟩

-- HST_MSIX_PBA
def HST_MSIX_PBA_PEND : Fld := ⟨581, 0, 64, .RO, 0, keptKCL⟩

end Fld

namespace Reg

def CLK_REFLOSS : Reg := ⟨0, .clk, 0x0, 0, 1, 64, [.CLK_REFLOSS_LOST, .CLK_REFLOSS_PRESENT, .CLK_REFLOSS_COUNT]⟩
def CLK_REFMON_CFG : Reg := ⟨1, .clk, 0x8, 0, 1, 32, [.CLK_REFMON_CFG_PPM_LIMIT, .CLK_REFMON_CFG_QUAL_MS]⟩
def CLK_TARGET : Reg := ⟨2, .clk, 0x10, 0, 1, 32, [.CLK_TARGET_MHZ]⟩
def CLK_FCHG_TARGET : Reg := ⟨3, .clk, 0x18, 0, 1, 32, [.CLK_FCHG_TARGET_MHZ]⟩
def CLK_FCHG_MASK : Reg := ⟨4, .clk, 0x20, 0, 1, 32, [.CLK_FCHG_MASK_REGIONS]⟩
def CLK_FCHG_BELL : Reg := ⟨5, .clk, 0x28, 0, 1, 32, [.CLK_FCHG_BELL_BELL]⟩
def CLK_FCHG_CTRL : Reg := ⟨6, .clk, 0x30, 0, 1, 32, [.CLK_FCHG_CTRL_ARM, .CLK_FCHG_CTRL_STATUS]⟩
def CLK_XALIGN : Reg := ⟨7, .clk, 0x40, 0, 1, 32, [.CLK_XALIGN_ALIGNED, .CLK_XALIGN_FAIL, .CLK_XALIGN_FAIL_REGION]⟩
def CLK_RGN_STATUS : Reg := ⟨8, .clk, 0x100, 16, 25, 32, [.CLK_RGN_STATUS_LOCKED, .CLK_RGN_STATUS_HALVED, .CLK_RGN_STATUS_HOLDING, .CLK_RGN_STATUS_STOPPED, .CLK_RGN_STATUS_DROOP_OVER, .CLK_RGN_STATUS_AVG_MHZ]⟩
def CLK_RGN_DROOP : Reg := ⟨9, .clk, 0x108, 16, 25, 64, [.CLK_RGN_DROOP_EVENTS, .CLK_RGN_DROOP_MAX_STRETCH, .CLK_RGN_DROOP_XDRIFT]⟩
def BEL_CTRL : Reg := ⟨10, .bel, 0x0, 0, 1, 32, [.BEL_CTRL_ROOT, .BEL_CTRL_JOIN]⟩
def BEL_STATUS : Reg := ⟨11, .bel, 0x8, 0, 1, 64, [.BEL_STATUS_JOINED, .BEL_STATUS_HOLDOVER, .BEL_STATUS_REF_HOLDOVER, .BEL_STATUS_CFG_MISMATCH, .BEL_STATUS_INC_CLAMP, .BEL_STATUS_WALL_BADSET, .BEL_STATUS_ALT_ACTIVE, .BEL_STATUS_PARENT_FRESH]⟩
def BEL_NOW : Reg := ⟨12, .bel, 0x10, 0, 1, 64, [.BEL_NOW_BELL]⟩
def BEL_PHASE : Reg := ⟨13, .bel, 0x18, 0, 1, 32, [.BEL_PHASE_NS, .BEL_PHASE_FRAC]⟩
def BEL_FT_INC : Reg := ⟨14, .bel, 0x20, 0, 1, 64, [.BEL_FT_INC_INC]⟩
def BEL_FT_STEP : Reg := ⟨15, .bel, 0x28, 0, 1, 64, [.BEL_FT_STEP_STEP]⟩
def BEL_FT_SETBELL : Reg := ⟨16, .bel, 0x30, 0, 1, 64, [.BEL_FT_SETBELL_BELL]⟩
def BEL_LEN : Reg := ⟨17, .bel, 0x40, 0, 1, 32, [.BEL_LEN_US]⟩
def BEL_ROUND_LEN : Reg := ⟨18, .bel, 0x48, 0, 1, 32, [.BEL_ROUND_LEN_LEN_M1]⟩
def BEL_ROUND_ORIGIN : Reg := ⟨19, .bel, 0x50, 0, 1, 64, [.BEL_ROUND_ORIGIN_BELL]⟩
def BEL_COMMIT : Reg := ⟨20, .bel, 0x58, 0, 1, 64, [.BEL_COMMIT_BELL, .BEL_COMMIT_ARM, .BEL_COMMIT_STATUS]⟩
def BEL_ACTIVE : Reg := ⟨21, .bel, 0x60, 0, 1, 32, [.BEL_ACTIVE_US, .BEL_ACTIVE_LEN_M1]⟩
def BEL_ROUND_POS : Reg := ⟨22, .bel, 0x68, 0, 1, 32, [.BEL_ROUND_POS_POS]⟩
def BEL_PARENT : Reg := ⟨23, .bel, 0x80, 0, 1, 32, [.BEL_PARENT_PARENT, .BEL_PARENT_ALT, .BEL_PARENT_ALT_EN]⟩
def BEL_HOLD_LIMIT : Reg := ⟨24, .bel, 0x88, 0, 1, 32, [.BEL_HOLD_LIMIT_BELLS]⟩
def BEL_TS_DEP : Reg := ⟨25, .bel, 0x100, 8, 64, 64, [.BEL_TS_DEP_TS]⟩
def BEL_TS_ARR : Reg := ⟨26, .bel, 0x300, 8, 64, 64, [.BEL_TS_ARR_TS]⟩
def BEL_LINKDLY : Reg := ⟨27, .bel, 0x500, 4, 64, 32, [.BEL_LINKDLY_DLY]⟩
def BEL_WALL_S : Reg := ⟨28, .bel, 0x600, 0, 1, 64, [.BEL_WALL_S_S]⟩
def BEL_WALL_NS : Reg := ⟨29, .bel, 0x608, 0, 1, 32, [.BEL_WALL_NS_NS]⟩
def BEL_WALL_INC : Reg := ⟨30, .bel, 0x610, 0, 1, 64, [.BEL_WALL_INC_INC]⟩
def BEL_WALL_SET_S : Reg := ⟨31, .bel, 0x618, 0, 1, 64, [.BEL_WALL_SET_S_S]⟩
def BEL_WALL_SET_NS : Reg := ⟨32, .bel, 0x620, 0, 1, 32, [.BEL_WALL_SET_NS_NS]⟩
def BEL_PPS_CAP_S : Reg := ⟨33, .bel, 0x628, 0, 1, 64, [.BEL_PPS_CAP_S_S]⟩
def BEL_PPS_CAP_NS : Reg := ⟨34, .bel, 0x630, 0, 1, 32, [.BEL_PPS_CAP_NS_NS]⟩
def BEL_PPS_CAP_FT : Reg := ⟨35, .bel, 0x638, 0, 1, 64, [.BEL_PPS_CAP_FT_TS]⟩
def BEL_PPS_CTRL : Reg := ⟨36, .bel, 0x640, 0, 1, 32, [.BEL_PPS_CTRL_EN, .BEL_PPS_CTRL_EDGES]⟩
def BEL_TRIG_CMP : Reg := ⟨37, .bel, 0x700, 16, 8, 32, [.BEL_TRIG_CMP_BELL]⟩
def BEL_TRIG_CTRL : Reg := ⟨38, .bel, 0x708, 16, 8, 32, [.BEL_TRIG_CTRL_ARM, .BEL_TRIG_CTRL_LATE, .BEL_TRIG_CTRL_KIND, .BEL_TRIG_CTRL_CORE, .BEL_TRIG_CTRL_EVENT]⟩
def BEL_QUIET : Reg := ⟨39, .bel, 0x800, 8, 64, 64, [.BEL_QUIET_MAP]⟩
def CORE_CTRL : Reg := ⟨40, .core, 0x0, 0, 1, 32, [.CORE_CTRL_HOLD, .CORE_CTRL_FENCE, .CORE_CTRL_FAULT_IRQ_EN]⟩
def CORE_STATUS : Reg := ⟨41, .core, 0x8, 0, 1, 32, [.CORE_STATUS_STATE, .CORE_STATUS_WAIT_KIND, .CORE_STATUS_EVT_SAT]⟩
def CORE_BIND : Reg := ⟨42, .core, 0x10, 0, 1, 32, [.CORE_BIND_LOGICAL, .CORE_BIND_BOUND, .CORE_BIND_IMAGE]⟩
def CORE_PROG : Reg := ⟨43, .core, 0x18, 0, 1, 32, [.CORE_PROG_SIZE, .CORE_PROG_ENTRY]⟩
def CORE_PC : Reg := ⟨44, .core, 0x20, 0, 1, 32, [.CORE_PC_PC]⟩
def CORE_SHAPE : Reg := ⟨45, .core, 0x28, 0, 1, 64, [.CORE_SHAPE_NCORE, .CORE_SHAPE_NCHIP, .CORE_SHAPE_MYCHIP]⟩
def CORE_STEP : Reg := ⟨46, .core, 0x30, 0, 1, 64, [.CORE_STEP_STEP]⟩
def CORE_ARG : Reg := ⟨47, .core, 0x38, 0, 1, 64, [.CORE_ARG_ARG]⟩
def CORE_WAIT_LIMIT : Reg := ⟨48, .core, 0x40, 0, 1, 32, [.CORE_WAIT_LIMIT_BELLS]⟩
def CORE_FAULT : Reg := ⟨49, .core, 0x48, 0, 1, 64, [.CORE_FAULT_VALID, .CORE_FAULT_OVERRUN, .CORE_FAULT_CODE, .CORE_FAULT_SLOT, .CORE_FAULT_DETAIL]⟩
def CORE_FAULT_PC : Reg := ⟨50, .core, 0x50, 0, 1, 32, [.CORE_FAULT_PC_PC]⟩
def CORE_FAULT_ADDR : Reg := ⟨51, .core, 0x58, 0, 1, 64, [.CORE_FAULT_ADDR_ADDR]⟩
def CORE_FAULT_BELL : Reg := ⟨52, .core, 0x60, 0, 1, 64, [.CORE_FAULT_BELL_BELL]⟩
def CORE_LATE : Reg := ⟨53, .core, 0x68, 0, 1, 32, [.CORE_LATE_BELLS]⟩
def CORE_PACK_OVF : Reg := ⟨54, .core, 0x70, 0, 1, 64, [.CORE_PACK_OVF_STEP_OVF, .CORE_PACK_OVF_TOTAL]⟩
def CORE_EVT : Reg := ⟨55, .core, 0x100, 4, 16, 32, [.CORE_EVT_COUNT]⟩
def MXE_CTRL : Reg := ⟨56, .mxe, 0x0, 0, 1, 32, [.MXE_CTRL_INV, .MXE_CTRL_ZGATE_EN, .MXE_CTRL_NILGATE_EN]⟩
def MXE_STATUS : Reg := ⟨57, .mxe, 0x8, 0, 1, 32, [.MXE_STATUS_INV_ACTIVE, .MXE_STATUS_NINV, .MXE_STATUS_ISAT]⟩
def MXE_CFG : Reg := ⟨58, .mxe, 0x10, 0, 1, 32, [.MXE_CFG_WF, .MXE_CFG_AF, .MXE_CFG_WS, .MXE_CFG_AS, .MXE_CFG_SP]⟩
def MXE_RUN_CYC : Reg := ⟨59, .mxe, 0x18, 0, 1, 64, [.MXE_RUN_CYC_CYCLES]⟩
def MXE_MASK_ROWS : Reg := ⟨60, .mxe, 0x20, 0, 1, 64, [.MXE_MASK_ROWS_ROWS]⟩
def MXE_NIL_ROWS : Reg := ⟨61, .mxe, 0x28, 0, 1, 64, [.MXE_NIL_ROWS_ROWS]⟩
def MXE_WAIT_CYC : Reg := ⟨62, .mxe, 0x30, 0, 1, 64, [.MXE_WAIT_CYC_CYCLES]⟩
def VEC_SEED : Reg := ⟨63, .vec, 0x0, 0, 1, 64, [.VEC_SEED_SEED]⟩
def VEC_STATUS : Reg := ⟨64, .vec, 0x8, 0, 1, 32, [.VEC_STATUS_SAT, .VEC_STATUS_NAN_LOST, .VEC_STATUS_INVALID]⟩
def HBM_CTRL : Reg := ⟨65, .hbm, 0x0, 0, 1, 32, [.HBM_CTRL_MARGIN, .HBM_CTRL_HOT_FORCE, .HBM_CTRL_UE_IRQ_EN]⟩
def HBM_STATUS : Reg := ⟨66, .hbm, 0x8, 0, 1, 32, [.HBM_STATUS_TRAINED, .HBM_STATUS_HOT, .HBM_STATUS_FAIL, .HBM_STATUS_CFG_MISMATCH, .HBM_STATUS_MARGIN_ACT]⟩
def HBM_TEMP : Reg := ⟨67, .hbm, 0x10, 0, 1, 32, [.HBM_TEMP_DEG, .HBM_TEMP_HOT_ON, .HBM_TEMP_HOT_OFF]⟩
def HBM_ECC_CE : Reg := ⟨68, .hbm, 0x18, 0, 1, 64, [.HBM_ECC_CE_COUNT]⟩
def HBM_ECC_UE : Reg := ⟨69, .hbm, 0x20, 0, 1, 64, [.HBM_ECC_UE_COUNT]⟩
def HBM_UE_ADDR : Reg := ⟨70, .hbm, 0x28, 0, 1, 64, [.HBM_UE_ADDR_ADDR, .HBM_UE_ADDR_VALID]⟩
def HBM_LATE : Reg := ⟨71, .hbm, 0x30, 0, 1, 64, [.HBM_LATE_SLOTS]⟩
def HBM_HOT_US : Reg := ⟨72, .hbm, 0x38, 0, 1, 64, [.HBM_HOT_US_US]⟩
def LNK_CTRL : Reg := ⟨73, .lnk, 0x0, 0, 1, 32, [.LNK_CTRL_EN, .LNK_CTRL_RETRAIN, .LNK_CTRL_RESET, .LNK_CTRL_FLUSH, .LNK_CTRL_ERR_IRQ_EN, .LNK_CTRL_DOWN_IRQ_EN]⟩
def LNK_CFG : Reg := ⟨74, .lnk, 0x8, 0, 1, 32, [.LNK_CFG_LANE_MASK, .LNK_CFG_WIDTH_MAX, .LNK_CFG_SPEED, .LNK_CFG_ENC_EN]⟩
def LNK_STATUS : Reg := ⟨75, .lnk, 0x10, 0, 1, 64, [.LNK_STATUS_STATE, .LNK_STATUS_WIDTH_ACT, .LNK_STATUS_SPEED_ACT, .LNK_STATUS_LANES_OK, .LNK_STATUS_GRACE, .LNK_STATUS_RETRAIN_PEND, .LNK_STATUS_ENC_ACT, .LNK_STATUS_FLUSHED, .LNK_STATUS_CFG_MISMATCH, .LNK_STATUS_AUTH_FAIL, .LNK_STATUS_REASON, .LNK_STATUS_ERR_WIN]⟩
def LNK_PEER : Reg := ⟨76, .lnk, 0x18, 0, 1, 32, [.LNK_PEER_CHIP, .LNK_PEER_LINK, .LNK_PEER_VALID]⟩
def LNK_EXPECT : Reg := ⟨77, .lnk, 0x20, 0, 1, 32, [.LNK_EXPECT_CHIP, .LNK_EXPECT_LINK, .LNK_EXPECT_CHECK_EN]⟩
def LNK_GRACE : Reg := ⟨78, .lnk, 0x28, 0, 1, 32, [.LNK_GRACE_UNITS]⟩
def LNK_RPL_CFG : Reg := ⟨79, .lnk, 0x30, 0, 1, 32, [.LNK_RPL_CFG_TMO_EXTRA, .LNK_RPL_CFG_LIMIT]⟩
def LNK_RTT : Reg := ⟨80, .lnk, 0x38, 0, 1, 32, [.LNK_RTT_RTT]⟩
def LNK_ERR_CFG : Reg := ⟨81, .lnk, 0x40, 0, 1, 32, [.LNK_ERR_CFG_WINDOW, .LNK_ERR_CFG_LIMIT]⟩
def LNK_ENC : Reg := ⟨82, .lnk, 0x48, 0, 1, 64, [.LNK_ENC_EPOCH, .LNK_ENC_REKEY_BELL, .LNK_ENC_REKEY_ARM, .LNK_ENC_REKEY_STATUS]⟩
def LNK_MOD : Reg := ⟨83, .lnk, 0x50, 0, 1, 32, [.LNK_MOD_PRESENT, .LNK_MOD_INT, .LNK_MOD_RESET, .LNK_MOD_LPMODE]⟩
def LNK_SEQ : Reg := ⟨84, .lnk, 0x58, 0, 1, 64, [.LNK_SEQ_TX_NEXT, .LNK_SEQ_TX_ACKED, .LNK_SEQ_RX_LAST]⟩
def LNK_LANE : Reg := ⟨85, .lnk, 0x80, 8, 4, 32, [.LNK_LANE_SIGNAL, .LNK_LANE_LOCK, .LNK_LANE_SNR, .LNK_LANE_SYMERR]⟩
def LNK_CNT_CRC : Reg := ⟨86, .lnk, 0x100, 0, 1, 64, [.LNK_CNT_CRC_COUNT]⟩
def LNK_CNT_FECSYM : Reg := ⟨87, .lnk, 0x108, 0, 1, 64, [.LNK_CNT_FECSYM_COUNT]⟩
def LNK_CNT_NAK : Reg := ⟨88, .lnk, 0x110, 0, 1, 64, [.LNK_CNT_NAK_COUNT]⟩
def LNK_CNT_RPL : Reg := ⟨89, .lnk, 0x118, 0, 1, 64, [.LNK_CNT_RPL_COUNT]⟩
def LNK_CNT_TMO : Reg := ⟨90, .lnk, 0x120, 0, 1, 64, [.LNK_CNT_TMO_COUNT]⟩
def LNK_CNT_RPLFR : Reg := ⟨91, .lnk, 0x128, 0, 1, 64, [.LNK_CNT_RPLFR_COUNT]⟩
def LNK_CNT_STALL : Reg := ⟨92, .lnk, 0x130, 0, 1, 64, [.LNK_CNT_STALL_COUNT]⟩
def LNK_CNT_LATE : Reg := ⟨93, .lnk, 0x138, 0, 1, 64, [.LNK_CNT_LATE_COUNT]⟩
def LNK_CNT_FAST : Reg := ⟨94, .lnk, 0x140, 0, 1, 64, [.LNK_CNT_FAST_COUNT]⟩
def LNK_CNT_FULL : Reg := ⟨95, .lnk, 0x148, 0, 1, 64, [.LNK_CNT_FULL_COUNT]⟩
def LNK_CNT_TFAIL : Reg := ⟨96, .lnk, 0x150, 0, 1, 64, [.LNK_CNT_TFAIL_COUNT]⟩
def LNK_CNT_LANELOSS : Reg := ⟨97, .lnk, 0x158, 0, 1, 64, [.LNK_CNT_LANELOSS_COUNT]⟩
def LNK_CNT_FLUSH : Reg := ⟨98, .lnk, 0x160, 0, 1, 64, [.LNK_CNT_FLUSH_COUNT]⟩
def LNK_CNT_BELLMIS : Reg := ⟨99, .lnk, 0x168, 0, 1, 64, [.LNK_CNT_BELLMIS_COUNT]⟩
def STL_CTRL : Reg := ⟨100, .stl, 0x0, 0, 1, 32, [.STL_CTRL_HOLD_IRQ_EN, .STL_CTRL_BAD_IRQ_EN]⟩
def STL_CFG : Reg := ⟨101, .stl, 0x8, 0, 1, 32, [.STL_CFG_REQ, .STL_CFG_RPL, .STL_CFG_CTL, .STL_CFG_AWN]⟩
def STL_ACT : Reg := ⟨102, .stl, 0x10, 0, 1, 32, [.STL_ACT_REQ, .STL_ACT_RPL, .STL_ACT_CTL, .STL_ACT_AWN]⟩
def STL_STATUS : Reg := ⟨103, .stl, 0x18, 0, 1, 32, [.STL_STATUS_CFG_MISMATCH, .STL_STATUS_PAGE_BAD, .STL_STATUS_DESC_BAD, .STL_STATUS_HOLD_FULL, .STL_STATUS_LOADING]⟩
def STL_TXBASE : Reg := ⟨104, .stl, 0x20, 0, 1, 64, [.STL_TXBASE_BASE]⟩
def STL_RXBASE : Reg := ⟨105, .stl, 0x28, 0, 1, 64, [.STL_RXBASE_BASE]⟩
def STL_TXBASE_ACT : Reg := ⟨106, .stl, 0x30, 0, 1, 64, [.STL_TXBASE_ACT_BASE]⟩
def STL_RXBASE_ACT : Reg := ⟨107, .stl, 0x38, 0, 1, 64, [.STL_RXBASE_ACT_BASE]⟩
def STL_COMMIT : Reg := ⟨108, .stl, 0x40, 0, 1, 64, [.STL_COMMIT_BELL, .STL_COMMIT_ARM, .STL_COMMIT_STATUS]⟩
def STL_TXPAGE : Reg := ⟨109, .stl, 0x48, 0, 1, 32, [.STL_TXPAGE_PAGE]⟩
def STL_RXCUR : Reg := ⟨110, .stl, 0x50, 0, 1, 64, [.STL_RXCUR_BELL]⟩
def STL_FAULT : Reg := ⟨111, .stl, 0x58, 0, 1, 64, [.STL_FAULT_FLOW, .STL_FAULT_GRANULE, .STL_FAULT_BELL]⟩
def STL_CNT_EMPTY : Reg := ⟨112, .stl, 0x100, 0, 1, 64, [.STL_CNT_EMPTY_COUNT]⟩
def STL_CNT_HELD : Reg := ⟨113, .stl, 0x108, 0, 1, 64, [.STL_CNT_HELD_COUNT]⟩
def STL_CNT_AWN : Reg := ⟨114, .stl, 0x110, 0, 1, 64, [.STL_CNT_AWN_COUNT]⟩
def STL_CNT_RXLATE : Reg := ⟨115, .stl, 0x118, 0, 1, 64, [.STL_CNT_RXLATE_COUNT]⟩
def STL_CNT_PAGEBAD : Reg := ⟨116, .stl, 0x120, 0, 1, 64, [.STL_CNT_PAGEBAD_COUNT]⟩
def STL_CNT_REFUSED : Reg := ⟨117, .stl, 0x128, 0, 1, 64, [.STL_CNT_REFUSED_COUNT]⟩
def FLW_SEL : Reg := ⟨118, .stl, 0x8000, 0, 1, 32, [.FLW_SEL_FLOW, .FLW_SEL_DIR]⟩
def FLW_STATE : Reg := ⟨119, .stl, 0x8008, 0, 1, 64, [.FLW_STATE_PCOUNT, .FLW_STATE_SLOT, .FLW_STATE_CURSOR, .FLW_STATE_ACTIVE, .FLW_STATE_REFUSED, .FLW_STATE_RESET_BUSY, .FLW_STATE_PUTS]⟩
def FLW_CTRL : Reg := ⟨120, .stl, 0x8010, 0, 1, 32, [.FLW_CTRL_RESET]⟩
def OPN_THROTTLE : Reg := ⟨121, .opn, 0x0, 0, 1, 32, [.OPN_THROTTLE_ON, .OPN_THROTTLE_OFF]⟩
def OPN_STATUS : Reg := ⟨122, .opn, 0x8, 0, 1, 32, [.OPN_STATUS_CFG_MISMATCH, .OPN_STATUS_THROTTLING]⟩
def OPN_ROUTE_BASE : Reg := ⟨123, .opn, 0x10, 0, 1, 64, [.OPN_ROUTE_BASE_BASE]⟩
def OPN_ROUTE_ACT : Reg := ⟨124, .opn, 0x18, 0, 1, 64, [.OPN_ROUTE_ACT_BASE]⟩
def OPN_COMMIT : Reg := ⟨125, .opn, 0x20, 0, 1, 64, [.OPN_COMMIT_BELL, .OPN_COMMIT_ARM, .OPN_COMMIT_STATUS]⟩
def OPN_RBUF : Reg := ⟨126, .opn, 0x100, 8, 64, 32, [.OPN_RBUF_REQ, .OPN_RBUF_RPL]⟩
def OPN_RBUF_ACT : Reg := ⟨127, .opn, 0x300, 8, 64, 32, [.OPN_RBUF_ACT_REQ, .OPN_RBUF_ACT_RPL]⟩
def OPN_CNT_THROTTLE : Reg := ⟨128, .opn, 0x500, 0, 1, 64, [.OPN_CNT_THROTTLE_COUNT]⟩
def OPN_CNT_CREDIT : Reg := ⟨129, .opn, 0x508, 0, 1, 64, [.OPN_CNT_CREDIT_COUNT]⟩
def OPN_CNT_FWD : Reg := ⟨130, .opn, 0x510, 0, 1, 64, [.OPN_CNT_FWD_COUNT]⟩
def OPN_CNT_ROUTE : Reg := ⟨131, .opn, 0x518, 0, 1, 64, [.OPN_CNT_ROUTE_COUNT]⟩
def PRT_CTRL : Reg := ⟨132, .prt, 0x0, 0, 1, 32, [.PRT_CTRL_ERR_IRQ_EN, .PRT_CTRL_WATCH_IRQ_EN]⟩
def PRT_CFG : Reg := ⟨133, .prt, 0x8, 0, 1, 32, [.PRT_CFG_OPEN_TMO]⟩
def PRT_STATUS : Reg := ⟨134, .prt, 0x10, 0, 1, 32, [.PRT_STATUS_INFLIGHT, .PRT_STATUS_STREAMS]⟩
def PRT_ERR : Reg := ⟨135, .prt, 0x18, 0, 1, 64, [.PRT_ERR_VALID, .PRT_ERR_OVERRUN, .PRT_ERR_OP, .PRT_ERR_STATUS, .PRT_ERR_TAG]⟩
def PRT_ERR_ADDR : Reg := ⟨136, .prt, 0x20, 0, 1, 64, [.PRT_ERR_ADDR_ADDR]⟩
def PRT_ERR_BELL : Reg := ⟨137, .prt, 0x28, 0, 1, 64, [.PRT_ERR_BELL_BELL]⟩
def PRT_WATCH_CFG : Reg := ⟨138, .prt, 0x30, 0, 1, 32, [.PRT_WATCH_CFG_LIMIT]⟩
def PRT_WATCH : Reg := ⟨139, .prt, 0x38, 0, 1, 64, [.PRT_WATCH_VALID, .PRT_WATCH_OVERRUN, .PRT_WATCH_WAIT, .PRT_WATCH_DIR, .PRT_WATCH_LINK, .PRT_WATCH_FLOW]⟩
def PRT_WATCH_BELL : Reg := ⟨140, .prt, 0x40, 0, 1, 64, [.PRT_WATCH_BELL_BELL]⟩
def PRT_CNT_OPS : Reg := ⟨141, .prt, 0x100, 0, 1, 64, [.PRT_CNT_OPS_COUNT]⟩
def PRT_CNT_ERR : Reg := ⟨142, .prt, 0x108, 0, 1, 64, [.PRT_CNT_ERR_COUNT]⟩
def PRT_CNT_TMO : Reg := ⟨143, .prt, 0x110, 0, 1, 64, [.PRT_CNT_TMO_COUNT]⟩
def PRT_CNT_STALE : Reg := ⟨144, .prt, 0x118, 0, 1, 64, [.PRT_CNT_STALE_COUNT]⟩
def PRT_CNT_FULL : Reg := ⟨145, .prt, 0x120, 0, 1, 64, [.PRT_CNT_FULL_COUNT]⟩
def PRT_CNT_WATCH : Reg := ⟨146, .prt, 0x128, 0, 1, 64, [.PRT_CNT_WATCH_COUNT]⟩
def PRT_CNT_FLUSHSTR : Reg := ⟨147, .prt, 0x130, 0, 1, 64, [.PRT_CNT_FLUSHSTR_COUNT]⟩
def CHIP_ID : Reg := ⟨148, .chip, 0x0, 0, 1, 64, [.CHIP_ID_PART, .CHIP_ID_STEPPING]⟩
def CHIP_GRADE : Reg := ⟨149, .chip, 0x8, 0, 1, 32, [.CHIP_GRADE_NCORE_EN, .CHIP_GRADE_SPEED]⟩
def CHIP_FUSE_LO : Reg := ⟨150, .chip, 0x10, 0, 1, 64, [.CHIP_FUSE_LO_EN]⟩
def CHIP_FUSE_HI : Reg := ⟨151, .chip, 0x18, 0, 1, 64, [.CHIP_FUSE_HI_EN]⟩
def CHIP_ADDR : Reg := ⟨152, .chip, 0x20, 0, 1, 32, [.CHIP_ADDR_POSITION, .CHIP_ADDR_BOARD, .CHIP_ADDR_GROUP, .CHIP_ADDR_LOCK]⟩
def CHIP_SHAPE : Reg := ⟨153, .chip, 0x28, 0, 1, 64, [.CHIP_SHAPE_NCHIP, .CHIP_SHAPE_MYCHIP, .CHIP_SHAPE_SPARE, .CHIP_SHAPE_RESHAPE]⟩
def CHIP_HALT : Reg := ⟨154, .chip, 0x30, 0, 1, 32, [.CHIP_HALT_STOP, .CHIP_HALT_STOPPED, .CHIP_HALT_CAUSE]⟩
def CHIP_GROUP_VIEW : Reg := ⟨155, .chip, 0x38, 0, 1, 32, [.CHIP_GROUP_VIEW_HEALTHY]⟩
def CHIP_STEWARD : Reg := ⟨156, .chip, 0x40, 0, 1, 32, [.CHIP_STEWARD_INDEX, .CHIP_STEWARD_SELF, .CHIP_STEWARD_MERGE]⟩
def CHIP_CNT_NOTICE : Reg := ⟨157, .chip, 0x100, 0, 1, 64, [.CHIP_CNT_NOTICE_COUNT]⟩
def CHIP_CNT_SUPPR : Reg := ⟨158, .chip, 0x108, 0, 1, 64, [.CHIP_CNT_SUPPR_COUNT]⟩
def CHIP_CNT_RECORD : Reg := ⟨159, .chip, 0x110, 0, 1, 64, [.CHIP_CNT_RECORD_COUNT]⟩
def CHIP_CNT_RECLOST : Reg := ⟨160, .chip, 0x118, 0, 1, 64, [.CHIP_CNT_RECLOST_COUNT]⟩
def WGT_CTRL : Reg := ⟨161, .wgt, 0x0, 0, 1, 32, [.WGT_CTRL_SCRUB_EN, .WGT_CTRL_BAD_IRQ_EN, .WGT_CTRL_LOADED_IRQ_EN]⟩
def WGT_STATUS : Reg := ⟨162, .wgt, 0x8, 0, 1, 32, [.WGT_STATUS_ACTIVE_BAD, .WGT_STATUS_SCRUB_BUSY, .WGT_STATUS_CFG_MISMATCH, .WGT_STATUS_SWAP_HALT]⟩
def WGT_TABLE_BASE : Reg := ⟨163, .wgt, 0x10, 0, 1, 64, [.WGT_TABLE_BASE_BASE]⟩
def WGT_CORE_OFF : Reg := ⟨164, .wgt, 0x18, 0, 1, 32, [.WGT_CORE_OFF_GRANULE]⟩
def WGT_SWAP_MASK : Reg := ⟨165, .wgt, 0x20, 0, 1, 32, [.WGT_SWAP_MASK_REGIONS]⟩
def WGT_SWAP : Reg := ⟨166, .wgt, 0x28, 0, 1, 64, [.WGT_SWAP_BELL, .WGT_SWAP_ARM, .WGT_SWAP_STATUS]⟩
def WGT_SCRUB_CFG : Reg := ⟨167, .wgt, 0x30, 0, 1, 32, [.WGT_SCRUB_CFG_GAP]⟩
def WGT_SCRUB_POS : Reg := ⟨168, .wgt, 0x38, 0, 1, 64, [.WGT_SCRUB_POS_REGION, .WGT_SCRUB_POS_BANK, .WGT_SCRUB_POS_SHARD]⟩
def WGT_BAD : Reg := ⟨169, .wgt, 0x40, 0, 1, 64, [.WGT_BAD_SHARD, .WGT_BAD_REGION, .WGT_BAD_BANK, .WGT_BAD_SOURCE, .WGT_BAD_OVERRUN, .WGT_BAD_VALID]⟩
def WGT_RGN : Reg := ⟨170, .wgt, 0x100, 16, 32, 64, [.WGT_RGN_STATE_A, .WGT_RGN_STATE_B, .WGT_RGN_ACT_BANK, .WGT_RGN_HAS_ACT, .WGT_RGN_DRAIN, .WGT_RGN_GEN]⟩
def WGT_RGN_CFG : Reg := ⟨171, .wgt, 0x108, 16, 32, 64, [.WGT_RGN_CFG_VALID, .WGT_RGN_CFG_MUTABLE, .WGT_RGN_CFG_TIER, .WGT_RGN_CFG_PIPE, .WGT_RGN_CFG_SHARDS]⟩
def WGT_CNT_LOADED : Reg := ⟨172, .wgt, 0x400, 0, 1, 64, [.WGT_CNT_LOADED_COUNT]⟩
def WGT_CNT_BAD : Reg := ⟨173, .wgt, 0x408, 0, 1, 64, [.WGT_CNT_BAD_COUNT]⟩
def WGT_CNT_REJECT : Reg := ⟨174, .wgt, 0x410, 0, 1, 64, [.WGT_CNT_REJECT_COUNT]⟩
def WGT_CNT_SCRUBBED : Reg := ⟨175, .wgt, 0x418, 0, 1, 64, [.WGT_CNT_SCRUBBED_COUNT]⟩
def WGT_CNT_PASSES : Reg := ⟨176, .wgt, 0x420, 0, 1, 64, [.WGT_CNT_PASSES_COUNT]⟩
def CRI_CTRL : Reg := ⟨177, .wgt, 0x1000, 0, 1, 32, [.CRI_CTRL_EN, .CRI_CTRL_ERR_IRQ_EN]⟩
def CRI_STATUS : Reg := ⟨178, .wgt, 0x1008, 0, 1, 32, [.CRI_STATUS_BUSY, .CRI_STATUS_JOB_ERR, .CRI_STATUS_RUNNING]⟩
def CRI_TREE_BASE : Reg := ⟨179, .wgt, 0x1010, 0, 1, 64, [.CRI_TREE_BASE_BASE]⟩
def CRI_JOB_BASE : Reg := ⟨180, .wgt, 0x1018, 0, 1, 64, [.CRI_JOB_BASE_BASE, .CRI_JOB_BASE_LOG2]⟩
def CRI_JOB_HEAD : Reg := ⟨181, .wgt, 0x1020, 0, 1, 32, [.CRI_JOB_HEAD_HEAD]⟩
def CRI_JOB_TAIL : Reg := ⟨182, .wgt, 0x1028, 0, 1, 32, [.CRI_JOB_TAIL_TAIL]⟩
def CRI_CNT_PIECES : Reg := ⟨183, .wgt, 0x1100, 0, 1, 64, [.CRI_CNT_PIECES_COUNT]⟩
def CRI_CNT_WAIT : Reg := ⟨184, .wgt, 0x1108, 0, 1, 64, [.CRI_CNT_WAIT_COUNT]⟩
def CRI_CNT_HOSTERR : Reg := ⟨185, .wgt, 0x1110, 0, 1, 64, [.CRI_CNT_HOSTERR_COUNT]⟩
def TAL_KEY_LO : Reg := ⟨186, .wgt, 0x2000, 0, 1, 64, [.TAL_KEY_LO_H]⟩
def TAL_KEY_HI : Reg := ⟨187, .wgt, 0x2008, 0, 1, 64, [.TAL_KEY_HI_H]⟩
def LDG_CTRL : Reg := ⟨188, .ldg, 0x0, 0, 1, 32, [.LDG_CTRL_MODE, .LDG_CTRL_IRQ_EN, .LDG_CTRL_PAY_MASK]⟩
def LDG_STATUS : Reg := ⟨189, .ldg, 0x8, 0, 1, 32, [.LDG_STATUS_NEAR_FULL, .LDG_STATUS_LOST, .LDG_STATUS_PAY_LOST, .LDG_STATUS_MISMATCH, .LDG_STATUS_RPL_DONE, .LDG_STATUS_RPL_END, .LDG_STATUS_MODE_REFUSED]⟩
def LDG_RING_BASE : Reg := ⟨190, .ldg, 0x10, 0, 1, 64, [.LDG_RING_BASE_BASE]⟩
def LDG_RING_CFG : Reg := ⟨191, .ldg, 0x18, 0, 1, 32, [.LDG_RING_CFG_LOG2, .LDG_RING_CFG_HOST]⟩
def LDG_RING_HEAD : Reg := ⟨192, .ldg, 0x20, 0, 1, 32, [.LDG_RING_HEAD_HEAD]⟩
def LDG_RING_TAIL : Reg := ⟨193, .ldg, 0x28, 0, 1, 32, [.LDG_RING_TAIL_TAIL]⟩
def LDG_PAY_BASE : Reg := ⟨194, .ldg, 0x30, 0, 1, 64, [.LDG_PAY_BASE_BASE]⟩
def LDG_PAY_CFG : Reg := ⟨195, .ldg, 0x38, 0, 1, 32, [.LDG_PAY_CFG_LOG2, .LDG_PAY_CFG_HOST]⟩
def LDG_PAY_HEAD : Reg := ⟨196, .ldg, 0x40, 0, 1, 64, [.LDG_PAY_HEAD_OFF]⟩
def LDG_PAY_TAIL : Reg := ⟨197, .ldg, 0x48, 0, 1, 64, [.LDG_PAY_TAIL_OFF]⟩
def LDG_SEQ : Reg := ⟨198, .ldg, 0x50, 0, 1, 32, [.LDG_SEQ_SEQ]⟩
def LDG_STEP : Reg := ⟨199, .ldg, 0x58, 0, 1, 64, [.LDG_STEP_STEP]⟩
def LDG_RPL_BASE : Reg := ⟨200, .ldg, 0x60, 0, 1, 64, [.LDG_RPL_BASE_BASE]⟩
def LDG_RPL_PAY_BASE : Reg := ⟨201, .ldg, 0x68, 0, 1, 64, [.LDG_RPL_PAY_BASE_BASE]⟩
def LDG_RPL_CFG : Reg := ⟨202, .ldg, 0x70, 0, 1, 64, [.LDG_RPL_CFG_LOG2, .LDG_RPL_CFG_HOST, .LDG_RPL_CFG_COUNT]⟩
def LDG_RPL_CUR : Reg := ⟨203, .ldg, 0x78, 0, 1, 32, [.LDG_RPL_CUR_CUR]⟩
def LDG_RPL_STOP : Reg := ⟨204, .ldg, 0x80, 0, 1, 32, [.LDG_RPL_STOP_SEQ]⟩
def LDG_MISMATCH : Reg := ⟨205, .ldg, 0x88, 0, 1, 64, [.LDG_MISMATCH_VALID, .LDG_MISMATCH_OVERRUN, .LDG_MISMATCH_REASON, .LDG_MISMATCH_KIND, .LDG_MISMATCH_SEQ]⟩
def LDG_MISMATCH_BELL : Reg := ⟨206, .ldg, 0x90, 0, 1, 64, [.LDG_MISMATCH_BELL_BELL]⟩
def LDG_WALL_S : Reg := ⟨207, .ldg, 0x98, 0, 1, 64, [.LDG_WALL_S_S]⟩
def LDG_WALL_NS : Reg := ⟨208, .ldg, 0xa0, 0, 1, 32, [.LDG_WALL_NS_NS]⟩
def LDG_CNT_ENTRIES : Reg := ⟨209, .ldg, 0x100, 0, 1, 64, [.LDG_CNT_ENTRIES_COUNT]⟩
def LDG_CNT_LOST : Reg := ⟨210, .ldg, 0x108, 0, 1, 64, [.LDG_CNT_LOST_COUNT]⟩
def LDG_CNT_PAYLOST : Reg := ⟨211, .ldg, 0x110, 0, 1, 64, [.LDG_CNT_PAYLOST_COUNT]⟩
def LDG_CNT_MISMATCH : Reg := ⟨212, .ldg, 0x118, 0, 1, 64, [.LDG_CNT_MISMATCH_COUNT]⟩
def LDG_CNT_FED : Reg := ⟨213, .ldg, 0x120, 0, 1, 64, [.LDG_CNT_FED_COUNT]⟩
def TAL_CTRL : Reg := ⟨214, .wgt, 0x2010, 0, 1, 32, [.TAL_CTRL_EN, .TAL_CTRL_IRQ_EN]⟩
def TAL_STATUS : Reg := ⟨215, .wgt, 0x2018, 0, 1, 32, [.TAL_STATUS_NEAR_FULL, .TAL_STATUS_LOST]⟩
def TAL_SHEET_BASE : Reg := ⟨216, .wgt, 0x2020, 0, 1, 64, [.TAL_SHEET_BASE_BASE]⟩
def TAL_SHEET_CFG : Reg := ⟨217, .wgt, 0x2028, 0, 1, 32, [.TAL_SHEET_CFG_LOG2, .TAL_SHEET_CFG_HOST]⟩
def TAL_SHEET_HEAD : Reg := ⟨218, .wgt, 0x2030, 0, 1, 32, [.TAL_SHEET_HEAD_HEAD]⟩
def TAL_SHEET_TAIL : Reg := ⟨219, .wgt, 0x2038, 0, 1, 32, [.TAL_SHEET_TAIL_TAIL]⟩
def TAL_CNT_EMIT : Reg := ⟨220, .wgt, 0x2100, 0, 1, 64, [.TAL_CNT_EMIT_COUNT]⟩
def TAL_CNT_FOLD : Reg := ⟨221, .wgt, 0x2108, 0, 1, 64, [.TAL_CNT_FOLD_COUNT]⟩
def TAL_CNT_LOST : Reg := ⟨222, .wgt, 0x2110, 0, 1, 64, [.TAL_CNT_LOST_COUNT]⟩
def PMC_USER_EN : Reg := ⟨223, .pmc, 0x0, 0, 1, 32, [.PMC_USER_EN_EN]⟩
def PMC_STATUS : Reg := ⟨224, .pmc, 0x8, 0, 1, 32, [.PMC_STATUS_SAT]⟩
def PMC_CYCLES : Reg := ⟨225, .pmc, 0x10, 0, 1, 64, [.PMC_CYCLES_CYCLES]⟩
def PMC_DENIED : Reg := ⟨226, .pmc, 0x18, 0, 1, 64, [.PMC_DENIED_COUNT]⟩
def PMC_STORE_CE : Reg := ⟨227, .pmc, 0x20, 0, 1, 64, [.PMC_STORE_CE_COUNT]⟩
def PMC_SEL : Reg := ⟨228, .pmc, 0x100, 8, 8, 32, [.PMC_SEL_EVENT, .PMC_SEL_EN]⟩
def PMC_CNT : Reg := ⟨229, .pmc, 0x200, 8, 8, 64, [.PMC_CNT_COUNT]⟩
def CTL_MASTER : Reg := ⟨230, .ctl, 0x0, 0, 1, 32, [.CTL_MASTER_CORE, .CTL_MASTER_TAKEOVER]⟩
def CTL_STATUS : Reg := ⟨231, .ctl, 0x8, 0, 1, 32, [.CTL_STATUS_RUNNING, .CTL_STATUS_RESTARTED, .CTL_STATUS_GATED]⟩
def CTL_HOSTWR : Reg := ⟨232, .ctl, 0x10, 0, 1, 32, [.CTL_HOSTWR_MASK]⟩
def CTL_LOCK : Reg := ⟨233, .ctl, 0x18, 0, 1, 32, [.CTL_LOCK_LOCK]⟩
def CTL_FW_VER : Reg := ⟨234, .ctl, 0x20, 0, 1, 32, [.CTL_FW_VER_VER]⟩
def CTL_WDOG : Reg := ⟨235, .ctl, 0x100, 16, 8, 32, [.CTL_WDOG_LIMIT, .CTL_WDOG_KICK]⟩
def CTL_PWR : Reg := ⟨236, .ctl, 0x108, 16, 8, 32, [.CTL_PWR_GATE]⟩
def CTL_CNT_RESTART : Reg := ⟨237, .ctl, 0x200, 0, 1, 64, [.CTL_CNT_RESTART_COUNT]⟩
def MBX_CTRL : Reg := ⟨238, .mbx, 0x0, 0, 1, 32, [.MBX_CTRL_BIND_LOCK]⟩
def MBX_CNT_NOTICE : Reg := ⟨239, .mbx, 0x100, 0, 1, 64, [.MBX_CNT_NOTICE_COUNT]⟩
def MBX_CNT_COLL : Reg := ⟨240, .mbx, 0x108, 0, 1, 64, [.MBX_CNT_COLL_COUNT]⟩
def MBX_CNT_ABORT : Reg := ⟨241, .mbx, 0x110, 0, 1, 64, [.MBX_CNT_ABORT_COUNT]⟩
def MBX_BIND : Reg := ⟨242, .mbx, 0x1000, 64, 64, 32, [.MBX_BIND_RECV, .MBX_BIND_SEND, .MBX_BIND_SMASK, .MBX_BIND_EN]⟩
def MBX_DATA : Reg := ⟨243, .mbx, 0x1008, 64, 64, 64, [.MBX_DATA_NOTICE]⟩
def MBX_PEEK : Reg := ⟨244, .mbx, 0x1010, 64, 64, 64, [.MBX_PEEK_NOTICE]⟩
def MBX_LOCK : Reg := ⟨245, .mbx, 0x1018, 64, 64, 32, [.MBX_LOCK_OWNER, .MBX_LOCK_HELD, .MBX_LOCK_FULL, .MBX_LOCK_RELEASE]⟩
def MBX_STAT : Reg := ⟨246, .mbx, 0x1020, 64, 64, 32, [.MBX_STAT_FULL, .MBX_STAT_TAKEN, .MBX_STAT_COLLISION, .MBX_STAT_ABORTED, .MBX_STAT_DENIED, .MBX_STAT_LOCKED, .MBX_STAT_OWNER]⟩
def HST_CTRL : Reg := ⟨247, .hst, 0x0, 0, 1, 32, [.HST_CTRL_CQ_EN]⟩
def HST_STATUS : Reg := ⟨248, .hst, 0x8, 0, 1, 32, [.HST_STATUS_READY, .HST_STATUS_CPL_STALL, .HST_STATUS_BAR0_DENIED, .HST_STATUS_DB_LOST, .HST_STATUS_ABORTS]⟩
def HST_CQ_BASE : Reg := ⟨249, .hst, 0x10, 0, 1, 64, [.HST_CQ_BASE_BASE]⟩
def HST_CQ_CFG : Reg := ⟨250, .hst, 0x18, 0, 1, 32, [.HST_CQ_CFG_LOG2]⟩
def HST_CQ_TAIL : Reg := ⟨251, .hst, 0x20, 0, 1, 32, [.HST_CQ_TAIL_TAIL]⟩
def HST_CQ_HEAD : Reg := ⟨252, .hst, 0x28, 0, 1, 32, [.HST_CQ_HEAD_HEAD]⟩
def HST_CPL_BASE : Reg := ⟨253, .hst, 0x30, 0, 1, 64, [.HST_CPL_BASE_BASE]⟩
def HST_CPL_CFG : Reg := ⟨254, .hst, 0x38, 0, 1, 32, [.HST_CPL_CFG_LOG2]⟩
def HST_CPL_HEAD : Reg := ⟨255, .hst, 0x40, 0, 1, 32, [.HST_CPL_HEAD_HEAD]⟩
def HST_CPL_TAIL : Reg := ⟨256, .hst, 0x48, 0, 1, 32, [.HST_CPL_TAIL_TAIL]⟩
def HST_BAR2_OFF : Reg := ⟨257, .hst, 0x50, 0, 1, 64, [.HST_BAR2_OFF_OFF]⟩
def HST_DENIED_ADDR : Reg := ⟨258, .hst, 0x58, 0, 1, 64, [.HST_DENIED_ADDR_OFF, .HST_DENIED_ADDR_VALID]⟩
def HST_LINK : Reg := ⟨259, .hst, 0x60, 0, 1, 32, [.HST_LINK_RATE, .HST_LINK_WIDTH]⟩
def HST_HOSTWIN : Reg := ⟨260, .hst, 0x68, 0, 1, 64, [.HST_HOSTWIN_BASE]⟩
def HST_ABORT : Reg := ⟨261, .hst, 0x80, 8, 8, 64, [.HST_ABORT_CMD_ID, .HST_ABORT_CODE, .HST_ABORT_STEPNO, .HST_ABORT_ARMED, .HST_ABORT_VALID]⟩
def HST_CNT_CMD : Reg := ⟨262, .hst, 0x100, 0, 1, 64, [.HST_CNT_CMD_COUNT]⟩
def HST_CNT_DENIED : Reg := ⟨263, .hst, 0x108, 0, 1, 64, [.HST_CNT_DENIED_COUNT]⟩
def HST_CNT_DBLOST : Reg := ⟨264, .hst, 0x110, 0, 1, 64, [.HST_CNT_DBLOST_COUNT]⟩
def SEC_STATUS : Reg := ⟨265, .sec, 0x0, 0, 1, 32, [.SEC_STATUS_STATE, .SEC_STATUS_DEBUG, .SEC_STATUS_APPROVED, .SEC_STATUS_ZEROISED, .SEC_STATUS_SELFTEST_FAIL, .SEC_STATUS_TAMPER]⟩
def SEC_BOOT : Reg := ⟨266, .sec, 0x8, 0, 1, 32, [.SEC_BOOT_SLOT, .SEC_BOOT_FALLBACK, .SEC_BOOT_A_VALID, .SEC_BOOT_B_VALID, .SEC_BOOT_KEY, .SEC_BOOT_APPROVED_IMG]⟩
def SEC_SVN : Reg := ⟨267, .sec, 0x10, 0, 1, 32, [.SEC_SVN_MIN, .SEC_SVN_RUN]⟩
def SEC_VER_A : Reg := ⟨268, .sec, 0x18, 0, 1, 32, [.SEC_VER_A_VER]⟩
def SEC_VER_B : Reg := ⟨269, .sec, 0x20, 0, 1, 32, [.SEC_VER_B_VER]⟩
def SEC_SERIAL : Reg := ⟨270, .sec, 0x28, 0, 1, 64, [.SEC_SERIAL_SERIAL]⟩
def SEC_ZCAUSE : Reg := ⟨271, .sec, 0x30, 0, 1, 32, [.SEC_ZCAUSE_COMMAND, .SEC_ZCAUSE_LID, .SEC_ZCAUSE_VOLT, .SEC_ZCAUSE_TEMP, .SEC_ZCAUSE_CLOCK, .SEC_ZCAUSE_ENTROPY, .SEC_ZCAUSE_DEBUG]⟩
def SEC_DBG_NONCE : Reg := ⟨272, .sec, 0x38, 0, 1, 64, [.SEC_DBG_NONCE_NONCE]⟩
def SEC_IDHASH : Reg := ⟨273, .sec, 0x40, 8, 6, 64, [.SEC_IDHASH_HASH]⟩
def SEC_CNT_KEX : Reg := ⟨274, .sec, 0x100, 0, 1, 64, [.SEC_CNT_KEX_COUNT]⟩
def SEC_CNT_KEXFAIL : Reg := ⟨275, .sec, 0x108, 0, 1, 64, [.SEC_CNT_KEXFAIL_COUNT]⟩
def SEC_CNT_ATTEST : Reg := ⟨276, .sec, 0x110, 0, 1, 64, [.SEC_CNT_ATTEST_COUNT]⟩
def LIF_CTRL : Reg := ⟨277, .lif, 0x0, 0, 1, 32, [.LIF_CTRL_EN, .LIF_CTRL_INTERVAL]⟩
def LIF_STATUS : Reg := ⟨278, .lif, 0x8, 0, 1, 32, [.LIF_STATUS_BUSY, .LIF_STATUS_REFUSED, .LIF_STATUS_JOURNAL_ERR, .LIF_STATUS_NOR_ABSENT]⟩
def LIF_HOLDUP : Reg := ⟨279, .lif, 0x10, 0, 1, 32, [.LIF_HOLDUP_OK, .LIF_HOLDUP_V]⟩
def LIF_HOLDUP_CFG : Reg := ⟨280, .lif, 0x18, 0, 1, 64, [.LIF_HOLDUP_CFG_CAP, .LIF_HOLDUP_CFG_VMIN, .LIF_HOLDUP_CFG_EPROG, .LIF_HOLDUP_CFG_EERASE]⟩
def LIF_SEQ : Reg := ⟨281, .lif, 0x20, 0, 1, 64, [.LIF_SEQ_SEQ]⟩
def LIF_POH : Reg := ⟨282, .lif, 0x28, 0, 1, 64, [.LIF_POH_S]⟩
def LIF_ENERGY : Reg := ⟨283, .lif, 0x30, 0, 1, 64, [.LIF_ENERGY_J]⟩
def LIF_TCYC : Reg := ⟨284, .lif, 0x38, 0, 1, 32, [.LIF_TCYC_COUNT]⟩
def LIF_MIRROR : Reg := ⟨285, .lif, 0x40, 0, 1, 64, [.LIF_MIRROR_BASE]⟩
def LIF_CNT_WRITES : Reg := ⟨286, .lif, 0x100, 0, 1, 64, [.LIF_CNT_WRITES_COUNT]⟩
def LIF_CNT_REFUSED : Reg := ⟨287, .lif, 0x108, 0, 1, 64, [.LIF_CNT_REFUSED_COUNT]⟩
def LIF_CNT_EVLOST : Reg := ⟨288, .lif, 0x110, 0, 1, 64, [.LIF_CNT_EVLOST_COUNT]⟩
def PWR_CTRL : Reg := ⟨289, .pwr, 0x0, 0, 1, 32, [.PWR_CTRL_CG_RET, .PWR_CTRL_CG_WAIT, .PWR_CTRL_KO_IDLE, .PWR_CTRL_THERM_IRQ_EN]⟩
def PWR_CLASS : Reg := ⟨290, .pwr, 0x8, 0, 1, 32, [.PWR_CLASS_ACT, .PWR_CLASS_LOW, .PWR_CLASS_PLAN_MHZ]⟩
def PWR_STATUS : Reg := ⟨291, .pwr, 0x10, 0, 1, 32, [.PWR_STATUS_PHASE, .PWR_STATUS_DEGRADED, .PWR_STATUS_CRIT, .PWR_STATUS_OVER, .PWR_STATUS_CFG_MISMATCH]⟩
def PWR_THERM : Reg := ⟨292, .pwr, 0x18, 0, 1, 32, [.PWR_THERM_TRIP, .PWR_THERM_RELEASE, .PWR_THERM_CRIT]⟩
def PWR_PKG : Reg := ⟨293, .pwr, 0x20, 0, 1, 32, [.PWR_PKG_W]⟩
def PWR_TEMP : Reg := ⟨294, .pwr, 0x28, 0, 1, 32, [.PWR_TEMP_COMPUTE, .PWR_TEMP_PORT0, .PWR_TEMP_PORT1, .PWR_TEMP_PHY]⟩
def PWR_CLU : Reg := ⟨295, .pwr, 0x100, 8, 16, 32, [.PWR_CLU_OFF, .PWR_CLU_DEG, .PWR_CLU_VDD_MV]⟩
def PWR_CNT_THERM : Reg := ⟨296, .pwr, 0x200, 0, 1, 64, [.PWR_CNT_THERM_COUNT]⟩
def PWR_CNT_OVER : Reg := ⟨297, .pwr, 0x208, 0, 1, 64, [.PWR_CNT_OVER_COUNT]⟩
def PWR_CNT_CLASS : Reg := ⟨298, .pwr, 0x210, 0, 1, 64, [.PWR_CNT_CLASS_COUNT]⟩
def RST_CTRL : Reg := ⟨299, .rst, 0x0, 0, 1, 32, [.RST_CTRL_WARM]⟩
def RST_CFG : Reg := ⟨300, .rst, 0x8, 0, 1, 32, [.RST_CFG_PERST_MODE]⟩
def RST_CAUSE : Reg := ⟨301, .rst, 0x10, 0, 1, 32, [.RST_CAUSE_CAUSE, .RST_CAUSE_NOR_WAIT]⟩
def RST_CLUSTER : Reg := ⟨302, .rst, 0x18, 0, 1, 32, [.RST_CLUSTER_MASK]⟩
def RST_CORE : Reg := ⟨303, .rst, 0x20, 0, 1, 32, [.RST_CORE_CORE, .RST_CORE_GO]⟩
def RST_STATUS : Reg := ⟨304, .rst, 0x28, 0, 1, 32, [.RST_STATUS_CLUSTER, .RST_STATUS_CORE, .RST_STATUS_IGNORED]⟩
def RST_CNT_WARM : Reg := ⟨305, .rst, 0x100, 0, 1, 64, [.RST_CNT_WARM_COUNT]⟩
def RST_CNT_FUNC : Reg := ⟨306, .rst, 0x108, 0, 1, 64, [.RST_CNT_FUNC_COUNT]⟩
def RST_CNT_CLUSTER : Reg := ⟨307, .rst, 0x110, 0, 1, 64, [.RST_CNT_CLUSTER_COUNT]⟩
def HST_MSIX_ADDR : Reg := ⟨308, .hst, 0x1000, 16, 64, 64, [.HST_MSIX_ADDR_ADDR]⟩
def HST_MSIX_DATA : Reg := ⟨309, .hst, 0x1008, 16, 64, 32, [.HST_MSIX_DATA_DATA]⟩
def HST_MSIX_CTRL : Reg := ⟨310, .hst, 0x100c, 16, 64, 32, [.HST_MSIX_CTRL_MASK]⟩
def HST_MSIX_PBA : Reg := ⟨311, .hst, 0x1800, 0, 1, 64, [.HST_MSIX_PBA_PEND]⟩

end Reg

/-- Part 0 of the register list. -/
def regList0 : List Reg := [.CLK_REFLOSS, .CLK_REFMON_CFG, .CLK_TARGET, .CLK_FCHG_TARGET, .CLK_FCHG_MASK, .CLK_FCHG_BELL, .CLK_FCHG_CTRL, .CLK_XALIGN, .CLK_RGN_STATUS, .CLK_RGN_DROOP, .BEL_CTRL, .BEL_STATUS, .BEL_NOW, .BEL_PHASE, .BEL_FT_INC, .BEL_FT_STEP, .BEL_FT_SETBELL, .BEL_LEN, .BEL_ROUND_LEN, .BEL_ROUND_ORIGIN, .BEL_COMMIT, .BEL_ACTIVE, .BEL_ROUND_POS, .BEL_PARENT, .BEL_HOLD_LIMIT, .BEL_TS_DEP, .BEL_TS_ARR, .BEL_LINKDLY, .BEL_WALL_S, .BEL_WALL_NS, .BEL_WALL_INC, .BEL_WALL_SET_S, .BEL_WALL_SET_NS, .BEL_PPS_CAP_S, .BEL_PPS_CAP_NS, .BEL_PPS_CAP_FT, .BEL_PPS_CTRL, .BEL_TRIG_CMP, .BEL_TRIG_CTRL, .BEL_QUIET]

/-- Part 1 of the register list. -/
def regList1 : List Reg := [.CORE_CTRL, .CORE_STATUS, .CORE_BIND, .CORE_PROG, .CORE_PC, .CORE_SHAPE, .CORE_STEP, .CORE_ARG, .CORE_WAIT_LIMIT, .CORE_FAULT, .CORE_FAULT_PC, .CORE_FAULT_ADDR, .CORE_FAULT_BELL, .CORE_LATE, .CORE_PACK_OVF, .CORE_EVT, .MXE_CTRL, .MXE_STATUS, .MXE_CFG, .MXE_RUN_CYC, .MXE_MASK_ROWS, .MXE_NIL_ROWS, .MXE_WAIT_CYC, .VEC_SEED, .VEC_STATUS, .HBM_CTRL, .HBM_STATUS, .HBM_TEMP, .HBM_ECC_CE, .HBM_ECC_UE, .HBM_UE_ADDR, .HBM_LATE, .HBM_HOT_US, .LNK_CTRL, .LNK_CFG, .LNK_STATUS, .LNK_PEER, .LNK_EXPECT, .LNK_GRACE, .LNK_RPL_CFG]

/-- Part 2 of the register list. -/
def regList2 : List Reg := [.LNK_RTT, .LNK_ERR_CFG, .LNK_ENC, .LNK_MOD, .LNK_SEQ, .LNK_LANE, .LNK_CNT_CRC, .LNK_CNT_FECSYM, .LNK_CNT_NAK, .LNK_CNT_RPL, .LNK_CNT_TMO, .LNK_CNT_RPLFR, .LNK_CNT_STALL, .LNK_CNT_LATE, .LNK_CNT_FAST, .LNK_CNT_FULL, .LNK_CNT_TFAIL, .LNK_CNT_LANELOSS, .LNK_CNT_FLUSH, .LNK_CNT_BELLMIS, .STL_CTRL, .STL_CFG, .STL_ACT, .STL_STATUS, .STL_TXBASE, .STL_RXBASE, .STL_TXBASE_ACT, .STL_RXBASE_ACT, .STL_COMMIT, .STL_TXPAGE, .STL_RXCUR, .STL_FAULT, .STL_CNT_EMPTY, .STL_CNT_HELD, .STL_CNT_AWN, .STL_CNT_RXLATE, .STL_CNT_PAGEBAD, .STL_CNT_REFUSED, .FLW_SEL, .FLW_STATE]

/-- Part 3 of the register list. -/
def regList3 : List Reg := [.FLW_CTRL, .OPN_THROTTLE, .OPN_STATUS, .OPN_ROUTE_BASE, .OPN_ROUTE_ACT, .OPN_COMMIT, .OPN_RBUF, .OPN_RBUF_ACT, .OPN_CNT_THROTTLE, .OPN_CNT_CREDIT, .OPN_CNT_FWD, .OPN_CNT_ROUTE, .PRT_CTRL, .PRT_CFG, .PRT_STATUS, .PRT_ERR, .PRT_ERR_ADDR, .PRT_ERR_BELL, .PRT_WATCH_CFG, .PRT_WATCH, .PRT_WATCH_BELL, .PRT_CNT_OPS, .PRT_CNT_ERR, .PRT_CNT_TMO, .PRT_CNT_STALE, .PRT_CNT_FULL, .PRT_CNT_WATCH, .PRT_CNT_FLUSHSTR, .CHIP_ID, .CHIP_GRADE, .CHIP_FUSE_LO, .CHIP_FUSE_HI, .CHIP_ADDR, .CHIP_SHAPE, .CHIP_HALT, .CHIP_GROUP_VIEW, .CHIP_STEWARD, .CHIP_CNT_NOTICE, .CHIP_CNT_SUPPR, .CHIP_CNT_RECORD]

/-- Part 4 of the register list. -/
def regList4 : List Reg := [.CHIP_CNT_RECLOST, .WGT_CTRL, .WGT_STATUS, .WGT_TABLE_BASE, .WGT_CORE_OFF, .WGT_SWAP_MASK, .WGT_SWAP, .WGT_SCRUB_CFG, .WGT_SCRUB_POS, .WGT_BAD, .WGT_RGN, .WGT_RGN_CFG, .WGT_CNT_LOADED, .WGT_CNT_BAD, .WGT_CNT_REJECT, .WGT_CNT_SCRUBBED, .WGT_CNT_PASSES, .CRI_CTRL, .CRI_STATUS, .CRI_TREE_BASE, .CRI_JOB_BASE, .CRI_JOB_HEAD, .CRI_JOB_TAIL, .CRI_CNT_PIECES, .CRI_CNT_WAIT, .CRI_CNT_HOSTERR, .TAL_KEY_LO, .TAL_KEY_HI, .LDG_CTRL, .LDG_STATUS, .LDG_RING_BASE, .LDG_RING_CFG, .LDG_RING_HEAD, .LDG_RING_TAIL, .LDG_PAY_BASE, .LDG_PAY_CFG, .LDG_PAY_HEAD, .LDG_PAY_TAIL, .LDG_SEQ, .LDG_STEP]

/-- Part 5 of the register list. -/
def regList5 : List Reg := [.LDG_RPL_BASE, .LDG_RPL_PAY_BASE, .LDG_RPL_CFG, .LDG_RPL_CUR, .LDG_RPL_STOP, .LDG_MISMATCH, .LDG_MISMATCH_BELL, .LDG_WALL_S, .LDG_WALL_NS, .LDG_CNT_ENTRIES, .LDG_CNT_LOST, .LDG_CNT_PAYLOST, .LDG_CNT_MISMATCH, .LDG_CNT_FED, .TAL_CTRL, .TAL_STATUS, .TAL_SHEET_BASE, .TAL_SHEET_CFG, .TAL_SHEET_HEAD, .TAL_SHEET_TAIL, .TAL_CNT_EMIT, .TAL_CNT_FOLD, .TAL_CNT_LOST, .PMC_USER_EN, .PMC_STATUS, .PMC_CYCLES, .PMC_DENIED, .PMC_STORE_CE, .PMC_SEL, .PMC_CNT, .CTL_MASTER, .CTL_STATUS, .CTL_HOSTWR, .CTL_LOCK, .CTL_FW_VER, .CTL_WDOG, .CTL_PWR, .CTL_CNT_RESTART, .MBX_CTRL, .MBX_CNT_NOTICE]

/-- Part 6 of the register list. -/
def regList6 : List Reg := [.MBX_CNT_COLL, .MBX_CNT_ABORT, .MBX_BIND, .MBX_DATA, .MBX_PEEK, .MBX_LOCK, .MBX_STAT, .HST_CTRL, .HST_STATUS, .HST_CQ_BASE, .HST_CQ_CFG, .HST_CQ_TAIL, .HST_CQ_HEAD, .HST_CPL_BASE, .HST_CPL_CFG, .HST_CPL_HEAD, .HST_CPL_TAIL, .HST_BAR2_OFF, .HST_DENIED_ADDR, .HST_LINK, .HST_HOSTWIN, .HST_ABORT, .HST_CNT_CMD, .HST_CNT_DENIED, .HST_CNT_DBLOST, .SEC_STATUS, .SEC_BOOT, .SEC_SVN, .SEC_VER_A, .SEC_VER_B, .SEC_SERIAL, .SEC_ZCAUSE, .SEC_DBG_NONCE, .SEC_IDHASH, .SEC_CNT_KEX, .SEC_CNT_KEXFAIL, .SEC_CNT_ATTEST, .LIF_CTRL, .LIF_STATUS, .LIF_HOLDUP]

/-- Part 7 of the register list. -/
def regList7 : List Reg := [.LIF_HOLDUP_CFG, .LIF_SEQ, .LIF_POH, .LIF_ENERGY, .LIF_TCYC, .LIF_MIRROR, .LIF_CNT_WRITES, .LIF_CNT_REFUSED, .LIF_CNT_EVLOST, .PWR_CTRL, .PWR_CLASS, .PWR_STATUS, .PWR_THERM, .PWR_PKG, .PWR_TEMP, .PWR_CLU, .PWR_CNT_THERM, .PWR_CNT_OVER, .PWR_CNT_CLASS, .RST_CTRL, .RST_CFG, .RST_CAUSE, .RST_CLUSTER, .RST_CORE, .RST_STATUS, .RST_CNT_WARM, .RST_CNT_FUNC, .RST_CNT_CLUSTER, .HST_MSIX_ADDR, .HST_MSIX_DATA, .HST_MSIX_CTRL, .HST_MSIX_PBA]

/-- Every register of the device. -/
def allRegs : List Reg :=
  regList0 ++ regList1 ++ regList2 ++ regList3 ++ regList4 ++ regList5 ++ regList6 ++ regList7

/-- Every field of the device. -/
def allFlds : List Fld := allRegs.flatMap Reg.flds

end Sys2Proof.Machine
end

