-- ==== Sys2Proof/Machine/Map.lean ====
section
/-!
DEFINITION. Sparse tables in one canonical form: (key, value) pairs, keys strictly rising, no entry equal to what an
unlisted key reads as. Memories, register files and register fields are held in this form, so that equal contents are
equal data. The laws are in Laws/Map.lean.
-/
namespace Sys2Proof.Machine

/-- A sparse table from natural numbers. -/
abbrev Map (α : Type) := List (Nat × α)

/-- What key k reads as; d is what an unlisted key reads as. -/
def Map.get {α : Type} (d : α) : Map α → Nat → α
  | [], _ => d
  | p :: m, k => if p.1 = k then p.2 else Map.get d m k

/-- Put v at key k, keeping the keys rising. -/
def Map.put {α : Type} : Map α → Nat → α → Map α
  | [], k, v => [(k, v)]
  | p :: m, k, v =>
    if k < p.1 then (k, v) :: p :: m
    else if p.1 = k then (k, v) :: m
    else p :: Map.put m k v

/-- Remove key k. -/
def Map.erase {α : Type} (m : Map α) (k : Nat) : Map α := m.filter (fun p => p.1 ≠ k)

/-- Write v at key k, keeping the canonical form: writing d, what an unlisted key reads as, removes the entry. -/
def Map.set {α : Type} [DecidableEq α] (d : α) (m : Map α) (k : Nat) (v : α) : Map α :=
  if v = d then Map.erase m k else Map.put m k v

/-- The canonical form, where key k reads as d k when unlisted. -/
def Map.wf {α : Type} (d : Nat → α) (m : Map α) : Prop :=
  m.Pairwise (fun p q => p.1 < q.1) ∧ ∀ p ∈ m, p.2 ≠ d p.1

/-- Keep the entries whose keys satisfy f. -/
def Map.keep {α : Type} (f : Nat → Bool) (m : Map α) : Map α := m.filter (fun p => f p.1)

/-- Change every listed value, keeping the canonical form. -/
def Map.modVals {α : Type} [DecidableEq α] (d : α) (f : Nat → α → α) : Map α → Map α
  | [] => []
  | p :: m =>
    let r := Map.erase (Map.modVals d f m) p.1
    if f p.1 p.2 = d then r else (p.1, f p.1 p.2) :: r

end Sys2Proof.Machine
end

