-- ==== Sys2Proof/Machine/Bits.lean ====
section
/-!
DEFINITION. Bit fields, sign, byte order and byte memories (R7), used by every unit.
-/
namespace Sys2Proof.Machine

/-- Bits [lo + w - 1 : lo] of v. -/
def field (v lo w : Nat) : Nat := v / 2 ^ lo % 2 ^ w

/-- v with bits [lo + w - 1 : lo] replaced by x. -/
def setField (v lo w x : Nat) : Nat := v - field v lo w * 2 ^ lo + x % 2 ^ w * 2 ^ lo

/-- Bit i of v. -/
def bit (v i : Nat) : Bool := v.testBit i

/-- v with bit i set to b. -/
def setBit (v i : Nat) (b : Bool) : Nat := setField v i 1 b.toNat

/-- The number 1 for true, 0 for false. -/
def b2n (b : Bool) : Nat := if b then 1 else 0

/-- The w-bit two's complement reading of v. -/
def signed (w v : Nat) : Int := if v % 2 ^ w < 2 ^ (w - 1) then (v % 2 ^ w : Int) else (v % 2 ^ w : Int) - (2 : Int) ^ w

/-- The w-bit two's complement code of i. -/
def unsign (w : Nat) (i : Int) : Nat := (i % ((2 : Int) ^ w)).toNat

/-- The low n bytes of v, least significant first (R7). -/
def leBytes : Nat → Nat → List Byte
  | 0, _ => []
  | n + 1, v => BitVec.ofNat 8 v :: leBytes n (v / 256)

/-- The value of a little-endian byte string (R7). -/
def leVal : List Byte → Nat
  | [] => 0
  | b :: bs => b.toNat + 256 * leVal bs

/-- Byte i of a byte string; a byte that is not there reads zero. -/
def byteAt (bs : List Byte) (i : Nat) : Byte := bs.getD i 0

/-- The n-byte little-endian value at offset i of a byte string. -/
def leAt (bs : List Byte) (i n : Nat) : Nat := leVal ((bs.drop i).take n)

/-- A byte memory: (address, byte) pairs in the canonical form of `Map`; an unlisted byte reads 0 (log entry 5). -/
abbrev Mem := Map Byte

/-- The byte at address a. -/
def Mem.rd (m : Mem) (a : Nat) : Byte := Map.get 0 m a

/-- Write one byte. -/
def Mem.wr (m : Mem) (a : Nat) (b : Byte) : Mem := Map.set 0 m a b

/-- The n bytes from address a. -/
def Mem.rdBytes (m : Mem) (a : Nat) : Nat → List Byte
  | 0 => []
  | n + 1 => m.rd a :: m.rdBytes (a + 1) n

/-- Write a byte string from address a. -/
def Mem.wrBytes (m : Mem) (a : Nat) : List Byte → Mem
  | [] => m
  | b :: bs => (m.wr a b).wrBytes (a + 1) bs

/-- The n-byte little-endian value at address a. -/
def Mem.rdLe (m : Mem) (a n : Nat) : Nat := leVal (m.rdBytes a n)

/-- Write the low n bytes of v at address a, little-endian. -/
def Mem.wrLe (m : Mem) (a n v : Nat) : Mem := m.wrBytes a (leBytes n v)

/-- Every byte of [a, a + n) reads zero afterwards. -/
def Mem.zero (m : Mem) (a n : Nat) : Mem := Map.keep (fun k => k < a || a + n ≤ k) m

/-- The canonical form of a byte memory. -/
abbrev Mem.wf (m : Mem) : Prop := Map.wf (fun _ => (0 : Byte)) m

/-- Apply f to each number below n in rising order. -/
def upto {α : Type} (n : Nat) (f : Nat → α → α) (a : α) : α := (List.range n).foldl (fun x i => f i x) a

/-- The smallest i below n with p i. -/
def firstBelow (n : Nat) (p : Nat → Bool) : Option Nat := (List.range n).find? p

/-- Sum of f over the numbers below n. -/
def sumTo (n : Nat) (f : Nat → Nat) : Nat := (List.range n).foldl (fun x i => x + f i) 0

/-- i rounded up to a whole number of d. -/
def ceilDiv (a d : Nat) : Nat := (a + d - 1) / d

end Sys2Proof.Machine
end

