-- ==== Sys2Proof/Machine/UnitsCore.lean ====
section
/-!
DEFINITION. The state of a core that is no register field: the architectural registers (03, "Architectural state"), the
core store and its tags (06), the matrix engine (04), the porter and the streams (03, 06, 09).
-/
namespace Sys2Proof.Machine

/-- A vector register: 256 lanes of 32 bits. -/
abbrev VReg := BitVec 8192

/-- A predicate register: one bit a lane. -/
abbrev PReg := BitVec 256

/-- One entry of the loop stack (R78): passes left, first and last packet of the body. -/
structure LoopEnt where
  count : Nat
  first : Nat
  last : Nat
  deriving DecidableEq, Repr

/-- The type of an accumulator (R106, R121). -/
inductive AccTy | fp32 | int32 | wp96
  deriving DecidableEq, Repr

/-- A weight entry (R105, R113): its tag, its first K position and the bytes of the tile it was loaded from. -/
structure WEntry where
  wf : Nat
  ws : Bool
  sp : Bool
  k0 : Nat
  tile : List Byte
  deriving DecidableEq, Repr

/-- An accumulator (R105, R142): its type, the anchor of its WP96 words, and the bits and spill of element (i, n) at key
32 i + n; an unlisted element is zero. -/
structure Accum where
  ty : AccTy
  anchor : Int
  els : Map Nat
  spill : Map Nat
  deriving DecidableEq, Repr

/-- The engine configuration MCFG (R112); the anchor is the signed reading of s[RX][15:0]. -/
structure MCfg where
  wf : Nat
  af : Nat
  ws : Bool
  as : Bool
  sp : Bool
  stride : Nat
  sstride : Nat
  anchor : Int
  deriving DecidableEq, Repr

/-- A drain whose event is not delivered yet (R117): its event input and the cycle the count is due. -/
structure DrainEv where
  ev : Nat
  due : Nat
  deriving DecidableEq, Repr

/-- Where a stream's far side lies (R160): this chip, its HBM or host memory window (R181), or a board peer (R180). -/
inductive FarSide
  | own
  | peer (position : Nat)
  deriving DecidableEq, Repr

/-- A piece of a peer stream whose request has left: its offset in the stream, its length, the bell of its request (R180). -/
structure Piece where
  off : Nat
  len : Nat
  sent : Nat
  deriving DecidableEq, Repr

/-- A stream in flight (R176-R181), in slot `slot` of the core's eight. `done` gives, for each stack (key), the bytes moved there;
key 12 counts those of the host memory window. `asked` counts the bytes of a peer stream that pieces cover, `pieces` holds those
without an answer by their place in the stream's 16. `miss` marks bytes that stay unwritten (R180, R181), `left` the granules
of the destination whose bytes not yet written are counted (unlisted: 512). -/
structure Stream where
  slot : Nat
  load : Bool
  local_ : Nat
  far : Nat
  rowBytes : Nat
  rows : Nat
  stride : Int
  ps : Bool
  ev : Option Nat
  side : FarSide
  done : Map Nat
  asked : Nat
  pieces : Map (Option Piece)
  miss : Bool
  left : Map Nat
  deriving DecidableEq, Repr

/-- The operation of a porter entry. -/
inductive PortKind
  | put | get | acc
  | atomAdd | atomMax | atomCas
  deriving DecidableEq, Repr

/-- One operation in the porter (R91, R92, R251): its generation, what it does, its binding (a booked flow, or an open operation
on a machine address), its local address, length and element type, its operands, its completion event; the cycle of its issue, the
cycle before which it does not complete (R247), the bell in which its request left the porter, whether it has reached its local completion, and
whether that was delivered. -/
structure PortOp where
  gen : Nat
  kind : PortKind
  dt : Nat
  booked : Bool
  link : Nat
  flow : Nat
  chip : Nat
  remote : Nat
  local_ : Nat
  len : Nat
  val : Nat
  val2 : Nat
  discard : Bool
  ev : Option Nat
  issued : Nat
  due : Nat
  sent : Option Nat
  readDone : Bool
  locDone : Bool
  deriving DecidableEq, Repr

/-- A TALLY that reads (R319): the cycle of its next granule, that granule's local offset, the granules left, the tensor, the next logical index. -/
structure TallyRun where
  due : Nat
  addr : Nat
  left : Nat
  tensor : Nat
  index : Nat
  deriving DecidableEq, Repr

/-- A core. Unlisted registers read 0, unlisted masks all ones (R122). `bell` is the BELL shape register, `lastWait` the bell of
the last completed BELLWAIT (R322), `waiting` the packet that waits, `released` whether the pulse of its BELLWAIT has come while a full
porter still holds it (R85, R411), `startBell` the start bell of a LOADED core (R104), `cg` whether the core is in the CG low-power state
(R70, R384), `eccBad` the words of the store with an uncorrectable error, `eccOne` those with a single-bit error, `fillErr` the word whose
error a fill-port read found, until the core's next packet boundary (R168). `cyc` counts the cycles of the core whose use is decided: the next
packet issues in it or later; `elapsed` counts the cycles of its region that have passed, `issued` is the cycle of the last issue, `ready` the
scoreboard (R93, R118): the cycle from which a register or resource is ready, keyed as in Machine/Issue.lean. `grid` gives the run that streams,
cycle for cycle from `cyc`: the rows it wastes, or 33 for a cycle that a bank conflict adds; `conflict` is the span of cycles that conflicts
added to the last drain (R165, R325). -/
structure Core where
  sregs : Map Word
  vregs : Map VReg
  pregs : Map PReg
  loops : List LoopEnt
  store : Mem
  eccBad : Map Bool
  eccOne : Map Bool
  fillErr : Option Nat
  tags : Map Nat
  waiting : List Instr
  waitBells : Nat
  released : Bool
  startBell : Option Nat
  bell : Nat
  lastWait : Nat
  cg : Bool
  cyc : Nat
  elapsed : Nat
  issued : Nat
  ready : Map Nat
  grid : List Nat
  conflict : Nat × Nat
  wents : Map WEntry
  accs : Map Accum
  masks : Map Nat
  mcfg : MCfg
  drains : List DrainEv
  tallies : List TallyRun
  porter : Map (Option PortOp)
  gens : Map Nat
  streams : List Stream
  deriving DecidableEq, Repr

/-- The zero weight entry (R122). -/
def WEntry.zero : WEntry := ⟨0, false, false, 0, []⟩

/-- A zero accumulator of type ty at anchor a. -/
def Accum.zero (ty : AccTy) (a : Int) : Accum := ⟨ty, a, [], []⟩

/-- MCFG all zero (R122). -/
def MCfg.zero : MCfg := ⟨0, 0, false, false, false, 0, 0, 0⟩

/-- A core after power-on: every register zero (log entry 4), the engine as R122 says, nothing in flight; not bound, it is in CG (R70). -/
def Core.reset : Core :=
  { sregs := [], vregs := [], pregs := [], loops := [], store := [], eccBad := [], eccOne := [], fillErr := none, tags := [], waiting := [],
    waitBells := 0, released := false, startBell := none, bell := 0, lastWait := 0, cg := true, cyc := 0, elapsed := 0, issued := 0, ready := [], grid := [], conflict := (0, 0), wents := [],
    accs := [], masks := [], mcfg := MCfg.zero, drains := [], tallies := [], porter := [], gens := [], streams := [] }

/-- The core's wait is over: its packet has issued, or the wait was abandoned (R411); a waiting core's CG ends with it (R384). -/
def Core.endWait (c : Core) : Core := { c with waiting := [], waitBells := 0, released := false, cg := false }

/-- A core without its stores' contents, tags and engine state: CG without retention loses them (R384), and so does KO. What they read as
afterwards is what a byte that nothing has written reads as (log entry 5). -/
def Core.lost (c : Core) : Core := { Core.reset with gens := c.gens, cyc := c.cyc, elapsed := c.elapsed, bell := c.bell, cg := c.cg }

/-- A count in flight from EVSEND (R81). -/
structure EvFlight where
  src : Nat
  dst : Nat
  ev : Nat
  deriving DecidableEq, Repr

end Sys2Proof.Machine
end

