-- ==== Sys2Proof/Machine/UnitsLink.lean ====
section
/-!
DEFINITION. The state of a Thoyr link that is no register field: the link layer (07), the stall schedulers and flows (08), the open
market's queues (08, 09), and the transit store with its holding area (08).
-/
namespace Sys2Proof.Machine

/-- A run of a page (R215). -/
structure Run where
  kind : Nat
  len : Nat
  flow : Nat
  deriving DecidableEq, Repr

/-- An open packet (R233): its header words, payload, launch bell (R62) with whether it had passed when the packet reached the head of its
channel, the issuing core when it is this chip's porter's, and the link and section it arrived on, with the credit units it holds there. -/
structure OpenPkt where
  w0 : Nat
  w1 : Nat
  data : List Byte
  launch : Option (Nat × Option Bool)
  core : Option Nat
  via : Option (Nat × Nat × Nat)
  deriving DecidableEq, Repr

/-- A sequenced frame of the transmit queue or the replay buffer (R190): its sequence number once sent, TYPE, plan bell and stall,
ENC, its payload as it goes on the line, the time of its last departure in ns (R193), and the open packet that it ends (R203). -/
structure TxFrame where
  seq : Nat
  typ : Nat
  bell : Nat
  stall : Nat
  enc : Bool
  payload : List Byte
  sentAt : Nat
  pkt : Option OpenPkt
  deriving DecidableEq, Repr

/-- An accepted sequenced frame that waits in the receive FIFO (R196, R230): TYPE, plan bell, stall, payload in clear. -/
structure RxFrame where
  typ : Nat
  bell : Nat
  stall : Nat
  payload : List Byte
  deriving DecidableEq, Repr

/-- The coded stream of a link's transmit direction (R184, R185): the frames sent on it, the message bits that wait for a codeword (their
value, first bit lowest, and number), and the last codeword, first symbol first. -/
structure Line where
  frames : Nat
  bits : Nat
  held : Nat
  word : List Nat
  deriving DecidableEq, Repr

/-- A transmit segment (R207): its first sequence number, SEG and EPOCH, its additional data and cipher text so far, and its tag once it
has ended. -/
structure TxSeg where
  start : Nat
  seg : Nat
  epoch : Nat
  aad : List Byte
  text : List Byte
  tag : Nat
  deriving DecidableEq, Repr

/-- A segment of the receive direction (R207): its first sequence number, SEG and EPOCH, the bell of its mark, and whether its EPOCH is the
one that this side's own rekey bell gives (R208); `guess` tells that its mark has not come and the receiver counts on it from its stall count. -/
structure RxSeg where
  start : Nat
  seg : Nat
  epoch : Nat
  bell : Nat
  sound : Bool
  guess : Bool
  deriving DecidableEq, Repr

/-- An accepted frame that a tag has not covered yet: sequence number, additional data, cipher text (none for NIL). -/
structure RxLog where
  seq : Nat
  aad : List Byte
  text : List Byte
  deriving DecidableEq, Repr

/-- A segment whose tag has arrived and waits for its frames: the segment, the number after its last frame, its tag. -/
structure RxTag where
  seg : RxSeg
  stop : Nat
  tag : Nat
  deriving DecidableEq, Repr

/-- The table sets of a link (R213, R410): whether a set has been committed, the transmit and receive base, and the division (REQ, RPL, CTL,
AWN, six bits each). -/
structure TableSets where
  live : Bool
  tx : Nat
  rx : Nat
  cfg : Nat
  deriving DecidableEq, Repr

/-- A transmit flow (R222, R223): its cached descriptor (R218, 256 bits), whether it failed its check and whether it was loaded; the permits;
for PUT and ACC whether a vector is in progress; its vector number modulo the permit count, the granule cursor; the porter entries of the waiting
PUTs (core and index) and that of the PUT whose source is being read; the granules of the staging buffer, none until read; whether a TRIG 1 flow
lacked permits at its first stall of the round; and the watch: consecutive waiting bells, the wait code of R263, whether it was reported, whether it
progressed and sent a stall EMPTY in this bell (R263). -/
structure TFlow where
  desc : Nat
  refused : Bool
  loaded : Bool
  permits : Nat
  active : Bool
  slot : Nat
  cursor : Nat
  puts : List (Nat × Nat)
  reading : Option (Nat × Nat)
  staged : List (Option (List Byte))
  lack : Bool
  wait : Nat
  code : Nat
  reported : Bool
  moved : Bool
  starved : Bool
  deriving DecidableEq, Repr

/-- A receive flow (R224-R227): its descriptor, the vector arriving modulo the permit count, its granule cursor, the granules landed of
each vector (by slot), the mask of slots that hold a whole vector, the slot RELEASE clears next, and the watch. -/
structure RFlow where
  desc : Nat
  refused : Bool
  loaded : Bool
  slot : Nat
  cursor : Nat
  got : Map Nat
  whole : Nat
  rel : Nat
  wait : Nat
  code : Nat
  reported : Bool
  moved : Bool
  deriving DecidableEq, Repr

/-- A permit message in a port's permit queue (R226). -/
structure Permit where
  chip : Nat
  link : Nat
  flow : Nat
  count : Nat
  deriving DecidableEq, Repr

/-- A packet being sent in fragments (R234): the packet and the frames' payloads left. -/
structure Sending where
  pkt : OpenPkt
  left : List (List Byte)
  deriving DecidableEq, Repr

/-- A link's state. `coeffs` is the mask of lanes with kept coefficients; `lanes`, `widthMax`, `speed`, `enc` the committed LNK_CFG
(R201). `rb` is the replay buffer, `txq` the new frames in plan order. `rpl` is the sequence number of the next frame of a replay in progress;
`rplFrom`, `rplCount` are R195's, `rplDue` a further replay from that number (by timeout or not) that waits until this one is sent in full;
`rplAt` the last replay's start and time in ns (R193). `nakDue` asks for a NAK, `nakHeld` bars further ones (R191). `flushFlag` is R202's,
`fresh` makes the next entry to UP number from 0 (R190). `catchup` is the replay of R202, `assign` R231's permission to assign new frames, `setP`
that a mark is to name P, once every frame before `rxNext` is accepted. `retrainNow` is R206's mark sent. `trains` are the TRAIN frames this side
has sent since it last entered HANDSHAKE (R199), and `peer` the chip last found at the other end. `flushed` holds the booked flows (receive or
transmit, number) of the flushed notices of the last flush (R203). `slot` is the next stall of this bell, `retryBell` the last bell with a retry
event (R232), `marks` the marks received in this UP (R54), `rxStall` the stall of the next frame by the receiver's count (R209), `wire` the last
frame sent, `line` its coded stream. `live` tells that a table set has been committed (R410), `commit` is the latched bell of STL_COMMIT; `base`
what is decided for a bell (R243); `prev` is what was in force before the bell it names; `ran` the flows that the transmit pages of the earlier
bells of this round booked (R222). `dues` are credit units by class and section (R239), `used` the units of the packets sent there and not yet
returned, oldest first (R238); `cur` the packet being sent of a class, `part` the bytes reassembled. `keyZ` is the ECDH secret (R366), `key`,
`nextKey` and `oldKey` the key slots, `rekey` the armed rekey bell and `rekeyed` that of the last rekey, `lowSide` DIR's order (R207); `segs` the
transmit segments, `rxSegs` those being received, newest first. -/
structure LinkUnit where
  coeffs : Nat
  lanes : Nat
  widthMax : Nat
  speed : Nat
  enc : Bool
  rb : List TxFrame
  txq : List TxFrame
  rpl : Option Nat
  rplFrom : Option Nat
  rplCount : Nat
  rplDue : Option Bool
  rplAt : Option (Nat × Nat)
  nakDue : Bool
  nakHeld : Bool
  flushFlag : Bool
  fresh : Bool
  catchup : Bool
  assign : Bool
  setP : Bool
  retrainNow : Bool
  trains : List TrainFrame
  peer : Option Nat
  flushed : List (Bool × Nat)
  slot : Nat
  retryBell : Option Nat
  marks : Nat
  rxStall : Nat
  wire : List Byte
  line : Line
  rxFifo : List RxFrame
  txPages : List (Nat × List Run)
  rxPages : List (Nat × List Run)
  txGood : List Run
  rxGood : List Run
  live : Bool
  commit : Option Nat
  base : Option (Nat × TableSets)
  prev : Option (Nat × TableSets)
  ran : List Nat
  tflows : Map TFlow
  rflows : Map RFlow
  permits : List Permit
  dues : Map Nat
  used : Map (List Nat)
  openQ : Map (List OpenPkt)
  cur : Map (Option Sending)
  part : Map (List Byte)
  throttled : Nat
  keyZ : Option Nat
  key : Nat
  nextKey : Option Nat
  oldKey : Option Nat
  rekey : Option Nat
  rekeyed : Option Nat
  lowSide : Bool
  segs : List TxSeg
  rxSegs : List RxSeg
  rxLog : List RxLog
  rxTags : List RxTag
  rxNext : Nat
  deriving DecidableEq, Repr

def TFlow.reset : TFlow := ⟨0, false, false, 0, false, 0, 0, [], none, [], false, 0, 0, false, false, false⟩
def RFlow.reset : RFlow := ⟨0, false, false, 0, 0, [], 0, 0, 0, 0, false, false⟩

/-- What a link's transmitters put on the line (R197): nothing, the training pattern every 100 µs, the training pattern, TRAIN frames, frames. -/
inductive LineOut
  | idle
  | probe
  | pattern
  | train
  | frames
  deriving DecidableEq, Repr

/-- A link after power-on: OFF, nothing queued, numbering fresh (R190). -/
def LinkUnit.reset : LinkUnit :=
  { coeffs := 0, lanes := 15, widthMax := 3, speed := 0, enc := false, rb := [], txq := [], rpl := none, rplFrom := none,
    rplCount := 0, rplDue := none, rplAt := none, nakDue := false, nakHeld := false, flushFlag := false, fresh := true, catchup := false,
    assign := false, setP := false, retrainNow := false, trains := [], peer := none, flushed := [], slot := 0, retryBell := none,
    marks := 0, rxStall := 0, wire := [], line := ⟨0, 0, 0, []⟩, rxFifo := [], txPages := [], rxPages := [], txGood := [], rxGood := [],
    live := false, commit := none, base := none, prev := none, ran := [], tflows := [], rflows := [], permits := [], dues := [], used := [],
    openQ := [], cur := [], part := [], throttled := 0, keyZ := none, key := 0, nextKey := none, oldKey := none, rekey := none,
    rekeyed := none, lowSide := false, segs := [], rxSegs := [], rxLog := [], rxTags := [], rxNext := 0 }

/-- A granule of a transit store half that is present (R227): its bytes, its nil bit, the MCAST flows that send it, and those (link
and flow) that have taken it. -/
structure TGran where
  bytes : List Byte
  nil : Bool
  fanout : Nat
  takers : List (Nat × Nat)
  deriving DecidableEq, Repr

/-- A frame in the holding area (R225): its half, link, receive flow and that flow's descriptor when it arrived, slot and granule within the
vector, whether it waits for a transit granule, the core and local granule or the transit granule it waits for, its bytes and NIL. -/
structure Held where
  half : Nat
  link : Nat
  flow : Nat
  desc : Nat
  slot : Nat
  gran : Nat
  transit : Bool
  core : Nat
  place : Nat
  bytes : List Byte
  nil : Bool
  deriving DecidableEq, Repr

/-- The open market's shared state: packets that have reached this chip, the last valid throttle pair in KiB (R241), the armed route
commit and the base decided for a bell (R243), the flushed links whose route entries the armed commit replaces and those whose replacement waits
until no commit is armed (R271, R272), the requests of control cores (SRC_ID, TAG) that left LATE (R62) and their completions
(SRC_ID, TAG, status; R250). -/
structure OpenUnit where
  arrived : List OpenPkt
  thrOn : Nat
  thrOff : Nat
  commit : Option Nat
  base : Option (Nat × Nat)
  moving : List Nat
  reroute : List Nat
  openMap : List Nat
  late : List (Nat × Nat)
  done : List (Nat × Nat × Nat)
  deriving DecidableEq, Repr

def OpenUnit.reset : OpenUnit := ⟨[], 256, 128, none, none, [], [], [], [], []⟩

end Sys2Proof.Machine
end

