-- ==== Sys2Proof/Machine/UnitsCtl.lean ====
section
/-!
DEFINITION. The state of the clock and bell unit (02), the HBM controllers (06), the ledger and tally units (12), the topology
firmware (10), the control complex, the mailboxes and the host interface (13) that is no register field.
-/
namespace Sys2Proof.Machine

/-- An armed frequency change (R46-R48): the latched target, the regions it names (less the clusters that a reset dropped), whether it
named all of regions 0-23 at the ARM, the bell, the previous target, the regions a thermal emergency met after the ARM, whether the
regions are stopped, whether the reference was lost during the stop, and the arming master. -/
structure FreqChange where
  target : Nat
  mask : Nat
  whole : Bool
  bell : Nat
  prev : Nat
  tripped : Nat
  stopped : Bool
  aborted : Bool
  armer : Nat
  deriving DecidableEq, Repr

/-- Clock regions: the armed change, each region's oscillator base setting in kHz (unlisted: the common target), the cycles
lost to droop that the FLL has not repaid (R36), the regions whose FLL resumes after a reference loss (R42), the mask of regions with a
crossing that did not align (R39), the mask of clusters whose re-admission stopped there (R39), the register and BAR2 accesses that wait
for the restart of a stopped region, oldest first (R45), and the alternation that gives a halved region every second tick (R40). -/
structure ClkUnit where
  fchg : Option FreqChange
  base : Map Nat
  owed : Map Nat
  slew : Map Bool
  misaligned : Nat
  out : Nat
  waiting : List Instr
  half : Bool
  deriving DecidableEq, Repr

/-- A decided set of R51: bell length in µs, round length, round origin, quiet map, HBM margin of each stack. -/
structure BellSet where
  us : Nat
  len : Nat
  origin : Nat
  quiet : Map Nat
  margins : List Nat
  deriving DecidableEq, Repr

/-- The bell unit: the phase in 2^-32 ns, the low fraction of wall time, the latched commit bell and arming master, the decided set, the
bell length, round length and origin in force before the bell of the last commit, the round origin and quiet map in force, the latched trigger bells, the servo's accumulator in 2^-16 ns, the bells without
a usable mark and whether one came in this bell, bells PARENT_FRESH bit 0 has stayed set, and the captures of R59. -/
structure BelUnit where
  phase : Nat
  wallFrac : Nat
  commit : Option Nat
  decided : Option BellSet
  prev : Option (Nat × Nat × Nat × Nat)
  origin : Nat
  quiet : Map Nat
  trig : Map (Option Nat)
  acc : Int
  noMark : Nat
  usable : Bool
  freshFor : Nat
  wallCap : Option Nat
  nowCap : Option Nat
  deriving DecidableEq, Repr

/-- Who owns an HBM slot (R171). -/
inductive SlotOwner
  | none
  | core (logical : Nat)
  | port (link : Nat)
  | crier
  | scrub
  | host
  deriving DecidableEq, Repr

/-- What a request that waits for an HBM slot does once its bytes have moved (R172): a granule of a vector's source enters the staging buffer
(link, flow, granule), a landed granule is written, an open request is performed, a host write lands, the crier writes a piece (tree, feed), the
scrub judges its shard. -/
inductive HbmAct
  | stage (link flow gran : Nat)
  | land (h : Held)
  | serve (p : OpenPkt)
  | write (addr : Nat) (bytes : List Byte)
  | crier (tree feed : Nat)
  | scrub
  deriving DecidableEq, Repr

/-- A request that waits for its owner's slots of a stack (R172): the owner, the bytes still to move, what it does. -/
structure HbmReq where
  owner : SlotOwner
  left : Nat
  act : HbmAct
  deriving DecidableEq, Repr

/-- One HBM stack: the owner of each slot by the HBM plan, the requests that wait for their owners' slots, oldest first (R172), the last valid
threshold pair (R174), the symbols in error of each code word (R175), whether a refresh fault was noted in this bell (R173), whether it is in
self-refresh (R385, R388). -/
structure Stack where
  owners : Map SlotOwner
  queue : List HbmReq
  hotOn : Nat
  hotOff : Nat
  bad : Map Nat
  noted : Bool
  asleep : Bool
  deriving DecidableEq, Repr

/-- The open run of host writes (R308). -/
structure HostRun where
  addr : Nat
  data : List Byte
  deriving DecidableEq, Repr

/-- A tally accumulator (R318-R322): its sum, the granules folded, and the kinds of folds (bit 0 TALLY, bit 1 landing). -/
structure Tally where
  sum : Nat
  folds : Nat
  kinds : Nat
  deriving DecidableEq, Repr

/-- What a ledger entry says (R307). -/
structure LdgEntry where
  kind : Nat
  src : Nat
  len : Nat := 0
  digest : Nat := 0
  target : Nat := 0
  detail : Nat := 0
  fed : Bool := false
  deriving DecidableEq, Repr

/-- The ledger and tally units: the open run, the runs that a doorbell closed, the lossy marks of the step (R312), whether the rings
are full (their indices alone do not tell full from empty), the MAILBOX cursor (R315), the
tallies, the PUT_BATCH whose data has not landed, and, while the inputs of one cycle are gathered, their entries with wall time and payload (R309). -/
structure LdgUnit where
  run : Option HostRun
  lost : Bool
  tlost : Bool
  ringFull : Bool
  sheetFull : Bool
  payUsed : Nat
  mbxCur : Nat
  tallies : Map Tally
  batch : Option (Nat × Nat × Nat)
  cycle : Option (List (LdgEntry × (Nat × Nat) × List Byte))
  deriving DecidableEq, Repr

/-- What raised an interrupt to a control core. -/
inductive IrqSrc
  | trigger (t : Nat)
  | ledger
  | sheet
  | coreFault (c : Nat)
  | coreDone (c : Nat)
  | hbm (stack : Nat)
  | mailbox (ch : Nat)
  | watchdog (i : Nat)
  | thermal (region : Nat)
  | flowWatch (c : Nat)
  | porter (c : Nat)
  | link (n : Nat)
  | weight
  deriving DecidableEq, Repr

/-- A pending interrupt: the control core, whether it follows the master (R328), and its source. -/
structure Irq where
  ctl : Nat
  viaMaster : Bool
  src : IrqSrc
  deriving DecidableEq, Repr

/-- A notice firmware has to send (R281-R283): suspect, class, bell of detection, detail. -/
structure Notice where
  suspect : Nat
  cls : Nat
  bell : Nat
  detail : Nat
  deriving DecidableEq, Repr

/-- An open merge of the steward (R285). -/
structure Merge where
  suspect : Nat
  cls : Nat
  reporters : Nat
  first : Nat
  wallS : Nat
  wallNs : Nat
  detail : Nat
  opened : Nat
  deriving DecidableEq, Repr

/-- An agreement (R279, R280), at a chip the plan touches or at the initiator: the plan, the bell, whether this chip initiates, the
chips touched, their answers in this round, the rounds, CONFIRM seen or sent, armed, the DONE answers. -/
structure Agreement where
  plan : Nat
  bell : Nat
  initiator : Bool
  from_ : Nat
  chips : List Nat
  answers : List (Nat × Option Nat)
  rounds : Nat
  confirmed : Bool
  armed : Bool
  dones : List Nat
  deriving DecidableEq, Repr

/-- Topology firmware: the accepted machine configuration, the retained area of control SRAM as its copy was written (R348), the partition, the spares, the rank table, the plans of the bundle, the
running agreements, the detour plans it has still to propose (R242, R279), notices not sent yet, notices sent (suspect, class, bell), merges, records written, the ring's slots
taken and waiting, and its base. -/
structure TopoUnit where
  machine : Option MachineConfig
  kept : Mem
  partition : List Nat
  spares : List Nat
  ranks : List Nat
  plans : List PlanInfo
  agreements : List Agreement
  wanted : List Nat
  toSend : List Notice
  sent : List Notice
  merges : List Merge
  recSeq : Nat
  recWait : List (Nat × List Byte)
  recSent : Bool
  recBase : Nat
  recNext : Nat
  deriving DecidableEq, Repr

/-- A host command taken and not completed (R346): ring index, code, CMD_ID, STEPNO, IRQ flag, whether it has started and whether
part of it is armed at an agreed bell (R350). -/
structure Taken where
  idx : Nat
  code : Nat
  cmdId : Nat
  step : Nat
  last : Bool
  irq : Bool
  ptr : Nat
  args : List Byte
  started : Bool
  armed : Bool
  deriving DecidableEq, Repr

/-- A completion held for want of room (R345). -/
structure Completion where
  idx : Nat
  cmdId : Nat
  step : Nat
  irq : Bool
  status : Nat
  detail : Nat
  deriving DecidableEq, Repr

/-- What firmware reports to the host of a core fault (R98): the physical and the logical number of the core, and the code. -/
structure CoreReport where
  core : Nat
  logical : Nat
  code : Nat
  deriving DecidableEq, Repr

/-- The host interface: commands outstanding, the last step taken of the open multi-step command (R347), completions held, the
completion ring full, the PHASE of this pass, host memory as the device's writes leave it, whether bus mastering is on (R350), and
how the last configuration request completed: 0 normally, 2 with Configuration Request Retry Status (R386); the core faults reported,
oldest first (R98); the size of BAR2 as a power of two (R340). -/
structure HstUnit where
  taken : List Taken
  multi : Option Taken
  held : List Completion
  cplFull : Bool
  phase : Bool
  hostMem : Mem
  busMaster : Bool
  cfgStatus : Nat
  reports : List CoreReport
  bar2 : Nat
  deriving DecidableEq, Repr

/-- What a request to the L2 asks for one of its lines (R329): to write it back, to read it, or to own it. -/
inductive L2Kind
  | writeback
  | read
  | own
  deriving DecidableEq, Repr

/-- A request to the L2 (R329): the master, the line of control SRAM, and the bytes that the master writes in the line, by their offsets. -/
structure L2Req where
  who : Nat
  line : Nat
  kind : L2Kind
  put : List (Nat × Byte)
  deriving DecidableEq, Repr

/-- What the L2 has answered a master: the line and its bytes. -/
structure L2Answer where
  who : Nat
  line : Nat
  data : List Byte
  deriving DecidableEq, Repr

/-- The control complex: pending interrupts, the control SRAM as the caches show it, the telemetry words firmware keeps (R353), the wall-time samples
given, and who armed each commit (R306): key 0 the bell's, 1 + n link n's, 65 the route table's, 66 the swap's; the master that takes over
once the immediate command has completed (R328); the requests that wait at the L2, the control core that owns each line and what the L2 has
answered (R329); the index that the I3C sideband has written, and the bytes of the last sideband read (R352). -/
structure CtlUnit where
  irqs : List Irq
  sram : Mem
  telem : Map Nat
  sample : Option (Nat × Nat)
  armers : Map Nat
  handover : Option Nat
  l2 : List L2Req
  owner : Map (Option Nat)
  answers : List L2Answer
  sbIdx : Nat
  sbOut : List Byte
  deriving DecidableEq, Repr

/-- Held low halves and captured high halves of R15: register code, element and value, for each master identity. -/
structure Halves where
  held : Map (Option (Nat × Nat × Nat))
  cap : Map (Option (Nat × Nat × Nat))
  deriving DecidableEq, Repr

def ClkUnit.reset : ClkUnit := ⟨none, [], [], [], 0, 0, [], false⟩
def BelUnit.reset : BelUnit := ⟨0, 0, none, none, none, 0, [], [], 0, 0, false, 0, none, none⟩
def Stack.reset : Stack := ⟨[], [], 0x55, 0x53, [], false, false⟩
def LdgUnit.reset : LdgUnit := ⟨none, false, false, false, false, 0, 0, [], none, none⟩
def TopoUnit.reset : TopoUnit := ⟨none, [], [], [], [], [], [], [], [], [], [], 0, [], false, 0, 0⟩
def HstUnit.reset : HstUnit := ⟨[], none, [], false, true, [], true, 0, [], 40⟩
def CtlUnit.reset : CtlUnit := ⟨[], [], [], none, [], none, [], [], [], 0, []⟩

end Sys2Proof.Machine
end

