-- ==== Sys2Proof/Machine/UnitsSys.lean ====
section
/-!
DEFINITION. The state of the weight manager, crier and scrub (11), the security module and lifetime store (14), and the power, reset and
start-up units (15) that is no register field; and the loader's (03).
-/
namespace Sys2Proof.Machine

/-- A shard of a bank (R298, R299): 0 ABSENT, 1 LOADING, 2 LOADED, 3 BAD; the running digest before its closing step, the granules
folded, the next piece index. -/
structure ShardSt where
  st : Nat
  digest : Nat
  count : Nat
  next : Nat
  deriving DecidableEq, Repr

/-- A piece that a receive flow or the root's own copy lands (R297): region, bank, shard index, region offset of granule 1, VALID, and
whether it was accepted. -/
structure PieceIn where
  ok : Bool
  region : Nat
  bank : Nat
  idx : Nat
  off : Nat
  valid : Nat
  deriving DecidableEq, Repr

/-- A running crier job (R294, R296): its slot of the ring, tree, source, region, target and source bank, shard id, address, load tag,
the next piece of each feed (key 4: the root's own copy), the bytes read from host memory so far, and whether a host read
failed. `shard` is the index within the region. -/
structure CriJob where
  slot : Nat
  tree : Nat
  src : Nat
  region : Nat
  bank : Nat
  sbank : Nat
  shard : Nat
  addr : Nat
  tag : Nat
  next : Map Nat
  host : List Byte
  err : Bool
  deriving DecidableEq, Repr

/-- The weight unit: shards by (region, bank, index) key, pieces arriving by link and flow, running jobs, the vector number of each
feed (tree, feed), the shards a scrub pass has left, the armed swap's bell, whether an ARMED bank became BAD, the mask of a
SWAP_BANK under way and the number of swaps asked (R300). -/
structure WgtUnit where
  shards : Map ShardSt
  pieces : Map (Option PieceIn)
  jobs : List CriJob
  feeds : Map Nat
  scrub : List (Nat × Nat × Nat)
  swap : Option Nat
  swapBad : Bool
  asked : Option Nat
  seq : Nat
  deriving DecidableEq, Repr

/-- The OTP of the security module (R357-R360): the key hashes and revoked indices, the per-chip secret, the certificate signature. -/
structure Otp where
  keyHash : List Nat
  revoked : List Nat
  secret : Nat
  cert : List Byte
  deriving DecidableEq, Repr

/-- The security module: OTP, the identity private key (0 when zeroised), the DRBG state, module RAM outside its code, the digest of the
running body, the lid trace closed, and the mailbox channels whose notices have rung the module's doorbell (R335). -/
structure SecUnit where
  otp : Otp
  idKey : Nat
  drbg : Nat
  ram : Mem
  body : Nat
  lidClosed : Bool
  doorbell : List Nat
  deriving DecidableEq, Repr

/-- Who issued a NOR operation. -/
inductive NorUser
  | journal
  | update
  | header
  deriving DecidableEq, Repr

/-- A NOR operation (R368): the issuing master, the address, the bytes to program, or an erase of its sector when none. -/
structure NorOp where
  user : NorUser
  master : Nat
  addr : Nat
  data : Option (List Byte)
  deriving DecidableEq, Repr

/-- A calendar event (R370): kind, wall time, bell, detail. -/
structure LifEvent where
  kind : Nat
  wallS : Nat
  wallNs : Nat
  bell : Nat
  detail : Nat
  deriving DecidableEq, Repr

/-- The lifetime store: the NOR (held complemented, so that an unlisted byte reads erased, 0xFF), operations queued in order and running,
operations not issued yet or refused, the next record of the ring, the events of this interval and those lost, the record recovered
at power-on as totals, whether the temperature has risen above 85 °C since its last fall below 45 °C, the last record written, and
whether the update's next operation stands refused. -/
structure LifUnit where
  nor : Mem
  queue : List NorOp
  running : Option NorOp
  waiting : List NorOp
  next : Nat
  events : List LifEvent
  evLost : Nat
  totals : Mem
  hot : Bool
  record : List Byte
  retryGap : Bool
  deriving DecidableEq, Repr

/-- A firmware update (R372, R373): the header, ACT, the body, its stage: 0 collecting, 1 writing the slot, 2 restarting control cores;
the cores restarted so far, the slot written, whether it is staged though ACT is 1, and the version that ran before it. -/
structure FwUpd where
  header : List Byte
  act : Nat
  body : Mem
  stage : Nat
  restarted : Nat
  slot : Nat
  held : Bool
  old : Nat
  deriving DecidableEq, Repr

/-- The power unit: the last valid thermal triple, the power samples of the last second (count and sum in W), the class being changed to,
whether that change is a class descent, and the next link of a SHUTDOWN under way. -/
structure PwrUnit where
  trip : Nat
  release : Nat
  crit : Nat
  samples : Nat
  sum : Nat
  change : Option Nat
  descent : Bool
  down : Option Nat
  deriving DecidableEq, Repr

/-- The reset unit: whether PWRGOOD is deasserted; the cause of a warm reset that waits for a NOR operation; boot progress (0 in
reset, 1 self-tested, 2 booted, 3 firmware started, 4 clocks, 5 HBM, 6 links, 7 joined, 8 host told); the cores in class C; whether
start-up stopped at its step 4; and the acquisition of fabric time (R56): consecutive parent marks with JOINED (17 once time is set), the
bell of the last one, the consecutive bells within 10 ns. -/
structure RstUnit where
  held : Bool
  wait : Option Nat
  boot : Nat
  cores : List Nat
  failed : Bool
  acq : Nat
  mark : Nat
  good : Nat
  deriving DecidableEq, Repr

/-- The loader: the job and bundle loaded or waiting for their bell, whether a bundle is loaded, the bell of a load under way (0 to agree one), and the
job and bundle before it, which stand again when its commits are refused. -/
structure LoadUnit where
  job : Option JobConfig
  bundle : Option Bundle
  loaded : Bool
  loading : Option Nat
  before : Option JobConfig × Option Bundle
  deriving DecidableEq, Repr

def ShardSt.reset : ShardSt := ⟨0, 0, 0, 0⟩
def WgtUnit.reset : WgtUnit := ⟨[], [], [], [], [], none, false, none, 0⟩
def SecUnit.reset : SecUnit := ⟨⟨[0, 0, 0, 0], [], 0, []⟩, 0, 0, [], 0, true, []⟩
def LifUnit.reset : LifUnit := ⟨[], [], none, [], 0, [], 0, [], false, [], false⟩
def PwrUnit.reset : PwrUnit := ⟨0x6E, 0x64, 0x7D, 0, 0, none, false, none⟩
def RstUnit.reset : RstUnit := ⟨false, none, 0, [], false, 0, 0, 0⟩
def LoadUnit.reset : LoadUnit := ⟨none, none, false, none, (none, none)⟩

end Sys2Proof.Machine
end

