-- ==== Sys2Proof/Machine/State.lean ====
section
/-!
DEFINITION. The state of the ZX9 block: every register field (by field and instance, in `regs`), every unit's other state, and the
queue of waiting commands. Plain data. INVENTORY.md, "State", lists each piece with its rule and its reset value.
-/
namespace Sys2Proof.Machine

/-- The fuses and straps (R2, R18, R266, R360): enabled cores, grade, speed suffix, part, stepping, nominal clock in MHz,
lifecycle state, fused SVN minimum, serial number, board position and board, and STRAP_SBSEL: the sideband is I3C (R352, 16). -/
structure Fuses where
  cores : Nat
  ncore : Nat
  speed : Nat
  part : Nat
  stepping : Nat
  mhz : Nat
  debug : Nat
  svn : Nat
  serial : Nat
  position : Nat
  board : Nat
  sbI3c : Bool
  deriving DecidableEq, Repr

/-- The part the model takes as fused: an N128-19 with straps zero (log entry 3). -/
def Fuses.part19 : Fuses :=
  { cores := 2 ^ 128 - 1, ncore := 128, speed := 0, part := 0x901, stepping := 0, mhz := 1900, debug := 2, svn := 0,
    serial := 0, position := 0, board := 0, sbI3c := false }

/-- The state of the block. `regs` holds every register field under `Fld.key`; `halves` is R15's; `rdata` is what the last
register read of each master returned (log entry 7); `evFlight` holds the EVSEND counts in flight (R81); `transit` is keyed by half * 65536 + granule;
`holding` is the holding area, oldest first (R225); `free` numbers the free
values (log entry 2); `pending` is the queue of waiting commands. -/
structure State where
  regs : Map Nat
  halves : Halves
  rdata : Map Nat
  fuse : Fuses
  cores : Map Core
  evFlight : List EvFlight
  hbm : Mem
  hbms : Map Stack
  clk : ClkUnit
  bel : BelUnit
  ldg : LdgUnit
  topo : TopoUnit
  ctl : CtlUnit
  hst : HstUnit
  links : Map LinkUnit
  transit : Map (Option TGran)
  holding : List Held
  opn : OpenUnit
  wgt : WgtUnit
  sec : SecUnit
  lif : LifUnit
  pwr : PwrUnit
  rst : RstUnit
  load : LoadUnit
  fwu : Option FwUpd
  free : Nat
  pending : List Instr
  deriving DecidableEq, Repr

/-- Why a step stops with a fault. No meaning of this model does: the spec gives every command an effect (safe). -/
inductive Fault
  /-- Raised by nothing; a fault type must have a value to be plain data (safe). -/
  | none_
  deriving DecidableEq, Repr

/-- Why a command is refused. -/
inductive Refusal
  /-- Raised by `exec` alone, for a command whose meaning is not written (safe: nothing is proved of it). -/
  | notModelled (mnemonic : String)
  deriving DecidableEq, Repr

/-- The key of instance i of field f in `State.regs`. -/
def Fld.key (f : Fld) (i : Nat) : Nat := f.code + 1024 * i

/-- The reset value of instance i of a field; PMC_SEL depends on i (12, PMC_SEL table). The instance of a per-core array is
8 n + e for element e of core n. -/
def Fld.resetAt (f : Fld) (i : Nat) : Nat :=
  if f.code = Fld.PMC_SEL_EVENT.code then (if i % 8 < 4 then 10 + i % 8 else 0)
  else if f.code = Fld.PMC_SEL_EN.code then (if i % 8 < 4 then 1 else 0)
  else f.rst

/-- The value of instance i of field f: no more than the bits it holds. -/
def State.f (s : State) (fl : Fld) (i : Nat := 0) : Nat := Map.get (fl.resetAt i) s.regs (fl.key i) % 2 ^ fl.w

/-- Write instance i of field f: the low bits that the field holds. -/
def State.setF (s : State) (fl : Fld) (i : Nat) (v : Nat) : State :=
  { s with regs := Map.set (fl.resetAt i) s.regs (fl.key i) (v % 2 ^ fl.w) }

/-- Core n. -/
def State.core (s : State) (n : Nat) : Core := Map.get Core.reset s.cores n

/-- Write core n. -/
def State.setCore (s : State) (n : Nat) (c : Core) : State := { s with cores := Map.set Core.reset s.cores n c }

/-- HBM stack k. -/
def State.stack (s : State) (k : Nat) : Stack := Map.get Stack.reset s.hbms k

/-- Write HBM stack k. -/
def State.setStack (s : State) (k : Nat) (x : Stack) : State := { s with hbms := Map.set Stack.reset s.hbms k x }

/-- Link n. -/
def State.link (s : State) (n : Nat) : LinkUnit := Map.get LinkUnit.reset s.links n

/-- Write link n. -/
def State.setLink (s : State) (n : Nat) (x : LinkUnit) : State := { s with links := Map.set LinkUnit.reset s.links n x }

/-- The machine right after power-on reset, before any command: every register field at its reset value, the memories unlisted,
every queue empty. -/
def State.reset : State :=
  { regs := [], halves := ⟨[], []⟩, rdata := [], fuse := Fuses.part19, cores := [], evFlight := [], hbm := [], hbms := [],
    clk := ClkUnit.reset, bel := BelUnit.reset, ldg := LdgUnit.reset, topo := TopoUnit.reset, ctl := CtlUnit.reset,
    hst := HstUnit.reset, links := [], transit := [], holding := [], opn := OpenUnit.reset, wgt := WgtUnit.reset,
    sec := SecUnit.reset, lif := LifUnit.reset, pwr := PwrUnit.reset, rst := RstUnit.reset, load := LoadUnit.reset, fwu := none,
    free := 0, pending := [] }

end Sys2Proof.Machine
end

