-- ==== Sys2Proof/Machine/Ops.lean ====
section
/-!
DEFINITION. The operations every unit shares: counters and free values, time, interrupts, memories by chip-local address,
TL128, the ledger, mailboxes and completions, events and tags of a core, core faults and the stopping of the step.
-/
namespace Sys2Proof.Machine

/-! ### Fields, counters, free values -/

/-- Write several fields of element 0. -/
def State.setFs (s : State) : List (Fld × Nat) → State
  | [] => s
  | (fl, v) :: r => (s.setF fl 0 v).setFs r

/-- Whether v lies in [lo, hi]. -/
def inRange (v lo hi : Nat) : Bool := decide (lo ≤ v ∧ v ≤ hi)

/-- The legal values of a field (R14), where its table leaves some out. -/
def legalRanges : List (Fld × Nat × Nat) :=
  [(.BEL_LEN_US, 2, 64), (.HBM_CTRL_MARGIN, 0, 2), (.LNK_CFG_WIDTH_MAX, 1, 3), (.LNK_GRACE_UNITS, 1, 1000),
   (.LNK_RPL_CFG_TMO_EXTRA, 50, 2000), (.LNK_RPL_CFG_LIMIT, 1, 15), (.LNK_ERR_CFG_WINDOW, 1, 65535), (.STL_CFG_REQ, 1, 32),
   (.STL_CFG_RPL, 1, 32), (.STL_CFG_CTL, 1, 16), (.STL_CFG_AWN, 4, 48), (.OPN_RBUF_REQ, 4, 128), (.OPN_RBUF_RPL, 4, 128),
   (.PRT_CFG_OPEN_TMO, 1, 65535), (.CHIP_STEWARD_MERGE, 1, 255), (.CRI_JOB_BASE_LOG2, 6, 16), (.LDG_RING_CFG_LOG2, 10, 24),
   (.LDG_RPL_CFG_LOG2, 10, 24), (.TAL_SHEET_CFG_LOG2, 10, 24), (.LDG_PAY_CFG_LOG2, 20, 40), (.PMC_SEL_EVENT, 1, 0x14),
   (.HST_CQ_CFG_LOG2, 4, 16), (.HST_CPL_CFG_LOG2, 4, 16), (.LIF_CTRL_INTERVAL, 1, 255)]

/-- Whether a value is a listed encoding of a field (R14); the window origin must be a multiple of the BAR2 size (R342). -/
def State.legal (s : State) (fl : Fld) (v : Nat) : Bool :=
  if fl == .HST_BAR2_OFF_OFF then v * 2 ^ 30 % 2 ^ s.hst.bar2 == 0
  else match legalRanges.find? (fun x => x.1 == fl) with
    | some (_, lo, hi) => inRange v lo hi
    | none => true

/-- Write a field that firmware or the loader sets from a table: a reserved encoding leaves it unchanged (R14). -/
def State.setLegal (s : State) (fl : Fld) (i v : Nat) : State := if s.legal fl (v % 2 ^ fl.w) then s.setF fl i v else s

/-- Add k to a counter, which saturates at its largest value (R16). -/
def State.bump (s : State) (fl : Fld) (i : Nat := 0) (k : Nat := 1) : State :=
  s.setF fl i (min (s.f fl i + k) (2 ^ fl.w - 1))

/-- Whether bit b of field f is set. -/
def State.fb (s : State) (fl : Fld) (i : Nat := 0) (b : Nat := 0) : Bool := bit (s.f fl i) b

/-- Set or clear bit b of a field. -/
def State.setFb (s : State) (fl : Fld) (i b : Nat) (v : Bool) : State := s.setF fl i (setBit (s.f fl i) b v)

/-- The next free value, and the state that has used it (log entry 2). -/
def State.fresh (s : State) : Nat × State := (Config.freeNat s.free, { s with free := s.free + 1 })

/-- Apply f to core n. -/
def State.modCore (s : State) (n : Nat) (f : Core → Core) : State := s.setCore n (f (s.core n))

/-- Apply f to link n. -/
def State.modLink (s : State) (n : Nat) (f : LinkUnit → LinkUnit) : State := s.setLink n (f (s.link n))

/-- The data the last read of master m returned (log entry 7). -/
def State.answer (s : State) (m : Master) (v : Nat) : State := { s with rdata := Map.set 0 s.rdata m.toNat v }

/-! ### Time -/

/-- The current bell number. -/
def State.now (s : State) : Nat := s.f .BEL_NOW_BELL

/-- d of R60: the signed distance of bell C from the current bell, from the low 32 bits. -/
def bellDist (s : State) (c : Nat) : Int := signed 32 (c + 2 ^ 32 - s.now % 2 ^ 32)

/-- The bell that a low-32-bit bell number names (R60). -/
def bellOf (s : State) (c : Nat) : Int := (s.now : Int) + bellDist s c

/-- The round length in force. -/
def State.roundLen (s : State) : Nat := s.f .BEL_ACTIVE_LEN_M1 + 1

/-- The round position of bell n (02, before R51). -/
def State.roundPos (s : State) (n : Nat) : Nat := (((n : Int) - (s.bel.origin : Int)) % (s.roundLen : Int)).toNat

/-- Whether bell n is a quiet bell: its bit in the quiet map in force. -/
def State.isQuiet (s : State) (n : Nat) : Bool :=
  bit (Map.get 0 s.bel.quiet (s.roundPos n / 64)) (s.roundPos n % 64)

/-- The first round boundary at or after bell n. -/
def State.boundaryFrom (s : State) (n : Nat) : Nat :=
  if s.roundPos n = 0 then n else n + (s.roundLen - s.roundPos n)

/-- An all-quiet map, staged and in force: firmware keeps it while no bundle is loaded (R375). -/
def State.quietAll (s : State) : State :=
  let t := upto 64 (fun i s => s.setF .BEL_QUIET_MAP i (2 ^ 64 - 1)) s
  { t with bel := { t.bel with quiet := (List.range 64).map (fun i => (i, 2 ^ 64 - 1)) } }

/-- The first quiet bell at or after bell n, within one round. -/
def State.quietFrom (s : State) (n : Nat) : Option Nat :=
  (firstBelow s.roundLen (fun i => s.isQuiet (n + i))).map (fun i => n + i)

/-- Fabric time in the layout of BEL_TS_DEP: low 32 bits of the bell in [63:32], the phase in [31:0] (R52). -/
def State.stamp (s : State) : Nat := (s.now % 2 ^ 32) * 2 ^ 32 + s.bel.phase / 2 ^ 16 % 2 ^ 32

/-- Wall time: seconds and nanoseconds. -/
def State.wall (s : State) : Nat × Nat := (s.f .BEL_WALL_S_S, s.f .BEL_WALL_NS_NS)

/-! ### Identity -/

/-- Core n is enabled (not fused off, R2). -/
def State.enabled (s : State) (n : Nat) : Bool :=
  if n < 64 then bit (s.f .CHIP_FUSE_LO_EN) n else n < 128 && bit (s.f .CHIP_FUSE_HI_EN) (n - 64)

/-- Core n is bound to the job. -/
def State.bound (s : State) (n : Nat) : Bool := s.f .CORE_BIND_BOUND n = 1

/-- The physical cores that are bound. -/
def State.boundCores (s : State) : List Nat := (List.range 128).filter s.bound

/-- The physical core with logical number l. -/
def State.physical (s : State) (l : Nat) : Option Nat :=
  firstBelow 128 (fun n => s.bound n && s.f .CORE_BIND_LOGICAL n == l)

/-- This chip's address (R266). -/
def State.chipAddr (s : State) : Nat :=
  s.f .CHIP_ADDR_GROUP * 32 + s.f .CHIP_ADDR_BOARD * 4 + s.f .CHIP_ADDR_POSITION

/-- This chip's in-group index (R266). -/
def State.index (s : State) : Nat := s.f .CHIP_ADDR_BOARD * 4 + s.f .CHIP_ADDR_POSITION

/-! ### Core states (CORE_STATUS.STATE) -/

abbrev stIdle := 0
abbrev stLoaded := 1
abbrev stRun := 2
abbrev stWait := 3
abbrev stDone := 4
abbrev stFault := 5
abbrev stFenced := 6
abbrev stHeld := 7

/-- The state of core n. -/
def State.cst (s : State) (n : Nat) : Nat := s.f .CORE_STATUS_STATE n

/-- Clock region r is stopped for a frequency change (R44). -/
def State.rgnStopped (s : State) (r : Nat) : Bool := s.f .CLK_RGN_STATUS_STOPPED r == 1

/-- Whether a job is running: a bound core in RUN or WAIT. -/
def State.jobRuns (s : State) : Bool := s.boundCores.any (fun n => s.cst n == stRun || s.cst n == stWait)

/-! ### Interrupts -/

/-- Raise an interrupt to control core i. -/
def State.irq (s : State) (i : Nat) (src : IrqSrc) : State :=
  if (⟨i, false, src⟩ : Irq) ∈ s.ctl.irqs then s
  else { s with ctl := { s.ctl with irqs := s.ctl.irqs ++ [⟨i, false, src⟩] } }

/-- Raise an interrupt "to CTL0": it goes to the master (R328). -/
def State.irqMaster (s : State) (src : IrqSrc) : State :=
  if (⟨s.f .CTL_MASTER_CORE, true, src⟩ : Irq) ∈ s.ctl.irqs then s
  else { s with ctl := { s.ctl with irqs := s.ctl.irqs ++ [⟨s.f .CTL_MASTER_CORE, true, src⟩] } }

/-- Raise it when the enable is set. -/
def State.irqMasterIf (s : State) (en : Bool) (src : IrqSrc) : State := if en then s.irqMaster src else s

/-! ### Memories -/

/-- The ranges of R157. -/
inductive Range
  | hbm (a : Nat)
  | store (core off : Nat)
  | hostWin (off : Nat)
  | sram (off : Nat)
  | rom (off : Nat)
  | regs (off : Nat)
  | none
  deriving DecidableEq, Repr

/-- Bytes of a core store. -/
abbrev storeBytes : Nat := 0x800000

/-- Bytes of one HBM stack. -/
abbrev stackBytes : Nat := 0xC00000000

/-- Bytes of HBM. -/
abbrev hbmBytes : Nat := 12 * stackBytes

/-- Which range of the chip-local map an address lies in (R157). -/
def rangeOf (a : Nat) : Range :=
  if a < hbmBytes then .hbm a
  else if 0xC0000000000 ≤ a ∧ a < 0xC0040000000 then .store ((a - 0xC0000000000) / storeBytes) ((a - 0xC0000000000) % storeBytes)
  else if 0xD0000000000 ≤ a ∧ a < 0xE0000000000 then .hostWin (a - 0xD0000000000)
  else if 0xE0000000000 ≤ a ∧ a < 0xE0001000000 then .sram (a - 0xE0000000000)
  else if 0xE0001000000 ≤ a ∧ a < 0xE0001020000 then .rom (a - 0xE0001000000)
  else if 0xF0000000000 ≤ a ∧ a < 0xF0100000000 then .regs (a - 0xF0000000000)
  else .none

/-- Write bytes into a core store: the code words written hold no error any more (R168). -/
def Core.put (c : Core) (a : Nat) (bs : List Byte) : Core :=
  let keep := fun (m : Map Bool) => if bs.isEmpty then m else Map.keep (fun w => decide (w < a / 8 ∨ (a + bs.length - 1) / 8 < w)) m
  { c with store := c.store.wrBytes a bs, eccBad := keep c.eccBad, eccOne := keep c.eccOne }

/-- A core whose store is empty. -/
def Core.clearStore (c : Core) : Core := { c with store := [], eccBad := [], eccOne := [] }

/-- The stack that holds a chip-local HBM address (R170). -/
def stackOf (a : Nat) : Nat := a / stackBytes

/-- Symbols in error in the code word that holds address a (R175). -/
def State.badSyms (s : State) (a : Nat) : Nat := Map.get 0 (s.stack (stackOf a)).bad (a % stackBytes / 64)

/-- The code words of stack k that lie in [a, a + n) are without error. -/
def State.cleanWords (s : State) (a n k : Nat) : State :=
  s.setStack k { s.stack k with bad := Map.keep (fun w => !decide (a ≤ k * stackBytes + 64 * w ∧ k * stackBytes + 64 * w + 64 ≤ a + n)) (s.stack k).bad }

/-- A write of HBM: the code words it covers wholly are without error afterwards (R175). -/
def State.hbmWrite (s : State) (a : Nat) (bs : List Byte) : State :=
  let t := { s with hbm := s.hbm.wrBytes a bs }
  upto ((a + bs.length - 1) / stackBytes - stackOf a + 1) (fun i s => s.cleanWords a bs.length (stackOf a + i)) t

/-- A byte read by chip-local address: HBM, core stores (those of fused-off cores read zero, R22), control SRAM, boot ROM;
zero elsewhere (R157). Register space is reached by register accesses, host memory by PCIe. -/
def State.rdByte (s : State) (a : Nat) : Byte :=
  match rangeOf a with
  | .hbm x => s.hbm.rd x
  | .store c o => if s.enabled c then (s.core c).store.rd o else 0
  | .sram o => s.ctl.sram.rd o
  | .rom o => Config.bootRom o
  | _ => 0

/-- A byte write by chip-local address (R157). -/
def State.wrByte (s : State) (a : Nat) (b : Byte) : State :=
  match rangeOf a with
  | .hbm x => { s with hbm := s.hbm.wr x b }
  | .store c o => if s.enabled c then s.modCore c (fun k => k.put o [b]) else s
  | .sram o => { s with ctl := { s.ctl with sram := s.ctl.sram.wr o b } }
  | _ => s

/-- A byte as a read delivers it: zero in an HBM code word that cannot be corrected (R175). -/
def State.eccByte (s : State) (a : Nat) : Byte := if a < hbmBytes ∧ 1 < s.badSyms a then 0 else s.rdByte a

/-- n bytes by chip-local address, as a read delivers them. -/
def State.rdBytes (s : State) (a n : Nat) : List Byte := (List.range n).map (fun i => s.eccByte (a + i))

/-- Write bytes by chip-local address, one by one. -/
def State.wrEach (s : State) (a : Nat) : List Byte → State
  | [] => s
  | b :: bs => (s.wrByte a b).wrEach (a + 1) bs

/-- Write bytes by chip-local address. -/
def State.wrBytes (s : State) (a : Nat) (bs : List Byte) : State := if a + bs.length ≤ hbmBytes then s.hbmWrite a bs else s.wrEach a bs

/-- n bytes of host memory or of chip-local memory. -/
def State.rdFar (s : State) (host : Bool) (a n : Nat) : List Byte :=
  if host then s.hst.hostMem.rdBytes a n else s.rdBytes a n

/-- Write bytes to host memory or to chip-local memory. Bus mastering off, nothing reaches host memory (R350). -/
def State.wrFar (s : State) (host : Bool) (a : Nat) (bs : List Byte) : State :=
  if host then
    (if s.hst.busMaster then { s with hst := { s.hst with hostMem := s.hst.hostMem.wrBytes a bs } } else s)
  else s.wrBytes a bs

/-! ### TL128 (R292) -/

/-- The polynomial of R292 without its top term: x^7 + x^2 + x + 1. -/
def tlPoly : Nat := 0x87

/-- The constant H of R292. -/
def tlH : Nat := 0x5A3C96E10F2DB487

/-- Multiply by x modulo the polynomial of R292. -/
def gdouble (a : Nat) : Nat :=
  if a < 2 ^ 127 then 2 * a else Nat.xor (2 * a % 2 ^ 128) tlPoly

/-- The product of a and b over GF(2^128), from bit n - 1 of b down. -/
def gmulBits (a b : Nat) : Nat → Nat
  | 0 => 0
  | n + 1 => Nat.xor (gdouble (gmulBits a (b / 2) n)) (if b % 2 = 1 then a else 0)

/-- gmul of R292. -/
def gmul (a b : Nat) : Nat := gmulBits a b 128

/-- The digest of a list of 128-bit words (R292). -/
def tlFold (ws : List Nat) : Nat := ws.foldl (fun d w => gmul (Nat.xor d w) tlH) 0

/-- tl128(w, n) of R292. -/
def tl128 (ws : List Nat) : Nat := gmul (Nat.xor (tlFold ws) ws.length) tlH

/-- The 128-bit words of a byte string, the last one filled with zero bytes (log entry 21). -/
def words16 (bs : List Byte) : List Nat := (List.range (ceilDiv bs.length 16)).map (fun i => leAt bs (16 * i) 16)

/-- The digest of a byte string. -/
def tlBytes (bs : List Byte) : Nat := tl128 (words16 bs)

/-! ### Core events, tags, performance counters -/

/-- Count event e of the performance counters of core n, k times (R324). -/
def State.pmc (s : State) (n e : Nat) (k : Nat := 1) : State :=
  upto 8 (fun i s =>
    if s.f .PMC_SEL_EVENT (8 * n + i) = e ∧ s.f .PMC_SEL_EN (8 * n + i) = 1 then
      let t := s.bump .PMC_CNT_COUNT (8 * n + i) k
      if 2 ^ 48 - 1 < s.f .PMC_CNT_COUNT (8 * n + i) + k then t.setFb .PMC_STATUS_SAT n i true else t
    else s) s

/-- Deliver k counts to event input e of core n: the counter saturates at 0xFFFF and then sets EVT_SAT (R65). -/
def State.deliver (s : State) (n e : Nat) (k : Nat := 1) : State :=
  let t := (s.bump .CORE_EVT_COUNT (16 * n + e) k).pmc n 0x11 k
  if 0xFFFF < s.f .CORE_EVT_COUNT (16 * n + e) + k then t.setFb .CORE_STATUS_EVT_SAT n e true else t

/-- Deliver one count to an event input that may be absent. -/
def State.deliver? (s : State) (n : Nat) (e : Option Nat) : State :=
  match e with
  | some e => s.deliver n e
  | none => s

/-- The tag bits of granule g of core c: bit 0 present, bit 1 nil (R167). -/
def Core.tag (c : Core) (g : Nat) : Nat := Map.get 0 c.tags g

/-- Write the tag bits of granule g. -/
def Core.setTag (c : Core) (g : Nat) (present nil : Bool) : Core :=
  { c with tags := Map.set 0 c.tags g (b2n present + 2 * b2n nil) }

/-- Clear the tags of n granules from granule g (R84). -/
def Core.clearTags (c : Core) (g n : Nat) : Core := upto n (fun i c => c.setTag (g + i) false false) c

/-- A store by the core itself: it clears the nil bit of each granule written (R123). -/
def Core.wrStore (c : Core) (a : Nat) (bs : List Byte) : Core :=
  let c' := c.put a bs
  if bs.isEmpty then c'
  else upto ((a + bs.length - 1) / 512 - a / 512 + 1)
    (fun i c => c.setTag (a / 512 + i) (bit (c.tag (a / 512 + i)) 0) false) c'

/-! ### The ledger (R306-R317) -/

/-- The modes of LDG_CTRL.MODE (R313). -/
abbrev ldgOff := 0
abbrev ldgRecord := 1
abbrev ldgFeed := 2
abbrev ldgVerify := 3

/-- The 64 bytes of an entry (R307). -/
def LdgEntry.bytes (e : LdgEntry) (bell wallS wallNs payOff : Nat) (stored : Bool) (seq : Nat) : List Byte :=
  leBytes 8 bell ++ leBytes 6 wallS ++ leBytes 4 wallNs ++ [BitVec.ofNat 8 (e.kind + 128 * b2n e.fed), BitVec.ofNat 8 e.src]
    ++ leBytes 4 e.len ++ leBytes 16 e.digest ++ leBytes 6 e.target ++ leBytes 2 0 ++ leBytes 5 payOff
    ++ [BitVec.ofNat 8 (b2n stored)] ++ leBytes 2 0 ++ leBytes 4 e.detail ++ leBytes 4 seq

/-- Entries of the ledger ring. -/
def State.ldgSize (s : State) : Nat := 2 ^ s.f .LDG_RING_CFG_LOG2

/-- Entries in the ring that the host has not consumed. -/
def State.ldgUsed (s : State) : Nat :=
  if s.ldg.ringFull then s.ldgSize
  else (s.f .LDG_RING_HEAD_HEAD + s.ldgSize - s.f .LDG_RING_TAIL_TAIL % s.ldgSize) % s.ldgSize

/-- Recompute NEAR_FULL: fewer than one eighth of the entries free; its setting interrupts (R310). -/
def State.ldgNear (s : State) : State :=
  let near := decide ((s.ldgSize - s.ldgUsed) * 8 < s.ldgSize)
  let t := s.setF .LDG_STATUS_NEAR_FULL 0 (b2n near)
  t.irqMasterIf (near && s.f .LDG_STATUS_NEAR_FULL == 0 && s.f .LDG_CTRL_IRQ_EN == 1) .ledger

/-- Copy bytes into the payload ring, wrapping at its end; the state after it and whether they were stored (R310). -/
def State.ldgPayload (s : State) (bs : List Byte) : State × Bool :=
  let size := 2 ^ s.f .LDG_PAY_CFG_LOG2
  let host := s.f .LDG_PAY_CFG_HOST == 1
  let base := s.f .LDG_PAY_BASE_BASE * 65536
  let off := s.f .LDG_PAY_HEAD_OFF
  if bs.isEmpty then (s, false)
  else if size < s.ldg.payUsed + bs.length then ((s.bump .LDG_CNT_PAYLOST_COUNT).setF .LDG_STATUS_PAY_LOST 0 1, false)
  else
    let room := size - off % size
    let t := (s.wrFar host (base + off % size) (bs.take room)).wrFar host base (bs.drop room)
    (({ t with ldg := { t.ldg with payUsed := t.ldg.payUsed + bs.length } } : State).setF .LDG_PAY_HEAD_OFF 0
      ((off + bs.length) % size), true)

/-- Write an entry with the given wall time into the ring, or count it lost (R307, R310). -/
def State.ldgPut (s : State) (e : LdgEntry) (wall : Nat × Nat) (payload : List Byte) : State :=
  let seq := s.f .LDG_SEQ_SEQ
  let s1 := s.setF .LDG_SEQ_SEQ 0 (seq + 1)
  if s.ldg.ringFull then
    ({ s1 with ldg := { s1.ldg with lost := true } } : State).bump .LDG_CNT_LOST_COUNT |>.setF .LDG_STATUS_LOST 0 1
  else
    let off := s1.f .LDG_PAY_HEAD_OFF
    let p := if bit (s1.f .LDG_CTRL_PAY_MASK) e.kind then s1.ldgPayload payload else (s1, false)
    let s2 := p.1
    let head := s2.f .LDG_RING_HEAD_HEAD
    let a := s2.f .LDG_RING_BASE_BASE * 65536 + 64 * head
    let s3 := s2.wrFar (s2.f .LDG_RING_CFG_HOST == 1) a
      (e.bytes s2.now wall.1 wall.2 (if p.2 then off else 0) p.2 seq)
    let head' := (head + 1) % s3.ldgSize
    let s4 := (s3.setF .LDG_RING_HEAD_HEAD 0 head').bump .LDG_CNT_ENTRIES_COUNT
    let full := decide (head' = s4.f .LDG_RING_TAIL_TAIL % s4.ldgSize)
    ({ s4 with ldg := { s4.ldg with ringFull := full } } : State).ldgNear

/-- Append an entry with the given wall time (R309). With MODE OFF nothing is recorded (R313); while the inputs of one cycle are gathered, the entry
waits for its place among them. -/
def State.ldgAppendAt (s : State) (e : LdgEntry) (wall : Nat × Nat) (payload : List Byte) : State :=
  if s.f .LDG_CTRL_MODE = ldgOff then s
  else
    match s.ldg.cycle with
    | some es => { s with ldg := { s.ldg with cycle := some (es ++ [(e, wall, payload)]) } }
    | none => s.ldgPut e wall payload

/-- Whether an entry stands before another of the same cycle: by ascending kind, then source (R309). -/
def ldgBefore (a b : LdgEntry × (Nat × Nat) × List Byte) : Bool := decide (a.1.kind < b.1.kind ∨ (a.1.kind = b.1.kind ∧ a.1.src ≤ b.1.src))

/-- Do f within one cycle: the entries that it records reach the ring in the order of R309. -/
def State.ldgTogether (s : State) (f : State → State) : State :=
  match s.ldg.cycle with
  | some _ => f s
  | none =>
    let t := f { s with ldg := { s.ldg with cycle := some [] } }
    ((t.ldg.cycle.getD []).insertionSort (fun a b => ldgBefore a b = true)).foldl (fun s x => s.ldgPut x.1 x.2.1 x.2.2) { t with ldg := { t.ldg with cycle := none } }

/-- Append an entry at the current wall time. -/
def State.ldgAppend (s : State) (e : LdgEntry) (payload : List Byte := []) : State := s.ldgAppendAt e s.wall payload

/-- A FAULT entry: cause in [3:0], what it names in [11:4] (R307). -/
def State.ldgFault (s : State) (src cause what : Nat) : State :=
  s.ldgAppend { kind := 0x07, src := src, detail := cause + 16 * (what % 256) }

/-- The bytes of replay entry i. -/
def State.rplBytes (s : State) (i : Nat) : List Byte :=
  s.rdFar (s.f .LDG_RPL_CFG_HOST == 1) (s.f .LDG_RPL_BASE_BASE * 65536 + 64 * i) 64

/-- The kinds R306 marks Never. -/
def neverKind (k : Nat) : Bool := k == 0x07 || k == 0x0A || k == 0x0C

/-- The first index from i on, below the entries present, whose kind satisfies p. -/
def State.rplFind (s : State) (p : Nat → Bool) (i : Nat) : Nat :=
  let n := s.f .LDG_RPL_CFG_COUNT
  ((List.range (n - i)).find? (fun j => p ((byteAt (s.rplBytes (i + j)) 18).toNat % 128))).elim n (fun j => i + j)

/-- The cursor at the next entry the main cursor handles: no Never kind, no MAILBOX (R314, R315). -/
def State.rplCursor (s : State) : Nat := s.rplFind (fun k => !neverKind k && k != 0x03) (s.f .LDG_RPL_CUR_CUR)

/-- The replay cursors return to the first entry (R313). -/
def State.rplRewind (s : State) : State := ({ s with ldg := { s.ldg with mbxCur := 0 } } : State).setF .LDG_RPL_CUR_CUR 0 0

/-- Leave replay for RECORD (R317); the mode change records a MODE entry and sets the cursor to 0 (R306, R313). -/
def State.rplEnd (s : State) (flag : Fld) : State :=
  ((((s.setF .LDG_CTRL_MODE 0 ldgRecord).setF flag 0 1).irqMasterIf (s.f .LDG_CTRL_IRQ_EN == 1) .ledger).rplRewind).ldgAppend
    { kind := 0x0C, src := 0, detail := ldgRecord }

/-- Whether replay entry i is the last one to replay (R317). -/
def State.rplStops (s : State) (i : Nat) : Bool := leAt (s.rplBytes i) 60 4 == s.f .LDG_RPL_STOP_SEQ

/-- The main cursor has come to its place: the replay ends when it has skipped the last entry, or has come to the end of the replay ledger (R314,
R317). -/
def State.rplSettle (s : State) : State :=
  let i := s.f .LDG_RPL_CUR_CUR
  let j := s.rplCursor
  if (List.range (j - i)).any (fun k => neverKind ((byteAt (s.rplBytes (i + k)) 18).toNat % 128) && s.rplStops (i + k)) then s.rplEnd .LDG_STATUS_RPL_DONE
  else if s.f .LDG_RPL_CFG_COUNT ≤ j then s.rplEnd .LDG_STATUS_RPL_END
  else s

/-- The cursor moves past entry i, which was handled (R317). -/
def State.rplAdvance (s : State) (i : Nat) : State :=
  let t := s.setF .LDG_RPL_CUR_CUR 0 (i + 1)
  if s.rplStops i then t.rplEnd .LDG_STATUS_RPL_DONE else t.rplSettle

/-- Record a mismatch against a replay entry of this kind and sequence number (R316). -/
def State.mismatch (s : State) (reason kind seq : Nat) : State :=
  let t := (s.bump .LDG_CNT_MISMATCH_COUNT).setF .LDG_STATUS_MISMATCH 0 1
  if s.f .LDG_MISMATCH_VALID = 1 then t.setF .LDG_MISMATCH_OVERRUN 0 1
  else
    (t.setFs [(.LDG_MISMATCH_VALID, 1), (.LDG_MISMATCH_REASON, reason), (.LDG_MISMATCH_KIND, kind),
      (.LDG_MISMATCH_SEQ, seq), (.LDG_MISMATCH_BELL_BELL, s.now)]).irqMasterIf (s.f .LDG_CTRL_IRQ_EN == 1) .ledger

/-- The reason a live input differs from a replay entry of its kind, 0 when it agrees (R314, R316). -/
def compareEntry (e : LdgEntry) (b : List Byte) : Nat :=
  if e.kind = 0x03 then
    (if leAt b 19 1 ≠ e.src then 0x7 else if leAt b 56 4 % 64 ≠ e.detail % 64 then 0x2 else 0)
  else if e.kind = 0x01 ∨ e.kind = 0x02 then
    (if leAt b 40 6 ≠ e.target then 0x5 else if leAt b 20 4 ≠ e.len then 0x3 else if leAt b 24 16 ≠ e.digest then 0x4 else 0)
  else if e.kind = 0x09 then
    (if leAt b 56 4 ≠ e.detail then 0x2 else if leAt b 40 6 ≠ e.target then 0x5 else if leAt b 24 16 ≠ e.digest then 0x4 else 0)
  else if e.kind = 0x04 then 0
  else if leAt b 56 4 ≠ e.detail then 0x2 else 0

/-- Compare a live input with the replay ledger in FEED or VERIFY (R314-R316). -/
def State.ldgCompare (s : State) (e : LdgEntry) : State :=
  if s.f .LDG_CTRL_MODE < ldgFeed ∨ neverKind e.kind then s
  else if e.kind = 0x03 then
    let i := s.rplFind (fun k => k == 0x03) s.ldg.mbxCur
    if i ≥ s.f .LDG_RPL_CFG_COUNT then s.mismatch 0x6 e.kind 0
    else
      let b := s.rplBytes i
      let r := compareEntry e b
      let t := if r = 0 then s else s.mismatch r 0x03 (leAt b 60 4)
      let u := { t with ldg := { t.ldg with mbxCur := i + 1 } }
      if s.rplStops i then u.rplEnd .LDG_STATUS_RPL_DONE else u
  else
    let i := s.rplCursor
    if i ≥ s.f .LDG_RPL_CFG_COUNT then s.mismatch 0x6 e.kind 0
    else
      let b := s.rplBytes i
      let k := (byteAt b 18).toNat % 128
      let r := if k = e.kind then compareEntry e b else 0x1
      (if r = 0 then s else s.mismatch r k (leAt b 60 4)).rplAdvance i

/-- A live input: compared in replay, and recorded (R313, R314, R316). -/
def State.ldgInput (s : State) (e : LdgEntry) (payload : List Byte := []) : State :=
  s.ldgTogether (fun s => (s.ldgCompare e).ldgAppend e payload)

/-- A commit is armed by master m (R306). -/
def State.armedBy (s : State) (key m : Nat) : State := { s with ctl := { s.ctl with armers := Map.set 0 s.ctl.armers key m } }

/-- A commit is armed by firmware on the master control core (log entry 15). -/
def State.armedHere (s : State) (key : Nat) : State := s.armedBy key (0x10 + s.f .CTL_MASTER_CORE)

/-- The COMMIT entry of a commit that has taken effect: its source is the control core that armed it (R306). -/
def State.commitEntry (s : State) (key plan : Nat) : State := s.ldgInput { kind := 0x08, src := Map.get 0 s.ctl.armers key, detail := plan }

/-- The retained area of control SRAM (R348). -/
abbrev retained (a : Nat) : Bool := decide (0xF00000 ≤ a)

/-- Whether the last reset was a power-on reset. -/
def State.afterP (s : State) : Bool := decide (s.f .RST_CAUSE_CAUSE ≤ 1)

/-! ### Mastership -/

/-- Make control core i the master: interrupts pending at the master move with it (R328). -/
def State.setMaster (s : State) (i : Nat) : State :=
  let t := s.setF .CTL_MASTER_CORE 0 i
  { t with ctl := { t.ctl with handover := none, irqs := t.ctl.irqs.map (fun q => if q.viaMaster then { q with ctl := i } else q) } }

/-- The codes of the immediate commands (13, command table). -/
def immediateCodes : List Nat := [0x01, 0x02, 0x13, 0x14, 0x15, 0x20, 0x31, 0x41, 0x51, 0x52]

/-- Whether the master is running an immediate command: it has taken one and not completed it. -/
def State.runsImmediate (s : State) : Bool := s.hst.taken.any (fun t => immediateCodes.contains t.code)

/-- The master hands over to control core i, once it has completed the immediate command it is running (R328). -/
def State.handOver (s : State) (i : Nat) : State :=
  if s.runsImmediate then { s with ctl := { s.ctl with handover := some i } } else s.setMaster i

/-- A hand-over that waited takes place when the immediate command has completed (R328). -/
def State.handOverDue (s : State) : State :=
  match s.ctl.handover with
  | some i => s.handOver i
  | none => s

/-- Whether a master of this identity reaches registers: the host, the control cores and the security module (R341, R352; log entry 61). -/
def reachesRegs (m : Nat) : Bool := m == 0 || (0x10 ≤ m && m ≤ 0x17) || m == 0x20

/-! ### MSI-X, mailboxes, completions -/

/-- Signal MSI-X vector v: the message the table gives, or its pending bit while it is masked or bus mastering is off
(13; PCI Express layout, log entry 13). -/
def State.msix (s : State) (v : Nat) : State :=
  if s.f .HST_MSIX_CTRL_MASK v = 1 ∨ s.hst.busMaster = false then s.setFb .HST_MSIX_PBA_PEND 0 v true
  else s.wrFar true (s.f .HST_MSIX_ADDR_ADDR v) (leBytes 4 (s.f .HST_MSIX_DATA_DATA v))

/-- The wake event of an accepted notice (R335). -/
def State.wake (s : State) (ch recv : Nat) : State :=
  if recv = 0x00 then s.msix (1 + ch % 63)
  else if 0x10 ≤ recv ∧ recv ≤ 0x17 then
    ((s.irq (recv - 0x10) (.mailbox ch)).setF .CTL_PWR_GATE (recv - 0x10) 0).setFb .CTL_STATUS_GATED 0 (recv - 0x10) false
  else if recv = 0x20 then (if ch ∈ s.sec.doorbell then s else { s with sec := { s.sec with doorbell := s.sec.doorbell ++ [ch] } })
  else s

/-- Whether master m is a permitted sender of channel c (R331). -/
def State.mbxSender (s : State) (m c : Nat) : Bool :=
  Nat.land (Nat.xor m (s.f .MBX_BIND_SEND c)) (255 - s.f .MBX_BIND_SMASK c) == 0

/-- A write of MBX_DATA[c] by master m (R332-R335). -/
def State.mbxWrite (s : State) (m c v : Nat) : State :=
  let locked := s.f .MBX_STAT_LOCKED c = 1
  if s.mbxSender m c = false ∨ s.f .MBX_BIND_EN c = 0 ∨ v = 0 ∨ (locked ∧ s.f .MBX_STAT_OWNER c ≠ m) then
    s.setF .MBX_STAT_DENIED c 1
  else
    let coll := s.f .MBX_STAT_FULL c = 1
    let s1 := if coll then (s.setF .MBX_STAT_COLLISION c 1).bump .MBX_CNT_COLL_COUNT else s
    let s2 := ((((s1.setF .MBX_DATA_NOTICE c v).setF .MBX_STAT_FULL c 1).setF .MBX_STAT_TAKEN c 0).setF
      .MBX_STAT_ABORTED c 0).bump .MBX_CNT_NOTICE_COUNT
    let s3 := if locked then (s2.setF .MBX_STAT_LOCKED c 0).setF .MBX_STAT_OWNER c 0 else s2
    (s3.ldgInput { kind := 0x03, src := m, len := 8, digest := tl128 [v], detail := c } (leBytes 8 v)).wake c
      (s.f .MBX_BIND_RECV c)

/-- A receiver reset of channel c (R336). -/
def State.mbxRecvReset (s : State) (c : Nat) : State :=
  ((((s.setF .MBX_DATA_NOTICE c 0).setF .MBX_STAT_FULL c 0).setF .MBX_STAT_TAKEN c 0).setF .MBX_STAT_ABORTED c 1).bump
    .MBX_CNT_ABORT_COUNT

/-- Release every mailbox lock that master m holds (R333). -/
def State.mbxReleaseAll (s : State) (m : Nat) : State :=
  upto 64 (fun c s =>
    if s.f .MBX_STAT_LOCKED c = 1 ∧ s.f .MBX_STAT_OWNER c = m then (s.setF .MBX_STAT_LOCKED c 0).setF .MBX_STAT_OWNER c 0
    else s) s

/-- The 16 bytes of a completion (R345). -/
def Completion.bytes (c : Completion) (phase : Bool) : List Byte :=
  leBytes 4 c.cmdId ++ leBytes 2 c.idx ++ leBytes 1 c.step ++ leBytes 1 (b2n phase) ++ leBytes 1 c.status ++ leBytes 3 0
    ++ leBytes 4 c.detail

/-- Write one completion into the ring, which has room (R345). -/
def State.cplWrite (s : State) (c : Completion) : State :=
  let size := 2 ^ s.f .HST_CPL_CFG_LOG2
  let tail := s.f .HST_CPL_TAIL_TAIL
  let s1 := s.wrFar true (s.f .HST_CPL_BASE_BASE * 4096 + 16 * tail) (c.bytes s.hst.phase)
  let tail' := (tail + 1) % size
  let s2 := s1.setF .HST_CPL_TAIL_TAIL 0 tail'
  let s3 := { s2 with hst := { s2.hst with
    phase := if tail' = 0 then !s2.hst.phase else s2.hst.phase
    cplFull := decide (tail' = s2.f .HST_CPL_HEAD_HEAD % size) } }
  if c.irq then s3.msix 0 else s3

/-- Deliver a completion, or hold it while the ring is full (R345). -/
def State.cplDeliver (s : State) (c : Completion) : State :=
  if s.hst.cplFull ∨ s.hst.held ≠ [] then
    ({ s with hst := { s.hst with held := s.hst.held ++ [c] } } : State).setF .HST_STATUS_CPL_STALL 0 1
  else
    let t := s.cplWrite c
    if t.hst.cplFull then t.setF .HST_STATUS_CPL_STALL 0 1 else t

/-- Write held completions while the ring has room; the fuel is their number. -/
def State.cplDrain (s : State) : Nat → State
  | 0 => s
  | n + 1 =>
    match s.hst.held with
    | [] => s
    | c :: r => if s.hst.cplFull then s else (({ s with hst := { s.hst with held := r } } : State).cplWrite c).cplDrain n

/-- The completion of a taken entry. -/
def Taken.completion (t : Taken) (status detail : Nat) : Completion := ⟨t.idx, t.cmdId, t.step, t.irq, status, detail⟩

/-- STATUS values of R349. -/
abbrev cOk := 0x00
abbrev cAborted := 0x01
abbrev cRefused := 0x02
abbrev cBadEntry := 0x03
abbrev cSequence := 0x04
abbrev cBusy := 0x05
abbrev cHostRead := 0x06
abbrev cAgree := 0x07

/-- Whether a command of this code is outstanding. -/
def State.outstanding (s : State) (code : Nat) : Bool := s.hst.taken.any (fun t => t.code == code)

/-- Complete the oldest outstanding command of this code, if there is one (R345). -/
def State.complete (s : State) (code status : Nat) (detail : Nat := 0) : State :=
  match s.hst.taken.find? (fun t => t.code == code) with
  | none => s
  | some t => ({ s with hst := { s.hst with taken := s.hst.taken.erase t } } : State).cplDeliver (t.completion status detail)

/-- Complete a command with OK. -/
def State.ok (s : State) (code : Nat) : State := s.complete code cOk

/-- Complete a command REFUSED with a reason and the refusing block's STATUS code (R349). -/
def State.refuse (s : State) (code reason : Nat) (sub : Nat := 0) : State := s.complete code cRefused (reason + 256 * sub)

/-- Mark the oldest outstanding command of this code as started, and armed at an agreed bell when b is set (R346, R350). -/
def State.markStarted (s : State) (code : Nat) (b : Bool) : State :=
  match s.hst.taken.find? (fun t => t.code == code) with
  | none => s
  | some t => { s with hst := { s.hst with taken := s.hst.taken.map (fun u => if u = t then { t with started := true, armed := b } else u) } }

/-! ### Notices, the step counter, faults -/

/-- Raise a fault notice, which NOTICE_SEND delivers (R281-R283). -/
def State.raiseNotice (s : State) (cls suspect detail : Nat) : State :=
  { s with topo := { s.topo with toSend := s.topo.toSend ++ [⟨suspect, cls, s.now, detail⟩] } }

/-- The least STEP of the bound cores. -/
def State.minStep (s : State) : Option Nat := (s.boundCores.map (fun n => s.f .CORE_STEP_STEP n)).min?

/-- The chip step counter advances to S: the STEP entry, and the taking of STEP_OVF and NINV (R86, R124, R312). -/
def State.stepTo (s : State) (k : Nat) : State :=
  let ovf := min ((s.boundCores.map (fun n => s.f .CORE_PACK_OVF_STEP_OVF n)).sum) 0xFFFFFF
  let ninv := s.boundCores.any (fun n => s.f .MXE_STATUS_NINV n == 1)
  let s1 := s.setF .LDG_STEP_STEP 0 k
  let d := ovf + 2 ^ 24 * b2n ninv + 2 ^ 25 * b2n s.ldg.lost + 2 ^ 26 * b2n s.ldg.tlost
  let s2 := { s1 with ldg := { s1.ldg with lost := false, tlost := false } }
  let s3 := s2.ldgAppend { kind := 0x0A, src := 0, digest := k % 2 ^ 64, detail := d }
  s.boundCores.foldl (fun s n => (s.setF .CORE_PACK_OVF_STEP_OVF n 0).setF .MXE_STATUS_NINV n 0) s3

/-- Advance the chip step counter once every bound core has reached the next step (R86). -/
def State.stepCheck (s : State) : State :=
  match s.minStep with
  | some k => if s.f .LDG_STEP_STEP < k then s.stepTo k else s
  | none => s

/-- Record a fault of core n and put it into state st: the existing record stands when VALID is set (R98, R101), whatever the core's state
(DEDUCED, log entry 69: R102 speaks of a core in FAULT); firmware reports the fault to the host with both numbers of the core (R98). -/
def State.recordFault (s : State) (n code slot detail addr st : Nat) : State :=
  let s1 :=
    if s.f .CORE_FAULT_VALID n = 1 then s.setF .CORE_FAULT_OVERRUN n 1
    else
      ((((((s.setF .CORE_FAULT_VALID n 1).setF .CORE_FAULT_CODE n code).setF .CORE_FAULT_SLOT n slot).setF
        .CORE_FAULT_DETAIL n detail).setF .CORE_FAULT_PC_PC n (s.f .CORE_PC_PC n)).setF .CORE_FAULT_ADDR_ADDR n addr).setF
        .CORE_FAULT_BELL_BELL n (s.core n).bell
  let s2 := (s1.setF .CORE_STATUS_STATE n st).setF .CORE_STATUS_WAIT_KIND n 0
  let s3 := s2.modCore n Core.endWait
  let s4 := { s3 with hst := { s3.hst with reports := s3.hst.reports ++ [(⟨n, s.f .CORE_BIND_LOGICAL n, code⟩ : CoreReport)] } }
  s4.irqMasterIf (s.f .CORE_CTRL_FAULT_IRQ_EN n == 1) (.coreFault n)

/-- Record a lifetime calendar event (R370): at most 64 in an interval. -/
def State.lifEvent (s : State) (kind detail : Nat) : State :=
  if s.lif.events.length < 64 then
    { s with lif := { s.lif with events := s.lif.events ++ [⟨kind, s.wall.1, s.wall.2, s.now, detail⟩] } }
  else ({ s with lif := { s.lif with evLost := s.lif.evLost + 1 } } : State).bump .LIF_CNT_EVLOST_COUNT

/-- Stop the chip's step by a chip-level cause (R100): the first cause is kept, and every bound core in RUN or WAIT stops with
STEP_HALT; firmware raises a SELF notice where the step was not stopped already (R281). -/
def State.stopStep (s : State) (cause : Nat) (core : Nat := 0) : State :=
  let s1 := if s.f .CHIP_HALT_STOPPED = 1 then s
    else (s.setF .CHIP_HALT_STOPPED 0 1).setF .CHIP_HALT_CAUSE 0 cause
  let first := s1.f .CHIP_HALT_CAUSE
  let s2 := s.boundCores.foldl (fun s n =>
    if s.cst n = stRun ∨ s.cst n = stWait then s.recordFault n 0x0E 3 first 0 stFault else s) s1
  if s.f .CHIP_HALT_STOPPED = 1 then s2
  else s2.raiseNotice 0x6 s.chipAddr (cause + (if cause = 6 ∨ cause = 7 then 16 * core else 0))

/-- A core fault (R98): the record, the ledger's FAULT entry, and the stop of the step when the core is bound. -/
def State.coreFault (s : State) (n code slot detail addr : Nat) : State :=
  let s1 := (s.recordFault n code slot detail addr stFault).ldgFault (0x80 + n) 0x9 n
  if s.bound n then s1.stopStep 0x6 n else s1

/-- Set the fence of core n (R102). Where FENCE is set already, no fence is set anew. -/
def State.fence (s : State) (n : Nat) : State :=
  let s1 := s.setF .CORE_CTRL_FENCE n 1
  if s.bound n = false then s1.setF .CORE_STATUS_STATE n stFenced
  else if s.f .CORE_CTRL_FENCE n = 1 then s1
  else ((s1.recordFault n 0x10 3 0 0 stFenced).ldgFault (0x80 + n) 0x9 n).stopStep 0x7 n

/-- A core leaves its clock region stopped and enters DONE (R79): CTL0 is told. -/
def State.coreDone (s : State) (n : Nat) : State :=
  ((s.setF .CORE_STATUS_STATE n stDone).setF .CORE_STATUS_WAIT_KIND n 0).irqMaster (.coreDone n)

end Sys2Proof.Machine
end

