-- ==== Sys2Proof/Machine/L2.lean ====
section
/-!
DEFINITION. The L2 of the control complex (R329): the order in which it serves the requests for a line. Control SRAM shows what the coherent caches show, so
a line that a control core owns reads as its last store left it. A line is taken to have 64 bytes (log entry 81).
-/
namespace Sys2Proof.Machine

/-- Whether a request comes from a control core. -/
def L2Req.ofCore (r : L2Req) : Bool := decide (0x10 ≤ r.who ∧ r.who ≤ 0x17)

/-- The place of a request among those for its line: writebacks, then CTL0 to CTL7, then other masters by identity (R329). -/
def L2Req.rank (r : L2Req) : Nat :=
  if r.ofCore then (match r.kind with
    | .writeback => 0
    | .read => 1 + (r.who - 0x10)
    | .own => 1 + (r.who - 0x10))
  else 9 + r.who

/-- Whether a request is served before another: within a line by its place, else by the line. -/
def L2Req.before (a b : L2Req) : Bool := decide (a.line < b.line ∨ (a.line = b.line ∧ a.rank ≤ b.rank))

/-- Serve one request (R329): the bytes that it brings are written, and a read or a grant is answered with the line as the requests before it left it. A
writeback and another master's request leave the line without an owner; a read leaves it to its reader alone. -/
def State.l2Serve (s : State) (r : L2Req) : State :=
  let was := s.ctl.sram.rdBytes (64 * r.line) 64
  let sram := r.put.foldl (fun m p => m.wr (64 * r.line + p.1 % 64) p.2) s.ctl.sram
  let own := Map.get none s.ctl.owner r.line
  let own' := match r.kind with
    | .writeback => none
    | .own => if r.ofCore then some r.who else none
    | .read => if own = some r.who then own else none
  let answer := match r.kind with
    | .writeback => []
    | .read => [⟨r.who, r.line, was⟩]
    | .own => [⟨r.who, r.line, was⟩]
  { s with ctl := { s.ctl with sram := sram, owner := Map.set none s.ctl.owner r.line own', answers := s.ctl.answers ++ answer } }

/-- The L2 serves the requests that wait, in the order of R329. -/
def State.l2Cycle (s : State) : State :=
  if s.ctl.l2 = [] then s
  else (s.ctl.l2.insertionSort (fun a b => L2Req.before a b = true)).foldl State.l2Serve { s with ctl := { s.ctl with l2 := [] } }

end Sys2Proof.Machine
end

