-- ==== Sys2Proof/Machine/Line.lean ====
section
/-!
DEFINITION. The coded stream of a link's transmit direction (R184, R185, R189): the scrambler, start words and idle bytes, and the RS(544,514)
codewords that carry the frame stream. What the spec names by IEEE 802.3 Clause 119 alone is in log entry 74.
-/
namespace Sys2Proof.Machine

/-! ### The scrambler and the frame stream (R184, R185, R189) -/

/-- The next bit of the scrambler's sequence for the register r: taps x^31 and x^28. -/
def scrBit (r : Nat) : Nat := (r / 2 ^ 30 + r / 2 ^ 27) % 2

/-- The next n bytes of the scrambler's sequence from the register r, first bit lowest. -/
def scrBytes : Nat → Nat → List Byte
  | 0, _ => []
  | n + 1, r =>
    let x := (List.range 8).foldl (fun (a : Nat × Nat) i => (a.1 + scrBit a.2 * 2 ^ i, (2 * a.2 + scrBit a.2) % 2 ^ 31)) (0, r)
    BitVec.ofNat 8 x.1 :: scrBytes n x.2

/-- Bytes scrambled from the end of a start word on: the register is loaded with 0x7FFF_FFFF. -/
def scramble (bs : List Byte) : List Byte := List.zipWith (· ^^^ ·) bs (scrBytes bs.length 0x7FFFFFFF)

/-- The low-transition pattern that stands for a NIL frame's payload: byte 64m + 63 is 0xFF (R189). -/
def nilPattern : List Byte := (List.range 512).map (fun i => if i % 64 = 63 then 0xFF else 0)

/-- A frame as it stands in the message stream after its start word; a NIL frame's payload is replaced after scrambling. -/
def streamFrame (nil : Bool) (frame : List Byte) : List Byte :=
  let x := scramble frame
  if nil then x.take 8 ++ nilPattern ++ x.drop 520 else x

/-- The start word, as four bytes (R185). -/
def startWord : List Byte := leBytes 4 0xC6A0F3D5

/-- What the k-th frame of link n adds to the message stream: 0 to 4 idle bytes, the start word, the frame. -/
def streamBytes (n k : Nat) (nil : Bool) (frame : List Byte) : List Byte :=
  List.replicate (Config.idleBytes n k % 5) 0 ++ startWord ++ streamFrame nil frame

/-! ### The Reed-Solomon code (R184) -/

/-- Twice an element of GF(2^10), modulo x^10 + x^3 + 1. -/
def gfTwice (a : Nat) : Nat := if a < 512 then 2 * a else Nat.xor (2 * a) 0x409

/-- The product of two elements of GF(2^10). -/
def gfMul (a b : Nat) : Nat :=
  ((List.range 10).foldl (fun (x : Nat × Nat) i => (if b.testBit i then Nat.xor x.1 x.2 else x.1, gfTwice x.2)) (0, a)).1

/-- A power of the primitive element 2. -/
def gfPow : Nat → Nat
  | 0 => 1
  | k + 1 => gfTwice (gfPow k)

/-- The coefficients of the product of x + 2^j for j below k, highest power first. -/
def rsGen : Nat → List Nat
  | 0 => [1]
  | k + 1 => List.zipWith Nat.xor (rsGen k ++ [0]) (0 :: (rsGen k).map (gfMul (gfPow k)))

/-- One symbol enters the parity register, whose first symbol is that of the highest power. -/
def rsStep (g : List Nat) (reg : List Nat) (m : Nat) : List Nat :=
  let q := Nat.xor m (reg.headD 0)
  List.zipWith Nat.xor (reg.drop 1 ++ [0]) (g.map (gfMul q))

/-- The codeword of 514 message symbols: the message, then its 30 parity symbols. -/
def rsEncode (msg : List Nat) : List Nat := msg ++ msg.foldl (rsStep ((rsGen 30).drop 1)) (List.replicate 30 0)

/-- Message bits of a codeword. -/
abbrev rsBits := 5140

/-- Message bytes enter the stream; a codeword leaves once its bits are there. -/
def Line.push (l : Line) (bs : List Byte) : Line :=
  let held := l.held + leVal bs * 2 ^ l.bits
  let bits := l.bits + 8 * bs.length
  if bits < rsBits then { l with held := held, bits := bits }
  else { l with
    held := held / 2 ^ rsBits
    bits := bits - rsBits
    word := rsEncode ((List.range 514).map (fun i => field held (10 * i) 10)) }

/-- A frame enters the stream of link n. -/
def Line.send (l : Line) (n : Nat) (nil : Bool) (frame : List Byte) : Line :=
  { l.push (streamBytes n l.frames nil frame) with frames := l.frames + 1 }

/-- The symbols of the last codeword that lane i of `lanes` active lanes carries: they go round the lanes in turn. -/
def Line.laneSymbols (l : Line) (lanes i : Nat) : List Nat :=
  (List.range (l.word.length / max lanes 1)).map (fun k => l.word.getD (k * lanes + i) 0)

end Sys2Proof.Machine
end

