-- ==== Sys2Proof/Machine/Float.lean ====
section
/-!
DEFINITION. Element formats, exact values, rounding and conversion (05, R129-R134), the arithmetic of the vector unit on exact
values (R132, R146), WP96 addition (R140) and the seeded generator (R153).
-/
namespace Sys2Proof.Machine

/-- An exact value: NaN, an infinity, or (-1)^neg * m * 2^e (zero keeps its sign). -/
inductive FVal
  | nan
  | inf (neg : Bool)
  | fin (neg : Bool) (m : Nat) (e : Int)
  deriving DecidableEq, Repr

/-- How a format codes its special values (05, "Element formats"). -/
inductive Special
  | ieee
  | e4m3
  | none
  deriving DecidableEq, Repr

/-- A floating-point format: exponent bits, mantissa bits, bias and specials. -/
structure Fmt where
  eb : Nat
  mb : Nat
  bias : Nat
  sp : Special
  deriving DecidableEq, Repr

/-- A format code of 05: floating-point, or an integer of some width. -/
inductive Elem
  | flt (f : Fmt)
  | int (w : Nat)
  deriving DecidableEq, Repr

/-- The formats by their codes; codes 0xA-0xF are reserved. -/
def elemOf : Nat → Option Elem
  | 0x0 => some (.flt ⟨4, 3, 7, .e4m3⟩)
  | 0x1 => some (.flt ⟨5, 2, 15, .ieee⟩)
  | 0x2 => some (.flt ⟨2, 3, 1, .none⟩)
  | 0x3 => some (.flt ⟨3, 2, 3, .none⟩)
  | 0x4 => some (.flt ⟨2, 1, 1, .none⟩)
  | 0x5 => some (.int 8)
  | 0x6 => some (.flt ⟨8, 7, 127, .ieee⟩)
  | 0x7 => some (.flt ⟨5, 10, 15, .ieee⟩)
  | 0x8 => some (.flt ⟨8, 23, 127, .ieee⟩)
  | 0x9 => some (.int 32)
  | _ => none

/-- FP32. -/
abbrev fp32 : Fmt := ⟨8, 23, 127, .ieee⟩

/-- Width of an element in bits. -/
def Elem.bits : Elem → Nat
  | .flt f => 1 + f.eb + f.mb
  | .int w => w

/-- Exponent of the last place of a subnormal of format f. -/
def Fmt.emin (f : Fmt) : Int := 1 - (f.bias : Int) - (f.mb : Int)

/-- The value of a code of format f (R129). -/
def Fmt.decode (f : Fmt) (b : Nat) : FVal :=
  let m := b % 2 ^ f.mb
  let e := b / 2 ^ f.mb % 2 ^ f.eb
  let neg := b / 2 ^ (f.mb + f.eb) % 2 = 1
  if f.sp = .ieee ∧ e = 2 ^ f.eb - 1 then (if m = 0 then .inf neg else .nan)
  else if f.sp = .e4m3 ∧ e = 2 ^ f.eb - 1 ∧ m = 2 ^ f.mb - 1 then .nan
  else if e = 0 then .fin neg m f.emin
  else .fin neg (2 ^ f.mb + m) (f.emin + (e - 1 : Int))

/-- The value of a code. -/
def Elem.decode : Elem → Nat → FVal
  | .flt f, b => f.decode b
  | .int w, b => .fin (decide (signed w b < 0)) (signed w b).natAbs 0

/-- A rounding mode: to nearest even, toward zero, or stochastic with a 32-bit word u (R133, R156). -/
inductive Rm
  | rne
  | rz
  | sr (u : Nat)
  deriving DecidableEq, Repr

/-- m * 2^e rounded to an integer. -/
def roundInt (rm : Rm) (m : Nat) (e : Int) : Nat :=
  if 0 ≤ e then m * 2 ^ e.toNat
  else
    let k := (-e).toNat
    let q := m / 2 ^ k
    let r := m % 2 ^ k
    match rm with
    | .rz => q
    | .rne => if r * 2 > 2 ^ k ∨ (r * 2 = 2 ^ k ∧ q % 2 = 1) then q + 1 else q
    | .sr u => if u < r * 2 ^ 32 / 2 ^ k then q + 1 else q

/-- Mantissa and exponent of the last place of m * 2^e rounded to format f, the exponent unbounded above (R133). -/
def Fmt.roundFin (f : Fmt) (rm : Rm) (m : Nat) (e : Int) : Nat × Int :=
  if m = 0 then (0, f.emin)
  else
    let q := max f.emin ((Nat.log2 m : Int) + e - (f.mb : Int))
    let n := roundInt rm m (e - q)
    if n = 2 ^ (f.mb + 1) then (2 ^ f.mb, q + 1) else (n, q)

/-- The largest finite code of format f, without sign. -/
def Fmt.maxCode (f : Fmt) : Nat :=
  match f.sp with
  | .ieee => (2 ^ f.eb - 1) * 2 ^ f.mb - 1
  | .e4m3 => 2 ^ (f.eb + f.mb) - 2
  | .none => 2 ^ (f.eb + f.mb) - 1

/-- The code, without sign, of mantissa n at last place q as `roundFin` gives them. -/
def Fmt.codeOf (f : Fmt) (n : Nat) (q : Int) : Nat :=
  if n < 2 ^ f.mb then n else ((q - f.emin + 1).toNat) * 2 ^ f.mb + (n - 2 ^ f.mb)

/-- The canonical NaN (R131). -/
def Fmt.nanCode (f : Fmt) : Nat :=
  match f.sp with
  | .ieee => (2 ^ f.eb - 1) * 2 ^ f.mb + 2 ^ (f.mb - 1)
  | .e4m3 => 2 ^ (f.eb + f.mb) - 1
  | .none => 0

/-- The sign bit of format f. -/
def Fmt.signBit (f : Fmt) (neg : Bool) : Nat := if neg then 2 ^ (f.eb + f.mb) else 0

/-- A converted element: its code, whether it saturated (R135), whether a NaN was lost. -/
structure Conv where
  code : Nat
  sat : Bool
  nanLost : Bool
  deriving DecidableEq, Repr

/-- Formats whose overflow gives an infinity under RNE and stochastic rounding: FP32, BF16, FP16 (R134). -/
def Fmt.overInf (f : Fmt) : Bool := f.sp == .ieee && f.mb != 2

/-- Conversion to a floating-point format (R133, R134). -/
def Fmt.conv (f : Fmt) (rm : Rm) (v : FVal) : Conv :=
  match v with
  | .nan => ⟨f.nanCode, false, f.sp == .none⟩
  | .inf neg =>
    if f.sp = .ieee then ⟨f.signBit neg + (2 ^ f.eb - 1) * 2 ^ f.mb, false, false⟩
    else ⟨f.signBit neg + f.maxCode, true, false⟩
  | .fin neg m e =>
    let r := f.roundFin rm m e
    let c := f.codeOf r.1 r.2
    if c ≤ f.maxCode then ⟨f.signBit neg + c, false, false⟩
    else if f.overInf ∧ rm ≠ .rz then ⟨f.signBit neg + (2 ^ f.eb - 1) * 2 ^ f.mb, false, false⟩
    else ⟨f.signBit neg + f.maxCode, true, false⟩

/-- Conversion to a w-bit integer (R134). -/
def intConv (w : Nat) (rm : Rm) (v : FVal) : Conv :=
  match v with
  | .nan => ⟨0, false, true⟩
  | .inf neg => ⟨if neg then 2 ^ (w - 1) else 2 ^ (w - 1) - 1, true, false⟩
  | .fin neg m e =>
    let n := roundInt rm m e
    if neg then (if 2 ^ (w - 1) < n then ⟨2 ^ (w - 1), true, false⟩ else ⟨(2 ^ w - n) % 2 ^ w, false, false⟩)
    else if 2 ^ (w - 1) - 1 < n then ⟨2 ^ (w - 1) - 1, true, false⟩ else ⟨n, false, false⟩

/-- Conversion to an element (R134). -/
def Elem.conv (t : Elem) (rm : Rm) (v : FVal) : Conv :=
  match t with
  | .flt f => f.conv rm v
  | .int w => intConv w rm v

/-- The code of a value rounded to nearest even. -/
def Fmt.rne (f : Fmt) (v : FVal) : Nat := (f.conv .rne v).code

/-! ### Exact arithmetic -/

/-- The integer n with (-1)^neg * m. -/
def sInt (neg : Bool) (m : Nat) : Int := if neg then -(m : Int) else m

/-- Exact sum of two finite values at a common exponent; an exact zero is + unless both addends are -0 (R132). -/
def FVal.add : FVal → FVal → FVal
  | .nan, _ => .nan
  | _, .nan => .nan
  | .inf a, .inf b => if a = b then .inf a else .nan
  | .inf a, .fin .. => .inf a
  | .fin .., .inf b => .inf b
  | .fin an am ae, .fin bn bm be =>
    let e := min ae be
    let n := sInt an am * 2 ^ (ae - e).toNat + sInt bn bm * 2 ^ (be - e).toNat
    if n = 0 then .fin (an && bn && am == 0 && bm == 0) 0 e else .fin (decide (n < 0)) n.natAbs e

/-- The value with its sign inverted. -/
def FVal.neg : FVal → FVal
  | .nan => .nan
  | .inf a => .inf (!a)
  | .fin a m e => .fin (!a) m e

/-- The value with its sign cleared. -/
def FVal.abs : FVal → FVal
  | .nan => .nan
  | .inf _ => .inf false
  | .fin _ m e => .fin false m e

/-- Whether the value is zero. -/
def FVal.isZero : FVal → Bool
  | .fin _ m _ => m == 0
  | _ => false

/-- Exact product (R132). -/
def FVal.mul : FVal → FVal → FVal
  | .nan, _ => .nan
  | _, .nan => .nan
  | .inf a, .inf b => .inf (a != b)
  | .inf a, .fin b m _ => if m = 0 then .nan else .inf (a != b)
  | .fin a m _, .inf b => if m = 0 then .nan else .inf (a != b)
  | .fin a m e, .fin b n g => .fin (a != b) (m * n) (e + g)

/-- Whether a value is NaN. -/
def FVal.isNan : FVal → Bool
  | .nan => true
  | _ => false

/-- a ÷ b with a sticky bit below 128 quotient bits, so that one rounding is correct. -/
def FVal.div : FVal → FVal → FVal
  | .nan, _ => .nan
  | _, .nan => .nan
  | .inf _, .inf _ => .nan
  | .inf a, .fin b _ _ => .inf (a != b)
  | .fin a _ _, .inf b => .fin (a != b) 0 0
  | .fin a m e, .fin b n g =>
    if n = 0 then (if m = 0 then .nan else .inf (a != b))
    else
      let k := 128 + Nat.log2 n
      let q := m * 2 ^ k / n
      .fin (a != b) (2 * q + (if m * 2 ^ k % n = 0 then 0 else 1)) (e - g - k - 1)

/-- The integer square root of n, from bit k - 1 down, given r with r^2 ≤ n. -/
def isqrtFrom (n : Nat) : Nat → Nat → Nat
  | 0, r => r
  | k + 1, r => if (r + 2 ^ k) * (r + 2 ^ k) ≤ n then isqrtFrom n k (r + 2 ^ k) else isqrtFrom n k r

/-- The integer square root. -/
def isqrt (n : Nat) : Nat := isqrtFrom n (Nat.log2 n / 2 + 1) 0

/-- a / b rounded to the nearest integer, ties to even (R133, R146). -/
def rneQuot (a b : Int) : Int :=
  let n := if b < 0 then -a else a
  let d : Int := b.natAbs
  let q := n / d
  let r := n % d
  if d < 2 * r ∨ (d = 2 * r ∧ q % 2 = 1) then q + 1 else q

/-- The square root of n rounded to the nearest integer; no root lies half-way between two (R133, R146). -/
def rneRoot (n : Nat) : Nat :=
  let r := isqrt n
  if r * r + r < n then r + 1 else r

/-- √a with a sticky bit; the square root of -0 is -0. -/
def FVal.sqrt : FVal → FVal
  | .nan => .nan
  | .inf true => .nan
  | .inf false => .inf false
  | .fin a m e =>
    if m = 0 then .fin a 0 0
    else if a then .nan
    else
      let h := if e % 2 = 0 then e else e - 1
      let m' := (if e % 2 = 0 then m else 2 * m) * 2 ^ 128
      let r := isqrt m'
      .fin false (2 * r + (if r * r = m' then 0 else 1)) (h / 2 - 64 - 1)

/-- Exact comparison of two values that are not NaN: a < b, -0 equal to +0. -/
def FVal.lt : FVal → FVal → Bool
  | .nan, _ => false
  | _, .nan => false
  | .inf a, .inf b => a && !b
  | .inf a, .fin .. => a
  | .fin .., .inf b => !b
  | .fin an am ae, .fin bn bm be =>
    let e := min ae be
    decide (sInt an am * 2 ^ (ae - e).toNat < sInt bn bm * 2 ^ (be - e).toNat)

/-- Exact equality of two values that are not NaN. -/
def FVal.eq (a b : FVal) : Bool := !a.isNan && !b.isNan && !a.lt b && !b.lt a

/-- The smaller of two values that are not NaN; -0 orders below +0 (05, VMIN). -/
def FVal.min2 (a b : FVal) : FVal :=
  if a.lt b then a else if b.lt a then b
  else match a with
    | .fin true _ _ => a
    | .inf true => a
    | _ => b

/-- The larger of two values that are not NaN. -/
def FVal.max2 (a b : FVal) : FVal :=
  if a.lt b then b else if b.lt a then a
  else match a with
    | .fin true _ _ => b
    | .inf true => b
    | _ => a

/-- 2^k as a value. -/
def FVal.pow2 (k : Int) : FVal := .fin false 1 k

/-- The value of an E8M0 scale (R129). -/
def e8m0 (s : Nat) : FVal := if s = 0xFF then .nan else .pow2 ((s : Int) - 127)

/-! ### WP96 (R140) -/

/-- The NaN word. -/
def wpNan : Nat := 2 ^ 95

/-- The 96-bit code of an integer in the regular range. -/
def wpCode (i : Int) : Nat := unsign 96 i

/-- The integer of a word. -/
def wpInt (w : Nat) : Int := signed 96 w

/-- One step of reduction modulo 2^96 - 1 into the regular range (R140). -/
def wpFold (s : Int) : Int :=
  if s > 2 ^ 95 - 1 then s - (2 ^ 96 - 1) else if s < -(2 ^ 95 - 1) then s + (2 ^ 96 - 1) else s

/-- a ⊕ b (R140). -/
def wpAdd (a b : Nat) : Nat :=
  if a = wpNan ∨ b = wpNan then wpNan else wpCode (wpFold (wpInt a + wpInt b))

/-- An integer reduced into the regular range modulo 2^96 - 1 (R141 step 3). -/
def wpReduce (c : Int) : Int :=
  let r := c % (2 ^ 96 - 1)
  if r > 2 ^ 95 - 1 then r - (2 ^ 96 - 1) else r

/-- The contribution of an exact value at anchor A (R141). -/
def wpContribution (v : FVal) (a : Int) : Nat :=
  match v with
  | .fin neg m e => wpCode (wpReduce (sInt neg (roundInt .rne m (e - (a - 64)))))
  | _ => wpNan

/-- The exact value of a word at anchor A. -/
def wpVal (w : Nat) (a : Int) : FVal :=
  if w = wpNan then .nan else .fin (decide (wpInt w < 0)) (wpInt w).natAbs (a - 64)

/-! ### The seeded generator (R153) -/

/-- Rotate a 32-bit word left. -/
def rotl32 (x k : Nat) : Nat := (x * 2 ^ k + x / 2 ^ (32 - k)) % 2 ^ 32

/-- The four words of the generator's state. -/
structure Sg where
  x0 : Nat
  x1 : Nat
  x2 : Nat
  x3 : Nat
  deriving DecidableEq, Repr

/-- Round r of sg8 with keys k (R153). -/
def sgRound (k : List Nat) (r : Nat) (x : Sg) : Sg :=
  let a := 4 * (2 + r % 3)
  let b := 4 * (3 + r % 4)
  let x0 := (Nat.xor x.x0 (k.getD (r % 4) 0) + x.x3) % 2 ^ 32
  let x1 := rotl32 ((x.x1 + x0) % 2 ^ 32) a
  let x2 := (Nat.xor x.x2 (k.getD ((r + 1) % 4) 0) + x1) % 2 ^ 32
  let x3 := Nat.xor (rotl32 ((x.x3 + x2) % 2 ^ 32) b) x0
  ⟨x0, x1, x2, x3⟩

/-- sg8(S, T, N, I) of R153: 128 bits, word 0 in [31:0]. -/
def sg8 (s t n i : Nat) : Nat :=
  let k0 := s % 2 ^ 32
  let k1 := s / 2 ^ 32 % 2 ^ 32
  let k2 := t % 2 ^ 32
  let k3 := (k0 + k1 + 0x6C8E4A35) % 2 ^ 32
  let x := upto 8 (sgRound [k0, k1, k2, k3])
    ⟨i % 2 ^ 32, i / 2 ^ 32 % 2 ^ 32, n % 2 ^ 32, n / 2 ^ 32 % 2 ^ 32⟩
  (x.x0 + k2) % 2 ^ 32 + 2 ^ 32 * ((x.x1 + k3) % 2 ^ 32) + 2 ^ 64 * ((x.x2 + k0) % 2 ^ 32)
    + 2 ^ 96 * ((x.x3 + k1) % 2 ^ 32)

end Sys2Proof.Machine
end

