-- ==== Sys2Proof/Machine/HbmOps.lean ====
section
/-!
DEFINITION. Reads of HBM with its symbol code (R170, R175), shared by streams, flows, open requests, the crier and the scrub.
-/
namespace Sys2Proof.Machine

/-- An uncorrectable read of the code word at a (R175). -/
def State.hbmUe (s : State) (a : Nat) : State :=
  let k := stackOf a
  let s1 := s.bump .HBM_ECC_UE_COUNT k
  let s2 := if s1.f .HBM_UE_ADDR_VALID k = 1 then s1
    else (s1.setF .HBM_UE_ADDR_ADDR k (a / 64 * 64)).setF .HBM_UE_ADDR_VALID k 1
  let s3 := (s2.irqMasterIf (s2.f .HBM_CTRL_UE_IRQ_EN k == 1) (.hbm k)).ldgFault 0x10 0x5 k
  (s3.lifEvent 0x06 k).stopStep 0x3

/-- Read one code word's ECC state: one symbol in error is corrected and counted, more are uncorrectable. -/
def State.eccWord (s : State) (a : Nat) : State :=
  let n := s.badSyms a
  if n = 0 then s
  else if n = 1 then s.bump .HBM_ECC_CE_COUNT (stackOf a)
  else s.hbmUe a

/-- The errors that a read of [a, a + n) meets in HBM are counted and recorded (R175). -/
def State.eccScan (s : State) (a n : Nat) : State :=
  if n = 0 ∨ hbmBytes < a + n then s
  else upto ((a + n - 1) / 64 - a / 64 + 1) (fun i s => s.eccWord (a / 64 * 64 + 64 * i)) s

/-- A read of n bytes by chip-local address: the data, and the state with its errors counted (R175). -/
def State.hbmRead (s : State) (a n : Nat) : List Byte × State := (s.rdBytes a n, s.eccScan a n)

/-! ### Requests that wait for slots (R172) -/

/-- Whether the HBM plan gives an owner slots of stack k; without any, its requests are served at once (R171, R172; log entry 12). -/
def State.slotted (s : State) (o : SlotOwner) (k : Nat) : Bool := (s.stack k).owners.any (fun p => p.2 == o)

/-- A request for n bytes at a waits for its owner's slots of the stack (R172). -/
def State.hbmWait (s : State) (o : SlotOwner) (a n : Nat) (act : HbmAct) : State :=
  let k := stackOf a
  s.setStack k { s.stack k with queue := (s.stack k).queue ++ [⟨o, n, act⟩] }

/-! ### Errors of the core store (R168) -/

/-- The first word of [a, a + n) with an uncorrectable error (R168). -/
def Core.eccHit (k : Core) (a n : Nat) : Option Nat :=
  if k.eccBad.isEmpty then none
  else (firstBelow ((a + n - 1) / 8 - a / 8 + 1) (fun i => Map.get false k.eccBad (a / 8 + i))).map (fun i => (a / 8 + i) * 8)

/-- Words of [a, a + n) that m marks. -/
def markedWords (m : Map Bool) (a n : Nat) : Nat :=
  if m.isEmpty ∨ n = 0 then 0 else ((List.range ((a + n - 1) / 8 - a / 8 + 1)).filter (fun i => Map.get false m (a / 8 + i))).length

/-- A read of [a, a + n) of core c's store, on any port: each single-bit error in it is corrected and counted (R168). -/
def State.storeRead (s : State) (c a n : Nat) : State :=
  let k := markedWords (s.core c).eccOne a n
  if k = 0 then s else s.bump .PMC_STORE_CE_COUNT c k

/-- The n bytes of core c's store from local offset a, as the fill port reads them: the bits as read. An uncorrectable word among them is noted
for the core's next packet boundary (R168). -/
def State.fillRead (s : State) (c a n : Nat) : List Byte × State :=
  let k := s.core c
  let t := match k.fillErr, k.eccHit a n with
    | none, some w => s.modCore c (fun k => { k with fillErr := some w })
    | _, _ => s
  (k.store.rdBytes a n, t.storeRead c a n)

end Sys2Proof.Machine
end

