-- ==== Sys2Proof/Machine/Operands.lean ====
section
/-!
DEFINITION. Operand forms of the core instruction set: register reads and writes with the constant registers (R63), immediates,
addresses of the core store and their checks (R74, R75), and the slot encodings (03, 04, 05, 06).
-/
namespace Sys2Proof.Machine

/-- The outcome type of every meaning. -/
abbrev Out := Host.Outcome State Fault Refusal

/-- Scalar register r of core c, as a number; s0 reads zero (R63). -/
def State.sr (s : State) (c : Nat) (r : BitVec 5) : Nat := if r = 0 then 0 else (Map.get 0 (s.core c).sregs r.toNat).toNat

/-- Write scalar register r of core c, modulo 2^64; a write of s0 is discarded (R63). -/
def State.setSr (s : State) (c : Nat) (r : BitVec 5) (v : Nat) : State :=
  if r = 0 then s else s.modCore c (fun k => { k with sregs := Map.set 0 k.sregs r.toNat (BitVec.ofNat 64 v) })

/-- Vector register r of core c. -/
def State.vr (s : State) (c : Nat) (r : BitVec 5) : VReg := Map.get 0 (s.core c).vregs r.toNat

/-- Write vector register r of core c. -/
def State.setVr (s : State) (c : Nat) (r : BitVec 5) (v : VReg) : State :=
  s.modCore c (fun k => { k with vregs := Map.set 0 k.vregs r.toNat v })

/-- Predicate p of core c; p0 reads all ones (R63). -/
def State.pr (s : State) (c : Nat) (p : BitVec 3) : PReg :=
  if p = 0 then BitVec.ofNat 256 (2 ^ 256 - 1) else Map.get 0 (s.core c).pregs p.toNat

/-- Write predicate p of core c; a write of p0 is discarded (R63). -/
def State.setPr (s : State) (c : Nat) (p : BitVec 3) (v : PReg) : State :=
  if p = 0 then s else s.modCore c (fun k => { k with pregs := Map.set 0 k.pregs p.toNat v })

/-- Element i of width w of a vector register (05, "Element formats"). -/
def elem (v : VReg) (w i : Nat) : Nat := field v.toNat (w * i) w

/-- A vector register from its elements of width w. -/
def packElems (w : Nat) (es : List Nat) : VReg := BitVec.ofNat 8192 (es.foldr (fun e a => e % 2 ^ w + a * 2 ^ w) 0)

/-- A predicate from its bits. -/
def packBits (bs : List Bool) : PReg := BitVec.ofNat 256 (bs.foldr (fun b a => b2n b + a * 2) 0)

/-- The signed reading of a 22-bit immediate, modulo 2^64. -/
def sext (imm : BitVec 22) : Nat := unsign 64 imm.toInt

/-- A 64-bit sum. -/
def add64 (a b : Nat) : Nat := (a + b) % 2 ^ 64

/-- The number of packets of the program region (03, "Program region"). -/
def State.progPackets (s : State) (c : Nat) : Nat := (s.f .CORE_PROG_SIZE c + 1) * 4096

/-- The first byte of the program region. -/
def State.progStart (s : State) (c : Nat) : Nat := storeBytes - (s.f .CORE_PROG_SIZE c + 1) * 65536

/-- Whether [a, a + n) leaves the store (R75). -/
def leavesStore (a n : Nat) : Bool := decide (storeBytes < a + n)

/-- Whether [a, a + n) leaves the store or enters the program region, where data may not be written (R74). -/
def State.badWrite (s : State) (c a n : Nat) : Bool := decide (s.progStart c < a + n)

/-- The bank of a local offset (R163). -/
def bankOf (a : Nat) : Nat := a / 512 % 32

/-! ### Slot encodings -/

/-- Format R of the scalar slot. -/
def encR (op : Nat) (rd rs1 rs2 : BitVec 5) : Nat := op + rd.toNat * 2 ^ 8 + rs1.toNat * 2 ^ 13 + rs2.toNat * 2 ^ 18

/-- Format I of the scalar slot. -/
def encI (op : Nat) (rd rs1 : BitVec 5) (imm : BitVec 22) : Nat :=
  op + rd.toNat * 2 ^ 8 + rs1.toNat * 2 ^ 13 + imm.toNat * 2 ^ 18

/-- Format VR of the vector slot. -/
def encVR (op x : Nat) (ty pg : BitVec 3) (vb va vd : BitVec 5) : Nat :=
  op + vd.toNat * 2 ^ 8 + va.toNat * 2 ^ 13 + vb.toNat * 2 ^ 18 + pg.toNat * 2 ^ 23 + ty.toNat * 2 ^ 26 + x * 2 ^ 29

/-- The porter format of the M slot (03). -/
def encPorter (op : Nat) (dt : BitVec 4) (sub : BitVec 3) (even : Bool) (ev : BitVec 4) (rn rr rl : BitVec 5) (b : Bool) : Nat :=
  op + b2n b * 2 ^ 8 + rl.toNat * 2 ^ 9 + rr.toNat * 2 ^ 14 + rn.toNat * 2 ^ 19 + ev.toNat * 2 ^ 24 + b2n even * 2 ^ 28
    + sub.toNat * 2 ^ 29 + dt.toNat * 2 ^ 32

end Sys2Proof.Machine
end

