-- ==== Sys2Proof/Machine/Flags.lean ====
section
/-!
DEFINITION. The sticky arithmetic flags: VEC_STATUS of the vector unit (R135, R146) and MXE_STATUS of the matrix engine (R106,
R142).
-/
namespace Sys2Proof.Machine

/-- What an operation found: a saturated conversion, a NaN lost, a NaN made from operands that were not NaN. -/
structure VFlags where
  sat : Bool
  nanLost : Bool
  invalid : Bool
  deriving DecidableEq, Repr

/-- No flag. -/
def VFlags.none : VFlags := ⟨false, false, false⟩

/-- Either operation's flags. -/
def VFlags.or (a b : VFlags) : VFlags := ⟨a.sat || b.sat, a.nanLost || b.nanLost, a.invalid || b.invalid⟩

/-- The flags of a conversion (R135). -/
def Conv.flags (c : Conv) : VFlags := ⟨c.sat, c.nanLost, false⟩

/-- A result that is NaN while no operand is (R146). -/
def invalidOf (ops : List FVal) (r : FVal) : VFlags := ⟨false, false, r.isNan && ops.all (fun o => !o.isNan)⟩

/-- Set the sticky flags of VEC_STATUS of core c. -/
def State.setVFlags (s : State) (c : Nat) (g : VFlags) : State :=
  let s1 := if g.sat then s.setF .VEC_STATUS_SAT c 1 else s
  let s2 := if g.nanLost then s1.setF .VEC_STATUS_NAN_LOST c 1 else s1
  if g.invalid then s2.setF .VEC_STATUS_INVALID c 1 else s2

/-- Set the sticky flags of MXE_STATUS of core c: INT32 saturation, a product outside the anchor window. -/
def State.setMxFlags (s : State) (c : Nat) (isat ninv : Bool) : State :=
  let s1 := if isat then s.setF .MXE_STATUS_ISAT c 1 else s
  if ninv then s1.setF .MXE_STATUS_NINV c 1 else s1

end Sys2Proof.Machine
end

