-- ==== Sys2Proof/Machine/Issue.lean ====
section
/-!
DEFINITION. The issue of a packet by a core (R71, R72, R76, R78, R93-R98): a slot's meaning as data, the checks of a packet, its
waits, its effects in slot order, the program counter and the loop stack, and the cycle counts of the scoreboard.
-/
namespace Sys2Proof.Machine

/-- A fault a slot meets: its code, DETAIL and fault address (R97). -/
structure FaultRec where
  code : Nat
  detail : Nat
  addr : Nat
  deriving DecidableEq, Repr

/-- Where the packet sends the PC (R76, R78, R79). -/
inductive Ctl
  | seq
  | jump (target : Nat)
  | loop (count last : Nat)
  | halt
  deriving DecidableEq, Repr

/-- What one slot does: the faults it meets, the wait it asks for (0 none, else the WAIT_KIND), the registers it names as
destinations with their latency, the registers and resources it waits for (R93, R118), the resources it sets and the cycles after
its issue at which they are ready, the cycles it takes, the granules it reaches through the general port (R165), the cycles of the grid that it
starts (as `Core.grid`; R325), and its effect. Keys: 0-31 scalar, 32-63 vector, 64-71 predicate registers, 80 and above resources. -/
structure Sem where
  faults : List FaultRec := []
  wait : Nat := 0
  dsts : List (Nat × Nat) := []
  need : List Nat := []
  sets : List (Nat × Nat) := []
  cycles : Nat := 1
  grans : List Nat := []
  stream : List Nat := []
  branch : Bool := false
  ctl : Ctl := .seq
  run : State → State := id

/-- A slot of a packet: which (0 S, 1 V, 2 M), the instruction, its meaning on the state before the packet. -/
structure Slot where
  slot : Nat
  instr : Instr
  sem : Sem

abbrev keyS (r : BitVec 5) : Nat := r.toNat
abbrev keyV (r : BitVec 5) : Nat := 32 + r.toNat
abbrev keyP (p : BitVec 3) : Nat := 64 + p.toNat
abbrev keyMcfg : Nat := 80
abbrev keyMask : Nat := 81
abbrev keyWPort : Nat := 82
/-- W[e] as a later reader waits for it. -/
abbrev keyW (e : Nat) : Nat := 83 + e
/-- W[e] as a later writer waits for it. -/
abbrev keyWFree (e : Nat) : Nat := 87 + e
abbrev keyGrid : Nat := 91
/-- A[a] as a later run waits for it. -/
abbrev keyA (a : Nat) : Nat := 92 + a
/-- A[a] as a later drain waits for it. -/
abbrev keyADrain (a : Nat) : Nat := 96 + a
abbrev keyDPort : Nat := 100
abbrev keyVUnit : Nat := 101

/-- An ILLEGAL fault with the slot bits (R97). -/
def FaultRec.illegal (bits : Nat) : FaultRec := ⟨0x01, bits % 2 ^ 32, 0⟩

/-- A STORE_RANGE fault at a local offset. -/
def FaultRec.range (a : Nat) : FaultRec := ⟨0x03, 0, a⟩

/-- A MISALIGN fault at an address. -/
def FaultRec.misalign (a : Nat) : FaultRec := ⟨0x04, 0, a⟩

/-- A STORE_ECC fault at a local offset; DETAIL is the bank (R97). -/
def FaultRec.ecc (a : Nat) : FaultRec := ⟨0x0F, bankOf a, a⟩

/-- A list with x when b holds. -/
def when_ {α : Type} (b : Bool) (x : α) : List α := if b then [x] else []

/-- The fault of lowest code (R97). -/
def lowest (fs : List FaultRec) : Option FaultRec :=
  fs.foldl (fun a f => match a with
    | none => some f
    | some g => if f.code < g.code then some f else some g) none

/-- Destination registers named by both of two slots (R72). -/
def clash (a b : Sem) : Bool := a.dsts.any (fun p => b.dsts.any (fun q => p.1 == q.1))

/-- Whether slot x of the packet shares a destination with a later slot; the fault is that of the lower slot (log entry 22). -/
def conflicts (x : Slot) (slots : List Slot) : Bool := slots.any (fun y => decide (x.slot < y.slot) && clash x.sem y.sem)

/-- The faults of slot x within its packet. DETAIL of SLOT_CONFLICT names the register in a form the spec does not give: free. -/
def slotFaults (s : State) (slots : List Slot) (x : Slot) : List FaultRec :=
  x.sem.faults ++ when_ (conflicts x slots) ⟨0x02, s.fresh.1 % 2 ^ 32, 0⟩

/-- The fault a packet records: the lowest slot, then the lowest code (R97). -/
def packetFault (s : State) (slots : List Slot) : Option (Nat × FaultRec) :=
  slots.foldl (fun a x => match a with
    | some p => some p
    | none => (lowest (slotFaults s slots x)).map (fun f => (x.slot, f))) none

/-- The wait of a packet: the S slot's while unsatisfied, else a full porter (R411). -/
def packetWait (slots : List Slot) : Nat :=
  slots.foldl (fun w x => if w = 0 then x.sem.wait else w) 0

/-- The cycle from which key k is ready. -/
def Core.readyAt (c : Core) (k : Nat) : Nat := Map.get 0 c.ready k

/-- Cycles the packet waits for its registers and resources (R93, R118). -/
def Core.stallFor (c : Core) (keys : List Nat) : Nat := (keys.map c.readyAt).foldl max c.cyc - c.cyc

/-- Count event e of core n k times, if at all. -/
def State.pmcIf (s : State) (n e k : Nat) : State := if k = 0 then s else s.pmc n e k

/-! ### Tallies (R318, R319, R323) -/

/-- The tally of tensor t. -/
def State.tally (s : State) (t : Nat) : Tally := Map.get ⟨0, 0, 0⟩ s.ldg.tallies t

/-- Fold the bytes of one granule under a key into tensor t; kind 1 is a TALLY, kind 2 a landing (R318, R320, R323). -/
def State.foldGranule (s : State) (t kind key : Nat) (bs : List Byte) : State :=
  if s.f .TAL_CTRL_EN = 0 then s
  else
    let a := s.tally t
    let d := tl128 ((List.range 32).map (fun i => leAt bs (16 * i) 16) ++ [key])
    let a' : Tally := ⟨(a.sum + d) % 2 ^ 128, min (a.folds + 1) (2 ^ 32 - 1), Nat.lor a.kinds kind⟩
    ({ s with ldg := { s.ldg with tallies := Map.set ⟨0, 0, 0⟩ s.ldg.tallies t a' } } : State).bump .TAL_CNT_FOLD_COUNT

/-- The key of a fold by TALLY (R318). -/
def tallyKey (idx t : Nat) : Nat := idx % 2 ^ 64 + 2 ^ 64 * t

/-- The key of a fold by a landing (R318). -/
def landKey (granule flow t : Nat) : Nat := granule % 2 ^ 32 + 2 ^ 32 * (flow % 2 ^ 12) + 2 ^ 64 * t + 2 ^ 127

/-- Core c's TALLY reads: the granules whose cycles lie before `limit` are read as they stand now and folded, one a cycle (R319); PMC event 0x12 counts
those that were folded (R324). -/
def State.tallyTo (s : State) (c limit : Nat) : State :=
  (s.core c).tallies.foldl (fun s r =>
    let k := min r.left (limit - r.due)
    let t := upto k (fun g s => s.foldGranule r.tensor 1 (tallyKey (r.index + g) r.tensor) ((s.core c).store.rdBytes (r.addr + 512 * g) 512)) s
    let u := if s.f .TAL_CTRL_EN = 0 ∨ k = 0 then t else t.pmc c 0x12 k
    if r.left ≤ k then u
    else u.modCore c (fun x => { x with tallies := x.tallies ++ [⟨r.due + k, r.addr + 512 * k, r.left - k, r.tensor, r.index + k⟩] }))
    (s.modCore c (fun x => { x with tallies := [] }))

/-- The granule that a TALLY of core c reads in a cycle, if one runs (R165, R319). -/
def Core.tallyGran (c : Core) (cycle : Nat) : List Nat :=
  (c.tallies.filter (fun r => decide (r.due ≤ cycle ∧ cycle < r.due + r.left))).map (fun r => r.addr / 512 + (cycle - r.due))

/-- Spend k cycles of core n: PMC_CYCLES, and 32 top-down slots for each, every slot in one class (R325): rows of a streaming cycle are wasted or
retired; a cycle without streaming is back-starved when a conflict adds it or `back` says so, else front-starved. -/
def State.spend (s : State) (n k : Nat) (back : Bool) : State :=
  let c := s.core n
  let g := c.grid.take k
  let rows := g.filter (· ≤ 32)
  let idle := k - g.length
  let held := if back then idle else min (c.cyc + k) c.conflict.2 - max (c.cyc + g.length) c.conflict.1
  let s1 := (s.bump .PMC_CYCLES_CYCLES n k).modCore n (fun c => { c with cyc := c.cyc + k, grid := c.grid.drop k })
  let s2 := (s1.pmcIf n 0x0A (32 * rows.length - rows.sum)).pmcIf n 0x0B rows.sum
  (s2.pmcIf n 0x0D (32 * (g.length - rows.length + held))).pmcIf n 0x0C (32 * (idle - held))

/-- The PC after packet p when nothing takes it elsewhere, and the loop stack: each loop whose body ends at p goes back, or pops on
its last pass and leaves p to the loop around it (R78). The stack's top is the head. -/
def passPacket : List LoopEnt → Nat → List LoopEnt × Nat
  | [], p => ([], p + 1)
  | l :: ls, p =>
    if l.last = p then
      (if 1 < l.count then ({ l with count := l.count - 1 } :: ls, l.first) else passPacket ls p)
    else (l :: ls, p + 1)

/-- The loop stack after a taken branch to t: the loops whose bodies do not hold t pop (R78). -/
def popLoops : List LoopEnt → Nat → List LoopEnt
  | [], _ => []
  | l :: ls, t => if l.first ≤ t ∧ t ≤ l.last then l :: ls else popLoops ls t

/-- The loop stack and PC after a packet at pc. -/
def nextPc (ctl : Ctl) (loops : List LoopEnt) (pc : Nat) : List LoopEnt × Nat :=
  match ctl with
  | .seq => passPacket loops pc
  | .jump t => (popLoops loops t, t)
  | .loop 0 last => passPacket loops last
  | .loop (n + 1) last => (⟨n + 1, pc + 1, last⟩ :: loops, pc + 1)
  | .halt => (loops, pc + 1)

/-- The packet's control: that of its S slot. -/
def packetCtl (slots : List Slot) : Ctl :=
  slots.foldl (fun a x => match a with
    | .seq => x.sem.ctl
    | c => c) .seq

/-- Move the PC after the packet's effects; running past the last packet, which a LOOP that skips its body does too, raises PC_RANGE at the
boundary with the PC at that last packet (R76, R78); HALT ends in DONE (R79). -/
def State.advance (s : State) (n : Nat) (ctl : Ctl) : State :=
  let pc := s.f .CORE_PC_PC n
  let r := nextPc ctl (s.core n).loops pc
  let s1 := s.modCore n (fun c => { c with loops := r.1 })
  if ctl = .halt then (s1.setF .CORE_PC_PC n r.2).coreDone n
  else if s.progPackets n ≤ r.2 then (s1.setF .CORE_PC_PC n (s.progPackets n - 1)).coreFault n 0x0A 3 r.2 0
  else s1.setF .CORE_PC_PC n r.2

/-- The cycles of a packet: the longest of its slots; a branch or jump takes 3 (R76). -/
def packetCycles (slots : List Slot) : Nat :=
  slots.foldl (fun a x => max a (if x.sem.branch then 3 else x.sem.cycles)) 1

/-- The cycles that conflicts add to a cycle in which one port serves these distinct granules: n - 1 for n granules of one bank, banks side by side
(R165). -/
def conflictCycles (gs : List Nat) : Nat := (gs.map (fun g => (gs.filter (fun h => h % 32 = g % 32)).length)).foldl max 1 - 1

/-- The cycles that bank conflicts of the general port add to a packet that the port serves with these other granules (R165). -/
def bankExtra (slots : List Slot) (also : List Nat) : Nat :=
  if slots.all (fun x => x.sem.grans.isEmpty) then 0 else conflictCycles (slots.flatMap (fun x => x.sem.grans) ++ also).dedup

/-- Scoreboard of a packet: wait for its sources, then set the ready cycles of what it writes (R93, R118); what waits for the general port is
ready as much later as its conflicts add cycles (R165). -/
def State.schedule (s : State) (n : Nat) (slots : List Slot) : State :=
  let c := s.core n
  let keys := slots.flatMap (fun x => x.sem.need)
  let mkeys := keys.filter (fun k => 80 ≤ k ∧ k < 101)
  let st := c.stallFor keys
  let mst := c.stallFor mkeys
  let s1 := if mst = 0 then s else (s.bump .MXE_WAIT_CYC_CYCLES n mst).pmc n 0x13 mst
  let s2 := if st = 0 then s1 else s1.spend n st (mst != 0)
  let t := c.cyc + st
  let extra := bankExtra slots (c.tallyGran t)
  let sets := slots.flatMap (fun x => (x.sem.dsts ++ x.sem.sets).map (fun p => (p.1, p.2 + if x.sem.grans.isEmpty then 0 else extra)))
  let run := slots.flatMap (fun x => x.sem.stream)
  let put := fun (m : Map Nat) (p : Nat × Nat) => if p.1 = 0 ∨ p.1 = 64 then m else Map.set 0 m p.1 (t + p.2)
  let s3 := s2.modCore n (fun c => { c with ready := sets.foldl put c.ready, issued := t, grid := if run.isEmpty then c.grid else run })
  let s4 := s3.spend n (packetCycles slots) false
  if extra = 0 then s4 else (s4.spend n extra true).pmc n 0x09 extra

/-- The counters of an issued packet (R324). -/
def State.countPacket (s : State) (n : Nat) (slots : List Slot) : State :=
  slots.foldl (fun s x => s.pmc n (0x02 + x.slot)) (s.pmc n 0x01)

/-- Give a packet its effect: every slot's, in slot order (R72, R94), then the PC. -/
def complete_ (n : Nat) (slots : List Slot) (s : State) : State :=
  let s1 := (s.countPacket n slots).schedule n slots
  let s2 := slots.foldl (fun s x => x.sem.run s) s1
  let s3 := ((s2.setF .CORE_STATUS_STATE n stRun).setF .CORE_STATUS_WAIT_KIND n 0).modCore n
    Core.endWait
  s3.advance n (packetCtl slots)

/-- Core n waits with its packet (R411, R99): a BELLWAIT that waited and goes on waiting for a full porter has been released (R85). In WAITE,
WAITP and BELLWAIT the core is clock-gated where CG_WAIT says so (R384). -/
def enterWait (n kind : Nat) (slots : List Slot) (s : State) : State :=
  ((s.setF .CORE_STATUS_STATE n stWait).setF .CORE_STATUS_WAIT_KIND n kind).modCore n
    (fun c => { c with
      waiting := slots.map (·.instr)
      released := c.released || (s.f .CORE_STATUS_WAIT_KIND n == 3 && kind == 4)
      cg := kind != 4 && s.f .PWR_CTRL_CG_WAIT == 1 })

/-- Core n's clock region is running (R44). -/
def State.clocked (s : State) (n : Nat) : Bool := s.f .CLK_RGN_STATUS_STOPPED (n / 8) == 0 && !bit s.clk.out (n / 8)

/-- Issue a packet: its faults, its wait, or its effect (R72, R96, R97, R411). -/
def issueNow (n : Nat) (slots : List Slot) (s : State) : State :=
  match packetFault s slots with
  | some (slot, f) => (if f.code = 0x02 then s.fresh.2 else s).coreFault n f.code slot f.detail f.addr
  | none =>
    if packetWait slots ≠ 0 then enterWait n (packetWait slots) slots s
    else complete_ n slots s

/-- Core n issues a packet if it is in RUN and its region's clock runs; otherwise nothing happens (log entry 20). -/
def issue (n : Nat) (slots : List Slot) (s : State) : State :=
  if s.cst n = stRun ∧ s.clocked n = true then issueNow n slots s else s

/-- A packet of one slot, as a command issues it. -/
def one (n : Nat) (slot : Nat) (i : Instr) (m : Sem) (s : State) : Out := .next (issue n [⟨slot, i, m⟩] s)

end Sys2Proof.Machine
end

