-- ==== Sys2Proof/Machine/Matrix.lean ====
section
/-!
DEFINITION. The matrix engine (04, R105-R124; 05, R136-R143): configuration, weight entries, runs, drains and masks.
-/
namespace Sys2Proof.Machine

/-- Weight entry e of a core; an unlisted entry is zero (R122). -/
def Core.went (k : Core) (e : Nat) : WEntry := Map.get WEntry.zero k.wents e

/-- The type of an accumulator that nothing has written: FP32, or WP96 in invariant mode (R122). -/
def invTy (inv : Bool) : AccTy := if inv then .wp96 else .fp32

/-- Accumulator a of a core. -/
def Core.acc (k : Core) (inv : Bool) (a : Nat) : Accum := Map.get (Accum.zero (invTy inv) 0) k.accs a

/-- Row mask a of a core; an unlisted mask is all ones (R122). -/
def Core.mask (k : Core) (a : Nat) : Nat := Map.get 0xFFFFFFFF k.masks a

/-- Whether invariant mode is active on core c (R125). -/
def State.inv (s : State) (c : Nat) : Bool := s.f .MXE_STATUS_INV_ACTIVE c == 1

/-- Width of an element of a matrix format in bits (04, "Formats and pairs"). -/
def mxBits (f : Nat) : Nat := if f = 2 ∨ f = 3 then 6 else if f = 4 then 4 else if 6 ≤ f then 16 else 8

/-- The class of a format: 0 FP8, FP6 and FP4; 1 INT8; 2 the 16-bit formats; 3 unlisted. -/
def mxClass (f : Nat) : Nat := if f ≤ 4 then 0 else if f = 5 then 1 else if f ≤ 7 then 2 else 3

/-- Whether MXCFG accepts a pair and its scale bits (R107). -/
def mxPairOk (wf af : Nat) (ws as : Bool) : Bool :=
  mxClass wf == mxClass af && mxClass wf != 3 && !(mxClass wf == 2 && (ws || as))

/-- K_E: the logical K positions of an entry (R105). -/
def mxKe (wf : Nat) (sp : Bool) : Nat := (if wf = 4 then 64 else 32) * (if sp then 2 else 1)

/-- V: bytes of a column record. -/
def mxV (wf : Nat) : Nat := 4 * mxBits wf * (if wf = 4 then 2 else 1)

/-- I: bytes of an index record. -/
def mxI (wf : Nat) (sp : Bool) : Nat := if sp then (if wf = 4 then 16 else 8) else 0

/-- Bytes of a tile (04, "Weight entries"). -/
def tileBytes (wf : Nat) (ws sp : Bool) : Nat := 32 * (mxV wf + mxI wf sp + (if ws then mxKe wf sp / 32 else 0))

/-- L: cycles of the weight port (R108). -/
def tileCycles (wf : Nat) (ws sp : Bool) : Nat := ceilDiv (tileBytes wf ws sp) 512

/-- Logical K positions per cycle of a pair (R107). -/
def mxPerCycle (wf af : Nat) (sp : Bool) : Nat :=
  (if wf = 4 ∧ af = 4 then 64 else if mxClass wf = 2 then 16 else 32) * (if sp then 2 else 1)

/-- An anchor the device admits (R139). -/
def anchorOk (a : Int) : Bool := decide (-126 ≤ a ∧ a ≤ 127)

/-- The matrix-engine fault MXSTATE (R121). -/
def FaultRec.mxstate (d : Nat) : FaultRec := ⟨0x11, d, 0⟩

/-- MXCFG (R112). -/
def semMxcfg (c : CoreId) (rx rq rs : BitVec 5) (sp as ws : Bool) (af wf : BitVec 4) (s : State) : Sem :=
  let anchor := signed 16 (s.sr c rx % 2 ^ 16)
  let bits := 0x01 + wf.toNat * 2 ^ 8 + af.toNat * 2 ^ 12 + b2n ws * 2 ^ 16 + b2n as * 2 ^ 17 + b2n sp * 2 ^ 18 + rs.toNat * 2 ^ 19
    + rq.toNat * 2 ^ 24 + rx.toNat * 2 ^ 29
  let m : MCfg := ⟨wf.toNat, af.toNat, ws, as, sp, s.sr c rs, s.sr c rq, anchor⟩
  { faults := when_ (!mxPairOk wf.toNat af.toNat ws as) (.illegal bits) ++ when_ (s.inv c && !anchorOk anchor) (.mxstate 4),
    need := [keyS rx, keyS rq, keyS rs], sets := [(keyMcfg, 1)],
    run := fun t => t.modCore c (fun k => { k with mcfg := m }) }

/-- MXLW (R113): the entry takes the tile's bytes, k0 and the tag. -/
def semMxlw (c : CoreId) (we : BitVec 2) (rk rw : BitVec 5) (s : State) : Sem :=
  let m := (s.core c).mcfg
  let a := s.sr c rw
  let k0 := s.sr c rk
  let n := tileBytes m.wf m.ws m.sp
  let l := tileCycles m.wf m.ws m.sp
  { faults := when_ (leavesStore a n) (.range a) ++ when_ (decide (a % 64 ≠ 0)) (.misalign a)
      ++ when_ (decide (k0 % mxKe m.wf m.sp ≠ 0)) (.misalign k0)
      ++ (if leavesStore a n then [] else ((s.core c).eccHit a n).toList.map .ecc),
    need := [keyMcfg, keyWPort, keyWFree we.toNat, keyS rk, keyS rw],
    sets := [(keyWPort, l), (keyW we.toNat, l), (keyWFree we.toNat, l)],
    run := fun t => (t.storeRead c a n).modCore c (fun k =>
      { k with wents := Map.set WEntry.zero k.wents we.toNat ⟨m.wf, m.ws, m.sp, k0, k.store.rdBytes a n⟩ }) }

/-- The value of an element of a matrix format. -/
def mxVal (f b : Nat) : FVal := ((elemOf f).getD (.int 8)).decode b

/-- Element j of width b of a byte string that is a little-endian bit string (R108). -/
def bitElem (bs : List Byte) (b j : Nat) : Nat := field (leAt bs (b * j / 8) 3) (b * j % 8) b

/-- Two stored weights in ascending order of position; at one position the first stored comes first (R109, R142). -/
def inOrder (a b : Nat × FVal) : List (Nat × FVal) := if b.1 < a.1 then [b, a] else [a, b]

/-- The stored weights of column n in block q of an entry, as (position within the entry, value), in ascending position (R108,
R109). -/
def blockWeights (w : WEntry) (n q : Nat) : List (Nat × FVal) :=
  let rec_ := w.tile.drop (n * mxV w.wf)
  if w.sp then
    let idx := w.tile.drop (32 * mxV w.wf + n * mxI w.wf w.sp)
    (List.range 8).flatMap (fun j =>
      let g := 8 * q + j
      let ix := bitElem idx 4 g
      inOrder (4 * g + ix % 4, mxVal w.wf (bitElem rec_ (mxBits w.wf) (2 * g)))
        (4 * g + ix / 4, mxVal w.wf (bitElem rec_ (mxBits w.wf) (2 * g + 1))))
  else (List.range 32).map (fun j => (32 * q + j, mxVal w.wf (bitElem rec_ (mxBits w.wf) (32 * q + j))))

/-- The scale of block q of column n: 127 when the entry carries none (R106). -/
def weightScale (w : WEntry) (n q : Nat) : Nat :=
  if w.ws then (byteAt w.tile (32 * (mxV w.wf + mxI w.wf w.sp) + n * (mxKe w.wf w.sp / 32) + q)).toNat else 127

/-- What a run reads: its configuration copy and its bases (R110). -/
structure RunCfg where
  m : MCfg
  ra : Nat
  rc : Nat

/-- The byte address that activation element k of row r starts in (R110). -/
def RunCfg.actAddr (x : RunCfg) (r k : Nat) : Nat := x.ra + r * x.m.stride + k * mxBits x.m.af / 8

/-- Activation element k of row r (R110). -/
def RunCfg.act (x : RunCfg) (st : Mem) (r k : Nat) : FVal :=
  mxVal x.m.af (field (st.rdLe (x.actAddr r k) 3) (k * mxBits x.m.af % 8) (mxBits x.m.af))

/-- The activation scale of position k of row r: 127 without scales (R106, R110). -/
def RunCfg.actScale (x : RunCfg) (st : Mem) (r k : Nat) : Nat :=
  if x.m.as then (st.rd (x.rc + r * x.m.sstride + k / 32)).toNat else 127

/-- The exact sum of products; with 2:4 weights the positions without a weight add +0 (R106, R132, R136). -/
def sumProducts (sp : Bool) (ps : List FVal) : FVal :=
  match ps with
  | [] => .fin false 0 0
  | p :: r => r.foldl FVal.add (if sp then FVal.add (.fin false 0 0) p else p)

/-- The products of block q of entry w for column n and row r. -/
def blockProducts (x : RunCfg) (st : Mem) (w : WEntry) (n r q : Nat) : List FVal :=
  (blockWeights w n q).map (fun p => p.2.mul (x.act st r (w.k0 + p.1)))

/-- The scaled block sum of R106 steps 1 and 2. -/
def blockSum (x : RunCfg) (st : Mem) (w : WEntry) (n r q : Nat) : FVal :=
  let sw := weightScale w n q
  let sx := x.actScale st r (w.k0 + 32 * q)
  if sw = 0xFF ∨ sx = 0xFF then .nan
  else (sumProducts w.sp (blockProducts x st w n r q)).mul (.pow2 ((sw : Int) + sx - 254))

/-- An accumulator element in work: its bits, its spill, the flags ISAT and NINV it raised. -/
structure AccEl where
  bits : Nat
  spill : Nat
  isat : Bool
  ninv : Bool
  deriving DecidableEq, Repr

/-- FP32 accumulation with one rounding (R137). -/
def accFp32 (a : AccEl) (v : FVal) : AccEl := { a with bits := fp32.rne ((fp32.decode a.bits).add v) }

/-- INT32 accumulation: the exact sum rounded and saturated (R106). An INT32 sum with a NaN block is not stated: free (log entry 26). -/
def accInt32 (fr : Nat) (a : AccEl) (v : FVal) : AccEl :=
  match v with
  | .nan => { a with bits := fr % 2 ^ 32 }
  | _ =>
    let r := intConv 32 .rne (FVal.add ((Elem.int 32).decode a.bits) v)
    { a with bits := r.code, isat := a.isat || r.sat }

/-- Whether a product lies in the anchor window (R142). -/
def inWindow (p : FVal) (a : Int) : Bool :=
  match p with
  | .fin _ m e =>
    m == 0 || (FVal.lt (.fin false m e) (.pow2 (a + 26)) && (decide (a - 64 ≤ e) || m % 2 ^ (a - 64 - e).toNat == 0))
  | _ => false

/-- One product of a 16-bit run in invariant mode (R142). -/
def accProduct (anchor : Int) (a : AccEl) (p : FVal) : AccEl :=
  if inWindow p anchor then { a with bits := wpAdd a.bits (wpContribution p anchor) }
  else { a with spill := fp32.rne ((fp32.decode a.spill).add p), ninv := true }

/-- Add block q of entry w into the element of column n, row r (R106, R137, R141, R142). -/
def accBlock (x : RunCfg) (ty : AccTy) (fr : Nat) (st : Mem) (w : WEntry) (n r q : Nat) (a : AccEl) : AccEl :=
  match ty with
  | .fp32 => accFp32 a (blockSum x st w n r q)
  | .int32 => accInt32 fr a (blockSum x st w n r q)
  | .wp96 =>
    if mxClass w.wf = 2 then (blockProducts x st w n r q).foldl (accProduct x.m.anchor) a
    else { a with bits := wpAdd a.bits (wpContribution (blockSum x st w n r q) x.m.anchor) }

/-- The element of column n, row r after the run's entries in order (R114). -/
def accRun (x : RunCfg) (ty : AccTy) (fr : Nat) (st : Mem) (ws : List WEntry) (n r : Nat) (a : AccEl) : AccEl :=
  ws.foldl (fun a w => upto (mxKe w.wf w.sp / 32) (fun q a => accBlock x ty fr st w n r q a) a) a

/-- The accumulator of token block b after the run (R114): a masked row keeps its bits, or becomes zero with CLR. -/
def runBlock (x : RunCfg) (ty : AccTy) (fr : Nat) (st : Mem) (ws : List WEntry) (clr : Bool) (mask : Nat) (b : Nat) (old : Accum) :
    Accum × List AccEl :=
  let base : Accum := if clr then Accum.zero ty x.m.anchor else { old with ty := ty, anchor := x.m.anchor }
  let els := (List.range 1024).map (fun j =>
    let a : AccEl := ⟨Map.get 0 base.els j, Map.get 0 base.spill j, false, false⟩
    if mask.testBit (j / 32) then accRun x ty fr st ws (j % 32) (32 * b + j / 32) a else a)
  ({ base with
      els := ((List.range 1024).zip (els.map (·.bits))).filter (fun p => p.2 ≠ 0)
      spill := ((List.range 1024).zip (els.map (·.spill))).filter (fun p => p.2 ≠ 0) }, els)

/-- The accumulator type of a run (R106, R124). -/
def runTy (inv : Bool) (m : MCfg) : AccTy := if inv then .wp96 else if m.wf = 5 then .int32 else .fp32

/-- Streaming cycles of one entry on one token block, before invariant mode doubles them (R115). -/
def chunkCycles (m : MCfg) (sp : Bool) : Nat := mxKe m.wf sp / mxPerCycle m.wf m.af sp

/-- The chunk of a streaming cycle: entry, token block, cycle within it. -/
def runChunks (ws : List WEntry) (m : MCfg) (nb : Nat) : List (WEntry × Nat × Nat) :=
  ws.flatMap (fun w => (List.range nb).flatMap (fun b => (List.range (chunkCycles m w.sp)).map (fun j => (w, b, j))))

/-- The bytes of row r that chunk j of entry w reads: first address and length. -/
def chunkSpan (x : RunCfg) (w : WEntry) (r j : Nat) : Nat × Nat :=
  let n := mxPerCycle x.m.wf x.m.af w.sp
  (x.actAddr r (w.k0 + j * n), n * mxBits x.m.af / 8)

/-- Whether a row's chunk lies wholly in one nil granule (R123, R325). -/
def chunkNil (k : Core) (p : Nat × Nat) : Bool := p.1 / 512 == (p.1 + p.2 - 1) / 512 && bit (k.tag (p.1 / 512)) 1

/-- The scale bytes of row r that chunk j of entry w reads: first address and length. -/
def scaleSpan (x : RunCfg) (w : WEntry) (r j : Nat) : Nat × Nat :=
  let n := mxPerCycle x.m.wf x.m.af w.sp
  let k := w.k0 + j * n
  (x.rc + r * x.m.sstride + k / 32, (k + n - 1) / 32 - k / 32 + 1)

/-- The granules of spans that one port reaches in one cycle. -/
def spanGranules (ps : List (Nat × Nat)) : List Nat :=
  (ps.flatMap (fun p => (List.range ((p.1 + p.2 - 1) / 512 - p.1 / 512 + 1)).map (fun i => p.1 / 512 + i))).dedup

/-- Cycles that one streaming cycle's reads add: those of the activation port or of the scale port, whichever adds more, for ports never delay one
another (R165; log entry 73). -/
def chunkConflict (x : RunCfg) (w : WEntry) (b j : Nat) : Nat :=
  let rows := (List.range 32).map (fun i => 32 * b + i)
  max (conflictCycles (spanGranules (rows.map (fun r => chunkSpan x w r j))))
    (if x.m.as then conflictCycles (spanGranules (rows.map (fun r => scaleSpan x w r j))) else 0)

/-- Whether a row's chunk is all zero elements (R325). -/
def chunkZero (x : RunCfg) (st : Mem) (w : WEntry) (r j : Nat) : Bool :=
  let n := mxPerCycle x.m.wf x.m.af w.sp
  (List.range n).all (fun d => match x.act st r (w.k0 + j * n + d) with
    | .fin _ m _ => m == 0
    | _ => false)

/-- MXRUN (R110, R114, R115, R118, R121, R165, R325). The run of S streaming cycles takes the cycles its conflicts add; a row that its mask excludes is
read as any other, so that no cycle depends on a mask (DEDUCED, log entry 73). -/
def semMxrun (c : CoreId) (msk clr : Bool) (nb ab ne we : BitVec 2) (rc ra : BitVec 5) (s : State) : Sem :=
  let k := s.core c
  let m := k.mcfg
  let inv := s.inv c
  let nB := nb.toNat + 1
  let nE := ne.toNat + 1
  let x : RunCfg := ⟨m, s.sr c ra, s.sr c rc⟩
  let ws := (List.range nE).map (fun i => k.went (we.toNat + i))
  let accs := (List.range nB).map (fun i => ab.toNat + i)
  let ty := runTy inv m
  let bits := 0x03 + ra.toNat * 2 ^ 8 + rc.toNat * 2 ^ 13 + we.toNat * 2 ^ 18 + ne.toNat * 2 ^ 20 + ab.toNat * 2 ^ 22 + nb.toNat * 2 ^ 24
    + b2n clr * 2 ^ 26 + b2n msk * 2 ^ 27
  let lastRow := 32 * nB - 1
  let out := ws.any (fun w => decide (storeBytes < x.ra + lastRow * m.stride + ceilDiv ((w.k0 + mxKe w.wf w.sp) * mxBits m.af) 8)
      || (m.as && decide (storeBytes ≤ x.rc + lastRow * m.sstride + (w.k0 + mxKe w.wf w.sp - 1) / 32)))
  let chunks := runChunks ws m nB
  let mul := if inv then 2 else 1
  let maskOf := fun b => if msk then k.mask (ab.toNat + b) else 0xFFFFFFFF
  let rows := chunks.flatMap (fun p => (List.range 32).map (fun i => (p, i)))
  let masked := (rows.filter (fun q => !(maskOf q.1.2.1).testBit q.2)).length
  let live := rows.filter (fun q => (maskOf q.1.2.1).testBit q.2)
  let span := fun (q : (WEntry × Nat × Nat) × Nat) => chunkSpan x q.1.1 (32 * q.1.2.1 + q.2) q.1.2.2
  let reads := rows.flatMap (fun q => span q :: when_ m.as (scaleSpan x q.1.1 (32 * q.1.2.1 + q.2) q.1.2.2))
  let nils := (live.filter (fun q => chunkNil k (span q))).length
  let wasted := fun (p : WEntry × Nat × Nat) => ((List.range 32).filter (fun i => !(maskOf p.2.1).testBit i || chunkNil k (span (p, i))
    || chunkZero x k.store p.1 (32 * p.2.1 + i) p.2.2)).length
  let grid := chunks.map (fun p => (List.replicate mul (wasted p :: List.replicate (chunkConflict x p.1 p.2.1 p.2.2) 33)).flatten)
  let S := grid.flatten.length
  let added := (grid.flatten.filter (· == 33)).length
  let fr := Config.freeNat s.free
  { faults := when_ (decide (4 < we.toNat + nE ∨ 4 < ab.toNat + nB) || (!m.as && decide (rc ≠ 0))) (.illegal bits)
      ++ when_ out (.range x.ra) ++ when_ (decide (x.ra % 8 ≠ 0 ∨ m.stride % 8 ≠ 0)) (.misalign x.ra)
      ++ when_ (ws.any (fun w => decide (w.wf ≠ m.wf) || w.ws != m.ws || w.sp != m.sp)) (.mxstate 1)
      ++ when_ (!clr && accs.any (fun a => decide ((k.acc inv a).ty ≠ ty))) (.mxstate 2)
      ++ when_ (inv && !anchorOk m.anchor) (.mxstate 4)
      ++ (if out then [] else ((reads.filterMap (fun p => k.eccHit p.1 p.2)).head?).toList.map .ecc),
    need := [keyMcfg, keyMask, keyGrid, keyS ra, keyS rc] ++ (List.range nE).map (fun i => keyW (we.toNat + i)) ++ accs.map keyA,
    stream := grid.flatten,
    sets := [(keyGrid, S)] ++ (List.range nE).map (fun i => (keyWFree (we.toNat + i), (grid.take ((i + 1) * nB * chunkCycles m m.sp)).flatten.length))
      ++ accs.map (fun a => (keyA a, S)) ++ accs.map (fun a => (keyADrain a, S + 12)),
    run := fun t =>
      let r := (List.range nB).map (fun b => (ab.toNat + b, runBlock x ty fr (t.core c).store ws clr (maskOf b) b (k.acc inv (ab.toNat + b))))
      let t1 := t.modCore c (fun k => { k with accs := r.foldl (fun m p => Map.set (Accum.zero (invTy inv) 0) m p.1 p.2.1) k.accs })
      let t2 := t1.setMxFlags c (r.any (fun p => p.2.2.any (·.isat))) (r.any (fun p => p.2.2.any (·.ninv)))
      let t3 := ((t2.bump .MXE_RUN_CYC_CYCLES c (S - added)).bump .MXE_MASK_ROWS_ROWS c masked).bump .MXE_NIL_ROWS_ROWS c
        (if t2.f .MXE_CTRL_NILGATE_EN c = 1 then nils else 0)
      let t4 := (reads.foldl (fun s p => s.storeRead c p.1 p.2) t3).pmcIf c 0x09 added
      { t4 with free := t4.free + 1 } }

/-- Output formats of MXDRAIN: format code and bytes (R117); OF 5 is WP96. -/
def drainOut : Nat → Option (Nat × Nat)
  | 0 => some (0x8, 4)
  | 1 => some (0x6, 2)
  | 2 => some (0x7, 2)
  | 3 => some (0x0, 1)
  | 4 => some (0x9, 4)
  | 5 => some (0xF, 12)
  | _ => none

/-- Whether an accumulator type admits OF (R117). -/
def drainAdmits (ty : AccTy) (o : Nat) : Bool :=
  match ty with
  | .fp32 => decide (o ≤ 3)
  | .int32 => o == 4
  | .wp96 => decide (o ≤ 3) || o == 5

/-- The output code of one element (R117, R138, R143). -/
def drainEl (acc : Accum) (o : Nat) (bits spill : Nat) : Nat :=
  match acc.ty with
  | .int32 => bits
  | .fp32 => (((elemOf ((drainOut o).getD (8, 4)).1).getD (.int 8)).conv .rne (fp32.decode bits)).code
  | .wp96 =>
    if o = 5 then wpAdd bits (wpContribution (fp32.decode spill) acc.anchor)
    else (((elemOf ((drainOut o).getD (8, 4)).1).getD (.int 8)).conv .rne ((wpVal bits acc.anchor).add (fp32.decode spill))).code

/-- The bytes that cycle q of a drain writes: 512 bytes of the tile in row order, each row's part as an address and a length (R117; log entry 73). -/
def drainSpans (base st rowB q : Nat) : List (Nat × Nat) :=
  (List.range 32).filterMap (fun i =>
    let lo := max (512 * q) (i * rowB)
    let hi := min (512 * q + 512) ((i + 1) * rowB)
    if lo < hi then some (base + i * st + (lo - i * rowB), hi - lo) else none)

/-- MXDRAIN (R117): the count is due D + 6 cycles after the issue, and as much later as conflicts of the drain port add (R165). -/
def semMxdrain (c : CoreId) (ev : BitVec 4) (even clr : Bool) (f : BitVec 4) (a : BitVec 2) (rs rd : BitVec 5) (s : State) : Sem :=
  let inv := s.inv c
  let acc := (s.core c).acc inv a.toNat
  let o := f.toNat
  let size := ((drainOut o).getD (0, 4)).2
  let al := if o = 5 then 4 else size
  let base := s.sr c rd
  let st := s.sr c rs
  let d0 := ceilDiv (1024 * size) 512
  let added := ((List.range d0).map (fun q => conflictCycles (spanGranules (drainSpans base st (32 * size) q)))).sum
  let d := d0 + added
  let bits := 0x04 + rd.toNat * 2 ^ 8 + rs.toNat * 2 ^ 13 + a.toNat * 2 ^ 18 + f.toNat * 2 ^ 20 + b2n clr * 2 ^ 24 + b2n even * 2 ^ 25
    + ev.toNat * 2 ^ 26
  { faults := when_ (drainOut o = none) (.illegal bits) ++ when_ (s.badWrite c base (31 * st + 32 * size)) (.range base)
      ++ when_ (decide (base % al ≠ 0 ∨ st % al ≠ 0)) (.misalign base) ++ when_ (!drainAdmits acc.ty o) (.mxstate 3),
    need := [keyADrain a.toNat, keyDPort, keyS rd, keyS rs],
    sets := [(keyDPort, d), (keyA a.toNat, d), (keyADrain a.toNat, d)],
    run := fun t => (t.pmcIf c 0x09 added).modCore c (fun k =>
      let k1 := upto 32 (fun i k => k.wrStore (base + i * st) ((List.range 32).flatMap (fun n =>
        leBytes size (drainEl acc o (Map.get 0 acc.els (32 * i + n)) (Map.get 0 acc.spill (32 * i + n)))))) k
      let k2 := if clr then { k1 with accs := Map.set (Accum.zero (invTy inv) 0) k1.accs a.toNat (Accum.zero acc.ty acc.anchor) } else k1
      let k3 := if added = 0 then k2 else { k2 with conflict := (k2.issued + d0, k2.issued + d) }
      if even then { k3 with drains := k3.drains ++ [⟨ev.toNat, k3.issued + d + 6⟩] } else k3) }

/-- MXMASK (R116). -/
def semMxmask (c : CoreId) (mode : Bool) (nb ab : BitVec 2) (rf : BitVec 5) (s : State) : Sem :=
  let v := s.sr c rf
  let bits := 0x05 + rf.toNat * 2 ^ 8 + ab.toNat * 2 ^ 13 + nb.toNat * 2 ^ 15 + b2n mode * 2 ^ 17
  { faults := when_ ((mode && decide (nb ≠ 0)) || decide (4 < ab.toNat + nb.toNat + 1)) (.illegal bits),
    need := [keyS rf], sets := [(keyMask, 1)],
    run := fun t => t.modCore c (fun k =>
      if mode then { k with masks := Map.set 0xFFFFFFFF k.masks ab.toNat (v % 2 ^ 32) }
      else { k with masks := upto (nb.toNat + 1) (fun b m =>
          Map.set 0xFFFFFFFF m (ab.toNat + b) (2 ^ (min 32 (v - 32 * b)) - 1)) k.masks }) }

/-- DRAIN_EVENT (R117): the oldest drain with EVEN delivers its count, once the cycle has come in which it is due. -/
def execDrainEvent (c : CoreId) (s : State) : Out :=
  match (s.core c).drains with
  | [] => .next s
  | d :: r => .next (if (s.core c).elapsed < d.due then s else (s.modCore c (fun k => { k with drains := r })).deliver c d.ev)

/-- MXCFG, as a packet of one slot. -/
def execMxcfg (c : CoreId) (rx rq rs : BitVec 5) (sp as ws : Bool) (af wf : BitVec 4) (s : State) : Out := one c 2 (.mxcfg c rx rq rs sp as ws af wf) (semMxcfg c rx rq rs sp as ws af wf s) s

/-- MXLW, as a packet of one slot. -/
def execMxlw (c : CoreId) (we : BitVec 2) (rk rw : BitVec 5) (s : State) : Out := one c 2 (.mxlw c we rk rw) (semMxlw c we rk rw s) s

/-- MXRUN, as a packet of one slot. -/
def execMxrun (c : CoreId) (msk clr : Bool) (nb ab ne we : BitVec 2) (rc ra : BitVec 5) (s : State) : Out := one c 2 (.mxrun c msk clr nb ab ne we rc ra) (semMxrun c msk clr nb ab ne we rc ra s) s

/-- MXDRAIN, as a packet of one slot. -/
def execMxdrain (c : CoreId) (ev : BitVec 4) (even clr : Bool) (f : BitVec 4) (a : BitVec 2) (rs rd : BitVec 5) (s : State) : Out := one c 2 (.mxdrain c ev even clr f a rs rd) (semMxdrain c ev even clr f a rs rd s) s

/-- MXMASK, as a packet of one slot. -/
def execMxmask (c : CoreId) (mode : Bool) (nb ab : BitVec 2) (rf : BitVec 5) (s : State) : Out := one c 2 (.mxmask c mode nb ab rf) (semMxmask c mode nb ab rf s) s

end Sys2Proof.Machine
end

