-- ==== Sys2Proof/Machine/Ledger.lean ====
section
/-!
DEFINITION. Tallies and the sheet (R318-R323), the performance counter read (R326), host writes and batches, replay and the
ledger's commands (R306-R317, R342).
-/
namespace Sys2Proof.Machine

/-! ### Tallies -/

/-- TALLY (R319). -/
def semTally (c : CoreId) (rk rt rn rs : BitVec 5) (s : State) : Sem :=
  let a := s.sr c rs
  let n := s.sr c rn
  let t := s.sr c rt % 2 ^ 16
  let k := s.sr c rk
  { faults := when_ (decide (storeBytes < a + 512 * n)) (.range a) ++ when_ (decide (a % 512 ≠ 0)) (.misalign a)
      ++ when_ (decide (n = 0 ∨ 4096 < n)) ⟨0x05, n % 2 ^ 32, 0⟩
      ++ (if storeBytes < a + 512 * n ∨ 4096 < n then [] else ((s.core c).eccHit a (512 * n)).toList.map .ecc),
    need := [keyS rk, keyS rt, keyS rn, keyS rs, keyVUnit], sets := [(keyVUnit, n)],
    grans := [a / 512],
    run := fun u => u.modCore c (fun x => { x with tallies := x.tallies ++ [⟨x.issued, a, n, t, k⟩] }) }

/-- Entries of the sheet ring. -/
def State.talSize (s : State) : Nat := 2 ^ s.f .TAL_SHEET_CFG_LOG2

/-- Recompute TAL_STATUS.NEAR_FULL; its setting interrupts (R323, R310). -/
def State.talNear (s : State) : State :=
  let used := if s.ldg.sheetFull then s.talSize
    else (s.f .TAL_SHEET_HEAD_HEAD + s.talSize - s.f .TAL_SHEET_TAIL_TAIL % s.talSize) % s.talSize
  let near := decide ((s.talSize - used) * 8 < s.talSize)
  (s.setF .TAL_STATUS_NEAR_FULL 0 (b2n near)).irqMasterIf
    (near && s.f .TAL_STATUS_NEAR_FULL == 0 && s.f .TAL_CTRL_IRQ_EN == 1) .sheet

/-- The 64 bytes of a sheet entry (R322). -/
def sheetBytes (s : State) (c t : Nat) : List Byte :=
  let a := s.tally t
  leBytes 8 (s.f .CORE_STEP_STEP c) ++ leBytes 8 (s.core c).lastWait ++ leBytes 16 a.sum ++ leBytes 2 t
    ++ leBytes 2 (s.f .CORE_SHAPE_MYCHIP c) ++ leBytes 1 (s.f .CORE_BIND_LOGICAL c) ++ leBytes 1 a.kinds ++ leBytes 2 0
    ++ leBytes 4 a.folds ++ leBytes 20 0

/-- Emit tensor t for core c: a sheet entry, then the accumulator and its fold count zero (R321, R323). -/
def State.emit (s : State) (c t : Nat) : State :=
  if s.f .TAL_CTRL_EN = 0 then s
  else
    let clear := fun (u : State) => { u with ldg := { u.ldg with tallies := Map.set ⟨0, 0, 0⟩ u.ldg.tallies t ⟨0, 0, 0⟩ } }
    if s.ldg.sheetFull then
      let u := clear { s with ldg := { s.ldg with tlost := true } }
      ((u.bump .TAL_CNT_LOST_COUNT).setF .TAL_STATUS_LOST 0 1).irqMasterIf (s.f .TAL_CTRL_IRQ_EN == 1) .sheet
    else
      let head := s.f .TAL_SHEET_HEAD_HEAD
      let u := s.wrFar (s.f .TAL_SHEET_CFG_HOST == 1) (s.f .TAL_SHEET_BASE_BASE * 65536 + 64 * head) (sheetBytes s c t)
      let head' := (head + 1) % s.talSize
      let v := (u.setF .TAL_SHEET_HEAD_HEAD 0 head').bump .TAL_CNT_EMIT_COUNT
      (clear { v with ldg := { v.ldg with sheetFull := decide (head' = v.f .TAL_SHEET_TAIL_TAIL % v.talSize) } }).talNear

/-- TEMIT (R321). -/
def semTemit (c : CoreId) (rt : BitVec 5) (s : State) : Sem :=
  let t := s.sr c rt % 2 ^ 16
  { need := [keyS rt, keyVUnit], sets := [(keyVUnit, 1)], run := fun u => (u.tallyTo c (u.core c).issued).emit c t }

/-- PMCRD (R326). -/
def semPmcrd (c : CoreId) (sel : BitVec 4) (rd : BitVec 5) (s : State) : Sem :=
  let en := s.f .PMC_USER_EN_EN c = 1
  let v := if sel = 8 then s.f .PMC_CYCLES_CYCLES c else s.f .PMC_CNT_COUNT (8 * c.val + sel.toNat)
  { faults := when_ (decide (8 < sel.toNat)) (.illegal (0xC2 + rd.toNat * 2 ^ 8 + sel.toNat * 2 ^ 13)),
    dsts := [(keyS rd, 2)], need := [keyVUnit], sets := [(keyVUnit, 1)],
    run := fun u => if en then u.setSr c rd v else (u.setSr c rd 0).bump .PMC_DENIED_COUNT c }

/-- TALLY, as a packet of one slot. -/
def execTally (c : CoreId) (rk rt rn rs : BitVec 5) (s : State) : Out := one c 1 (.tally c rk rt rn rs) (semTally c rk rt rn rs s) s

/-- TEMIT, as a packet of one slot. -/
def execTemit (c : CoreId) (rt : BitVec 5) (s : State) : Out := one c 1 (.temit c rt) (semTemit c rt s) s

/-- PMCRD, as a packet of one slot. -/
def execPmcrd (c : CoreId) (sel : BitVec 4) (rd : BitVec 5) (s : State) : Out := one c 1 (.pmcrd c sel rd) (semPmcrd c sel rd s) s

/-! ### Host writes, batches, replay -/

/-- Close the open run of host writes: its HOST_WRITE entry (R306, R308). -/
def State.closeRun (s : State) : State :=
  match s.ldg.run with
  | none => s
  | some r =>
    ({ s with ldg := { s.ldg with run := none } } : State).ldgInput
      { kind := 0x01, src := 0, len := r.data.length, digest := tlBytes r.data, target := r.addr } r.data

/-- The longest run (R308). -/
abbrev runLimit : Nat := 2 ^ 20

/-- Add a write to the run, closing it where R308 says. -/
def State.addRun (s : State) (a : Nat) (bs : List Byte) : State :=
  let t := match s.ldg.run with
    | some r =>
      if r.addr + r.data.length = a then { s with ldg := { s.ldg with run := some ⟨r.addr, r.data ++ bs⟩ } }
      else { s.closeRun with ldg := { s.closeRun.ldg with run := some ⟨a, bs⟩ } }
    | none => { s with ldg := { s.ldg with run := some ⟨a, bs⟩ } }
  match t.ldg.run with
  | some r => if runLimit ≤ r.data.length then t.closeRun else t
  | none => t

/-- A host write through BAR2 (R342, R308); only HBM takes it (R157), in the host window's slots where the HBM plan gives it some (R171). -/
def State.bar2Write (s : State) (off : Nat) (data : List Byte) : State :=
  let a := s.f .HST_BAR2_OFF_OFF * 2 ^ 30 + off
  if 2 ^ s.hst.bar2 < off + data.length ∨ hbmBytes < a + data.length ∨ data = [] then s
  else (if s.slotted .host (stackOf a) then s.hbmWait .host a data.length (.write a data) else s.wrBytes a data).addRun a data

/-- HOST_WRITE_RUN_CLOSE (R308). -/
def execHostWriteRunClose (s : State) : Out := .next s.closeRun

/-- The target, length and STORED payload of replay entry i (R307, R314). -/
def State.rplPayload (s : State) (i : Nat) : Nat × List Byte :=
  let b := s.rplBytes i
  (leAt b 40 6, s.rdFar (s.f .LDG_RPL_CFG_HOST == 1) (s.f .LDG_RPL_PAY_BASE_BASE * 65536 + leAt b 48 5) (leAt b 20 4))

/-- REPLAY_FEED (R314): the stored HOST_WRITE or BATCH at the cursor is fed, recorded with FED, and completes a PUT_BATCH. -/
def execReplayFeed (s : State) : Out :=
  let i := s.rplCursor
  let b := s.rplBytes i
  let k := (byteAt b 18).toNat % 128
  if s.f .LDG_CTRL_MODE = ldgFeed ∧ i < s.f .LDG_RPL_CFG_COUNT ∧ (k = 1 ∨ k = 2) ∧ (byteAt b 53).toNat % 2 = 1 then
    let p := s.rplPayload i
    let t := (s.wrBytes p.1 p.2).ldgAppend
      { kind := k, src := 0, len := p.2.length, digest := tlBytes p.2, target := p.1, detail := leAt b 56 4, fed := true } p.2
    let t1 := (t.bump .LDG_CNT_FED_COUNT).rplAdvance i
    .next (if k = 2 then ({ t1 with ldg := { t1.ldg with batch := none } } : State).ok 0x0030 else t1)
  else .next s

/-- A read of LDG_WALL_NS by master m (R311, R314): the live wall time, or in FEED that of the WALL_READ entry at the cursor. -/
def State.ldgWallRead (s : State) (m : Master) : State :=
  let i := s.rplCursor
  let b := s.rplBytes i
  let fed := s.f .LDG_CTRL_MODE = ldgFeed ∧ i < s.f .LDG_RPL_CFG_COUNT ∧ (byteAt b 18).toNat % 128 = 4
  if fed then
    let w := (leAt b 8 6, leAt b 14 4 % 2 ^ 30)
    let t := (s.ldgAppendAt { kind := 0x04, src := m.toNat, fed := true } w []).bump .LDG_CNT_FED_COUNT
    (((t.setF .LDG_WALL_S_S 0 w.1).setF .LDG_WALL_NS_NS 0 w.2).rplAdvance i).answer m w.2
  else
    let t := s.ldgInput { kind := 0x04, src := m.toNat }
    ((t.setF .LDG_WALL_S_S 0 s.wall.1).setF .LDG_WALL_NS_NS 0 s.wall.2).answer m s.wall.2

/-- LDG_WALL_NS_READ (R311). -/
def execLdgWallNsRead (m : Master) (s : State) : Out := .next (s.ldgWallRead m)

/-- Change the ledger mode (R313): refused into FEED or VERIFY while a job runs; an accepted change records a MODE entry and
sets the cursors to 0; a replay ledger without an entry to handle ends at once (R317). The mode in force is no change. -/
def State.setLdgMode (s : State) (mode : Nat) : State :=
  if mode = s.f .LDG_CTRL_MODE then s
  else if ldgFeed ≤ mode ∧ s.jobRuns = true then s.setF .LDG_STATUS_MODE_REFUSED 0 1
  else
    let e : LdgEntry := { kind := 0x0C, src := 0, detail := mode }
    let t := (if mode = ldgOff then (s.ldgAppend e).setF .LDG_CTRL_MODE 0 mode else (s.setF .LDG_CTRL_MODE 0 mode).ldgAppend e).rplRewind
    if ldgFeed ≤ mode then t.rplSettle else t

/-- Write a field when the value is no reserved encoding (R14). -/
def State.setIf (s : State) (ok : Bool) (fl : Fld) (v : Nat) : State := if ok then s.setF fl 0 v else s

/-- The ring registers from the parameter block of LEDGER_MODE (13, command table). -/
def State.setRings (s : State) (ws : List Word) : State :=
  let w := fun i => (ws.getD i 0).toNat
  let s1 := (s.setF .LDG_RING_BASE_BASE 0 (w 0 / 65536)).setIf (inRange (w 1 % 32) 10 24) .LDG_RING_CFG_LOG2 (w 1)
  let s2 := (s1.setF .LDG_RING_CFG_HOST 0 (w 1 / 256)).setF .LDG_PAY_BASE_BASE 0 (w 2 / 65536)
  let s3 := (s2.setIf (inRange (w 3 % 64) 20 40) .LDG_PAY_CFG_LOG2 (w 3)).setF .LDG_PAY_CFG_HOST 0 (w 3 / 256)
  let s4 := (s3.setF .LDG_RPL_BASE_BASE 0 (w 4 / 65536)).setF .LDG_RPL_PAY_BASE_BASE 0 (w 5 / 65536)
  let s5 := (s4.setIf (inRange (w 6 % 32) 10 24) .LDG_RPL_CFG_LOG2 (w 6)).setF .LDG_RPL_CFG_HOST 0 (w 6 / 256)
  s5.setF .LDG_RPL_CFG_COUNT 0 (w 6 / 2 ^ 32)

/-- LEDGER_MODE (R313; 13, command table). -/
def execLedgerMode (mode : BitVec 2) (payMask : BitVec 16) (stop : BitVec 32) (rings : Option (List Word)) (s : State) : Out :=
  if 2 ≤ mode.toNat ∧ mode.toNat ≠ s.f .LDG_CTRL_MODE ∧ s.jobRuns = true then .next ((s.setLdgMode mode.toNat).refuse 0x0031 0x07)
  else
    let s1 := match rings with
      | some ws => s.setRings ws
      | none => s
    .next (((s1.setFs [(.LDG_CTRL_PAY_MASK, payMask.toNat), (.LDG_RPL_STOP_SEQ, stop.toNat)]).setLdgMode mode.toNat).ok 0x0031)

/-- PUT_BATCH (R314; 13, command table): the arguments are checked and the batch is outstanding until its data has landed. -/
def execPutBatch (_host target : BitVec 64) (len batch : BitVec 32) (s : State) : Out :=
  if len.toNat = 0 ∨ len.toNat % 64 ≠ 0 ∨ 2 ^ 30 < len.toNat ∨ hbmBytes < target.toNat + len.toNat then .next (s.refuse 0x0030 0x0A)
  else .next (({ s with ldg := { s.ldg with batch := some (target.toNat, len.toNat, batch.toNat) } } : State).markStarted 0x0030 false)

/-- Whether FEED supplies the batch, so that the command reads no host data: it does unless the cursor stands at a BATCH whose payload the replay
ledger lacks (R314). -/
def State.batchFed (s : State) : Bool :=
  let b := s.rplBytes s.rplCursor
  s.f .LDG_CTRL_MODE == ldgFeed && !(decide (s.rplCursor < s.f .LDG_RPL_CFG_COUNT) && (byteAt b 18).toNat % 128 == 2 && (byteAt b 53).toNat % 2 == 0)

/-- BATCH_LANDED (R306): the host data lies in HBM, the BATCH entry is recorded, the command completes. -/
def execBatchLanded (data : List Byte) (s : State) : Out :=
  match s.ldg.batch with
  | none => .next s
  | some (target, len, batch) =>
    if s.batchFed then .next s else
    let bs := (List.range len).map (byteAt data)
    let t := (s.wrBytes target bs).ldgInput { kind := 0x02, src := 0, len := len, digest := tlBytes bs, target := target, detail := batch } bs
    .next (({ t with ldg := { t.ldg with batch := none } } : State).ok 0x0030)

end Sys2Proof.Machine
end

