-- ==== Sys2Proof/Machine/WgtOps.lean ====
section
/-!
DEFINITION. The weight manager (R288-R299): the region and shard tables as HBM holds them, bank and shard states, and the arrival of
crier pieces.
-/
namespace Sys2Proof.Machine

/-! ### Tables (R288, R289) -/

/-- The n-byte value at offset o of region r's entry. -/
def State.rgnField (s : State) (r o n : Nat) : Nat := leVal (s.rdBytes (s.f .WGT_TABLE_BASE_BASE * 65536 + 256 * r + o) n)

/-- DELTA of region r. -/
def State.rgnDelta (s : State) (r : Nat) : Nat := s.rgnField r 8 8

/-- Extent k of region r: bank A base and granule count. -/
def State.rgnExtent (s : State) (r k : Nat) : Nat × Nat := (s.rgnField r (32 + 16 * k) 8, s.rgnField r (40 + 16 * k) 8)

/-- The chip-local address of granule g of a bank of region r: the first extent whose cumulative count exceeds g (R289). -/
def State.rgnAddr (s : State) (r bank g : Nat) : Nat :=
  let p := (List.range 12).foldl (fun (a : Nat × Option Nat) k =>
    match a.2 with
    | some _ => a
    | none =>
      let e := s.rgnExtent r k
      if g < a.1 + e.2 then (a.1, some (e.1 + 512 * (g - a.1))) else (a.1 + e.2, none)) (0, none)
  (p.2.getD 0) + bank * s.rgnDelta r

/-- An entry of the shard table (R288). -/
structure ShardEnt where
  id : Nat
  region : Nat
  off : Nat
  len : Nat
  digest : Nat
  deriving DecidableEq, Repr

/-- The number of shards of the table. -/
def State.shardCount (s : State) : Nat := sumTo 32 (fun r => s.f .WGT_RGN_CFG_SHARDS r)

/-- Entry i of the shard table. -/
def State.shardEnt (s : State) (i : Nat) : ShardEnt :=
  let b := s.rdBytes (s.f .WGT_TABLE_BASE_BASE * 65536 + 0x2000 + 32 * i) 32
  ⟨leAt b 0 4, leAt b 4 1 % 32, leAt b 8 4, leAt b 12 4, leAt b 16 16⟩

/-- The shards of region r in table order; a shard's place here is its index within the region. -/
def State.shardsOf (s : State) (r : Nat) : List ShardEnt := ((List.range s.shardCount).map s.shardEnt).filter (fun e => e.region == r)

/-- The key of shard idx of a bank of region r. -/
def shardKey (r bank idx : Nat) : Nat := (2 * r + bank) * 2 ^ 18 + idx

/-- A shard's state. -/
def State.shard (s : State) (r bank idx : Nat) : ShardSt := Map.get ShardSt.reset s.wgt.shards (shardKey r bank idx)

/-- Write a shard's state. -/
def State.setShard (s : State) (r bank idx : Nat) (x : ShardSt) : State :=
  { s with wgt := { s.wgt with shards := Map.set ShardSt.reset s.wgt.shards (shardKey r bank idx) x } }

/-- Every shard of a bank becomes ABSENT (R299). -/
def State.absentBank (s : State) (r bank : Nat) : State :=
  { s with wgt := { s.wgt with shards := Map.keep (fun k => k / 2 ^ 18 != 2 * r + bank) s.wgt.shards } }

/-! ### Banks (R299) -/

abbrev bkFree := 0
abbrev bkLoading := 1
abbrev bkLoaded := 2
abbrev bkArmed := 3
abbrev bkActive := 4
abbrev bkDraining := 5
abbrev bkBad := 6

/-- The state of a bank. -/
def State.bank (s : State) (r b : Nat) : Nat := if b = 0 then s.f .WGT_RGN_STATE_A r else s.f .WGT_RGN_STATE_B r

/-- Write the state of a bank; one that becomes LOADED interrupts CTL0 when LOADED_IRQ_EN is set (R299). -/
def State.setBank (s : State) (r b st : Nat) : State :=
  let t := if b = 0 then s.setF .WGT_RGN_STATE_A r st else s.setF .WGT_RGN_STATE_B r st
  t.irqMasterIf (st == bkLoaded && s.bank r b != bkLoaded && s.f .WGT_CTRL_LOADED_IRQ_EN == 1) .weight

/-- Record a BAD shard (R298, R304): the first in WGT_BAD. -/
def State.recordBad (s : State) (r b idx src : Nat) : State :=
  let t := (s.bump .WGT_CNT_BAD_COUNT).irqMasterIf (s.f .WGT_CTRL_BAD_IRQ_EN == 1) .weight
  if s.f .WGT_BAD_VALID = 1 then t.setF .WGT_BAD_OVERRUN 0 1
  else t.setFs [(.WGT_BAD_SHARD, idx), (.WGT_BAD_REGION, r), (.WGT_BAD_BANK, b), (.WGT_BAD_SOURCE, src), (.WGT_BAD_VALID, 1)]

/-- A shard becomes BAD on arrival; its bank becomes BAD (R298, R299). -/
def State.badShard (s : State) (r b idx : Nat) : State :=
  ((s.setShard r b idx { s.shard r b idx with st := 3 }).recordBad r b idx 0).setBank r b bkBad

/-- The bytes of a shard in a bank. -/
def State.shardBytes (s : State) (r b : Nat) (e : ShardEnt) : List Byte :=
  (List.range e.len).flatMap (fun g => s.rdBytes (s.rgnAddr r b (e.off + g)) 512)

/-- A shard becomes LOADED: the SHARD entry, its bytes the input that R310 stores, and the bank once it was the last (R298, R299). -/
def State.loadedShard (s : State) (r b idx : Nat) (e : ShardEnt) : State :=
  let t := ((s.setShard r b idx { s.shard r b idx with st := 2 }).bump .WGT_CNT_LOADED_COUNT).ldgInput
    { kind := 0x09, src := 0, len := 512 * e.len, digest := e.digest, target := r + 256 * b, detail := e.id } (s.shardBytes r b e)
  if t.bank r b = bkLoading ∧ (List.range (t.shardsOf r).length).all (fun i => (t.shard r b i).st == 2) then t.setBank r b bkLoaded
  else t

/-- Shards LOADING on this chip. -/
def State.loadingShards (s : State) : Nat := (s.wgt.shards.filter (fun p => p.2.st == 1)).length

/-! ### Arrival (R297, R298) -/

/-- The piece a header granule announces (R295). -/
structure PieceHdr where
  id : Nat
  region : Nat
  bank : Nat
  index : Nat
  valid : Nat
  off : Nat
  deriving DecidableEq, Repr

/-- Read a piece header (R295). -/
def pieceHdr (b : List Byte) : PieceHdr := ⟨leAt b 0 4, leAt b 4 1, leAt b 5 1, leAt b 8 4, leAt b 12 4, leAt b 16 4⟩

/-- Whether the weight manager accepts a piece, of a shard at index idx of its region, in pieces of vlen granules (R297, R298). -/
def State.pieceOk (s : State) (h : PieceHdr) (idx : Option Nat) (vlen : Nat) : Bool :=
  match idx with
  | none => false
  | some i =>
    let e := (s.shardsOf h.region).getD i ⟨0, 0, 0, 0, 0⟩
    let x := s.shard h.region h.bank i
    h.region < 32 && h.bank < 2 && s.f .WGT_RGN_CFG_VALID h.region == 1
      && !(s.bank h.region h.bank == bkArmed || s.bank h.region h.bank == bkActive || s.bank h.region h.bank == bkDraining)
      && h.off == e.off + h.index * (vlen - 1)
      && (if h.index = 0 then decide (s.loadingShards < 64) else x.st == 1 && h.index == x.next)

/-- A piece's header arrives: accepted, or discarded and counted (R297). The second part is how its granules land. -/
def State.pieceStart (s : State) (hdr : List Byte) (vlen : Nat) : State × PieceIn :=
  let h := pieceHdr hdr
  let idx := (s.shardsOf h.region).findIdx? (fun e => e.id == h.id)
  let i := idx.getD 0
  if s.pieceOk h idx vlen then
    let s1 := if s.bank h.region h.bank = bkFree then s.absentBank h.region h.bank else s
    let s2 := s1.setBank h.region h.bank bkLoading
    let x := s2.shard h.region h.bank i
    let y : ShardSt := if h.index = 0 then ⟨1, 0, 0, 1⟩ else { x with next := x.next + 1 }
    (s2.setShard h.region h.bank i y, ⟨true, h.region, h.bank, i, h.off, h.valid⟩)
  else
    let t := s.bump .WGT_CNT_REJECT_COUNT
    (if idx.isSome ∧ (s.shard h.region h.bank i).st = 1 then t.badShard h.region h.bank i else t,
      ⟨false, h.region, h.bank, i, h.off, h.valid⟩)

/-- Data granule g (from 1) of a piece lands: written, folded into the running digest, and the shard verified with its last granule
(R297, R298). Granules beyond VALID are not written. -/
def State.pieceGranule (s : State) (p : PieceIn) (g : Nat) (bs : List Byte) : State :=
  if p.ok = false ∨ g = 0 ∨ p.valid < g then s
  else
    let s1 := s.wrBytes (s.rgnAddr p.region p.bank (p.off + g - 1)) bs
    let x := s1.shard p.region p.bank p.idx
    if x.st ≠ 1 then s1
    else
      let d := (List.range 32).foldl (fun d i => gmul (Nat.xor d (leAt bs (16 * i) 16)) tlH) x.digest
      let n := x.count + 1
      let s2 := s1.setShard p.region p.bank p.idx { x with digest := d, count := n }
      let e := (s2.shardsOf p.region).getD p.idx ⟨0, 0, 0, 0, 0⟩
      if n < e.len then s2
      else if gmul (Nat.xor d (32 * n)) tlH = e.digest then s2.loadedShard p.region p.bank p.idx e
      else s2.badShard p.region p.bank p.idx

/-- Granule g of a vector of a SPACE 2 flow, or of the root's own copy, under key k (R295). -/
def State.pieceLand (s : State) (k g vlen : Nat) (bs : List Byte) : State :=
  let put := fun (t : State) (p : Option PieceIn) => ({ t with wgt := { t.wgt with pieces := Map.set none t.wgt.pieces k p } } : State)
  if g = 0 then
    let r := s.pieceStart bs vlen
    put r.1 (some r.2)
  else
    match Map.get none s.wgt.pieces k with
    | some p => s.pieceGranule p g bs
    | none => s

end Sys2Proof.Machine
end

