-- ==== Sys2Proof/Machine/Fabric.lean ====
section
/-!
DEFINITION. Table sets, pages and flow descriptors (R211-R221), the transit store and the holding area (R225, R227), landings (R224,
R255-R258), and permits (R226).
-/
namespace Sys2Proof.Machine

/-! ### Descriptors (R218) -/

abbrev Desc := Nat
abbrev dKind (d : Desc) : Nat := field d 0 4
abbrev dPermits (d : Desc) : Nat := field d 4 4
abbrev dCore (d : Desc) : Nat := field d 8 7
abbrev dTrig (d : Desc) : Bool := bit d 15
abbrev dDisp (d : Desc) : Bool := bit d 16
abbrev dTally (d : Desc) : Bool := bit d 17
abbrev dEven (d : Desc) : Bool := bit d 18
abbrev dEv (d : Desc) : Nat := field d 19 4
abbrev dOp (d : Desc) : Nat := field d 23 3
abbrev dSpace (d : Desc) : Nat := field d 26 2
abbrev dPneed (d : Desc) : Nat := field d 28 4
/-- Vector length in granules. -/
abbrev dVlen (d : Desc) : Nat := field d 32 16 + 1
abbrev dTal (d : Desc) : Nat := field d 48 16
abbrev dAddr (d : Desc) : Nat := field d 64 44
abbrev dRetChip (d : Desc) : Nat := field d 108 15
/-- Granules per row. -/
abbrev dRow (d : Desc) : Nat := field d 128 16 + 1
abbrev dStride (d : Desc) : Int := signed 32 (field d 144 32)
abbrev dRetLink (d : Desc) : Nat := field d 176 6
abbrev dTrOff (d : Desc) : Nat := field d 192 16
abbrev dTrHalf (d : Desc) : Nat := field d 208 1
abbrev dFanout (d : Desc) : Nat := field d 209 4
abbrev dRetFlow (d : Desc) : Nat := field d 216 12
abbrev dSlotG (d : Desc) : Nat := field d 228 16

abbrev kPut := 0x1
abbrev kAcc := 0x2
abbrev kMcast := 0x3
abbrev kLand := 0x8
abbrev kLandFwd := 0x9
abbrev kFwd := 0xA

/-- Whether every reserved bit of a descriptor is zero (R218, R221). -/
def dReserved (d : Desc) : Bool :=
  field d 123 5 == 0 && field d 182 10 == 0 && field d 213 3 == 0 && field d 244 12 == 0

/-- The address of granule g of slot v (R220). -/
def dGran (d : Desc) (v g : Nat) : Int :=
  (dAddr d : Int) + (v * dSlotG d * 512 : Nat) + ((g / dRow d : Nat) : Int) * dStride d + (g % dRow d * 512 : Nat)

/-- The transit granule of granule g of slot v, as a key of `State.transit` (R220). -/
def dTransit (d : Desc) (v g : Nat) : Nat := dTrHalf d * 65536 + dTrOff d + v * dVlen d + g

/-- The number of bound cores. -/
def State.ncore (s : State) : Nat := s.boundCores.length

/-- Whether every granule of every slot lies in the space the descriptor names (R221). -/
def State.dInside (s : State) (d : Desc) (tx : Bool) : Bool :=
  let top := if dSpace d = 1 then hbmBytes
    else if tx then storeBytes
    else ((s.physical (dCore d)).map s.progStart).getD 0
  (List.range (dPermits d)).all (fun v => (List.range (dVlen d)).all (fun g =>
    decide (0 ≤ dGran d v g ∧ dGran d v g + 512 ≤ (top : Int))))

/-- Whether a descriptor passes the check of R221 in the transmit or receive set. -/
def State.dOk (s : State) (d : Desc) (tx : Bool) : Bool :=
  let k := dKind d
  (if tx then k == kPut || k == kAcc || k == kMcast else k == kLand || k == kLandFwd || k == kFwd)
    && decide (dOp d ≤ 4) && decide (dSpace d ≤ 2)
    && (dSpace d != 2 || ((k == kLand || k == kLandFwd) && dOp d == 0 && dAddr d == 0 && decide (2 ≤ dVlen d ∧ dVlen d ≤ 4096)))
    && decide (1 ≤ dPermits d) && (!(k == kPut || k == kAcc) || decide (1 ≤ dPneed d))
    && (!(dSpace d == 0 || !dTrig d) || decide (dCore d < s.ncore))
    && dAddr d % 512 == 0 && decide (dStride d % 512 = 0)
    && (k == kMcast || k == kFwd || dSpace d == 2 || s.dInside d tx)
    && (!(k == kMcast || k == kFwd || k == kLandFwd) || decide (dTrOff d + dPermits d * dVlen d ≤ 63488))
    && (!(k == kFwd || k == kLandFwd) || decide (1 ≤ dFanout d))
    && dReserved d

/-! ### Links, table sets and pages (R211-R217) -/

abbrev lkOff := 0
abbrev lkDetect := 1
abbrev lkFull := 2
abbrev lkFast := 3
abbrev lkHand := 4
abbrev lkUp := 5
abbrev lkRefused := 6

/-- Link n is UP. -/
def State.up (s : State) (n : Nat) : Bool := s.f .LNK_STATUS_STATE n == lkUp

/-- The clock region of link n's port (02, "Clock regions"). -/
def linkRegion (n : Nat) : Nat := if n < 16 then 16 else if n < 32 then 18 else if n < 48 then 17 else 19

/-- The transit half of link n's port die. -/
def linkHalf (n : Nat) : Nat := if linkRegion n = 16 ∨ linkRegion n = 17 then 0 else 1

/-- The region of link n's port is not stopped (R44). -/
def State.portRuns (s : State) (n : Nat) : Bool := s.f .CLK_RGN_STATUS_STOPPED (linkRegion n) == 0

/-- The bell set in force at bell b: the decided one from its commit bell on (R51), the previous one before the last commit. -/
def State.setAt (s : State) (b : Nat) : Nat × Nat × Nat :=
  let now := match s.bel.prev with
    | some (c, us, len, org) => if b < c then (us, len, org) else (s.f .BEL_ACTIVE_US, s.roundLen, s.bel.origin)
    | none => (s.f .BEL_ACTIVE_US, s.roundLen, s.bel.origin)
  match s.bel.decided, s.bel.commit with
  | some x, some c => if c ≤ b then (x.us, x.len, x.origin) else now
  | _, _ => now

/-- The round position of bell b, under the round structure in force there. -/
def State.posAt (s : State) (b : Nat) : Nat :=
  let x := s.setAt b
  (((b : Int) - (x.2.2 : Int)) % ((max x.2.1 1 : Nat) : Int)).toNat

/-- The table sets of link n in force at bell b (R242). -/
def State.setsAt (s : State) (n b : Nat) : TableSets :=
  let act := s.f .STL_ACT_REQ n + 64 * s.f .STL_ACT_RPL n + 4096 * s.f .STL_ACT_CTL n + 262144 * s.f .STL_ACT_AWN n
  let active : TableSets := ⟨(s.link n).live, s.f .STL_TXBASE_ACT_BASE n * 65536, s.f .STL_RXBASE_ACT_BASE n * 65536, act⟩
  let now := match (s.link n).prev with
    | some (c, old) => if b < c then old else active
    | none => active
  match (s.link n).base with
  | some (c, new) => if c ≤ b then new else now
  | none => now

/-- The stalls of the plan span of bell b on link n: the first stall after it (R211). -/
def State.spanEnd (s : State) (n b : Nat) : Nat :=
  let l := (s.setAt b).1
  l * 200 - field (s.setsAt n b).cfg 18 6 * l

/-- The built-in page (R410). -/
def State.builtIn (s : State) (n b : Nat) : List Run :=
  let l := (s.setAt b).1
  let c := (s.setsAt n b).cfg
  [⟨3, field c 12 6 * l, 0⟩, ⟨1, field c 0 6 * l, 0⟩, ⟨2, field c 6 6 * l, 0⟩]

/-- The runs of a page before END, as 32-bit words (R215). -/
def pageWords (bs : List Byte) : List Nat := ((List.range 256).map (fun i => leAt bs (4 * i) 4)).takeWhile (fun w => field w 24 3 != 7)

/-- A run from its word. -/
def runOf (w : Nat) : Run := ⟨field w 24 3, field w 12 12, field w 0 12⟩

/-- Whether a page passes the check of R217 for bell b of link n. -/
def State.pageOk (s : State) (n b : Nat) (ws : List Nat) : Bool :=
  let l := (s.setAt b).1
  let c := (s.setsAt n b).cfg
  let rs := ws.map runOf
  let total := fun k => ((rs.filter (fun r => r.kind == k)).map (·.len)).sum
  ws.all (fun w => field w 27 5 == 0) && rs.all (fun r => decide (r.kind ≤ 4 ∧ 1 ≤ r.len) && (r.kind == 0 || r.flow == 0))
    && decide ((rs.map (·.len)).sum + 1 ≤ s.spanEnd n b)
    && total 1 == field c 0 6 * l && total 2 == field c 6 6 * l && total 3 == field c 12 6 * l

/-- The page number of bell b in the set at base: the round-map entry at the bell's round position (R213). -/
def State.pageNo (s : State) (base b : Nat) : Nat := leVal (s.rdBytes (base + 2 * s.posAt b) 2) % 4096

/-- The run that holds stall k, and whether k is the run's first stall. -/
def runAt : List Run → Nat → Nat → Option (Run × Bool)
  | [], _, _ => none
  | r :: rs, first, k => if first ≤ k ∧ k < first + r.len then some (r, k == first) else runAt rs (first + r.len) k

/-- What a page assigns to stall k. -/
def planAt (page : List Run) (k : Nat) : Option Run := (runAt page 1 k).map (·.1)

/-- The first control stall of a page (R229). -/
def firstControl (page : List Run) : Option Nat :=
  (page.foldl (fun (a : Nat × Option Nat) r => (a.1 + r.len, a.2.orElse (fun _ => if r.kind = 3 ∧ 0 < r.len then some a.1 else none))) (1, none)).2

/-- The page of bell b in a cache. -/
def cached (c : List (Nat × List Run)) (b : Nat) : Option (List Run) := (c.find? (fun p => p.1 == b)).map (·.2)

/-- The transmit page of bell b: the built-in one until a table set is committed (R410), otherwise the cached one; none while it is not
loaded. -/
def State.txPage (s : State) (n b : Nat) : Option (List Run) :=
  if (s.setsAt n b).live then cached (s.link n).txPages b else some (s.builtIn n b)

/-- The receive page of bell b. -/
def State.rxPage (s : State) (n b : Nat) : Option (List Run) :=
  if (s.setsAt n b).live then cached (s.link n).rxPages b else some (s.builtIn n b)

/-! ### Flows -/

/-- Transmit flow f of link n. -/
def State.tflow (s : State) (n f : Nat) : TFlow := Map.get TFlow.reset (s.link n).tflows f

/-- Write transmit flow f of link n. -/
def State.setTflow (s : State) (n f : Nat) (x : TFlow) : State :=
  s.modLink n (fun l => { l with tflows := Map.set TFlow.reset l.tflows f x })

/-- Receive flow f of link n. -/
def State.rflow (s : State) (n f : Nat) : RFlow := Map.get RFlow.reset (s.link n).rflows f

/-- Write receive flow f of link n. -/
def State.setRflow (s : State) (n f : Nat) (x : RFlow) : State :=
  s.modLink n (fun l => { l with rflows := Map.set RFlow.reset l.rflows f x })

/-- The HBM address of flow f's descriptor in the set at base (R213). -/
def descPlace (base f : Nat) : Nat := base + 0x402000 + 32 * f

/-- The descriptor of flow f in the set at base. -/
def State.descAt (s : State) (base f : Nat) : Desc := leVal (s.rdBytes (descPlace base f) 32)

/-- The descriptor of transmit flow f in the set in force on link n, when it passes its check (R221, R244). -/
def State.txDesc (s : State) (n f : Nat) : Option Desc :=
  let x := s.setsAt n s.now
  if x.live && s.dOk (s.descAt x.tx f) true then some (s.descAt x.tx f) else none

/-- The descriptor of receive flow f in the set in force on link n, when it passes its check (R221, R244). -/
def State.rxDesc (s : State) (n f : Nat) : Option Desc :=
  let x := s.setsAt n s.now
  if x.live && s.dOk (s.descAt x.rx f) false then some (s.descAt x.rx f) else none

/-- The permits of a transmit flow at load: PERMITS times PNEED (R222); their count saturates at 8 bits (R16). -/
def loadPermits (d : Desc) : Nat := min (dPermits d * dPneed d) 255

/-- Load the descriptor of a transmit flow and check it (R216, R221): its words are read with their code (R175). A flow met for the first time
takes its load values, beside the permits that have come (R222). -/
def State.loadTx (s : State) (n base f : Nat) : State :=
  let d := s.descAt base f
  let ok := s.dOk d true
  let x := s.tflow n f
  let y := if x.loaded then { x with desc := d, refused := !ok }
    else { x with desc := d, refused := !ok, loaded := true, permits := min (loadPermits d + x.permits) 255 }
  let t := (s.eccScan (descPlace base f) 32).setTflow n f y
  if ok then t
  else (t.setF .STL_STATUS_DESC_BAD n 1).irqMasterIf (s.f .STL_CTRL_BAD_IRQ_EN n == 1) (.link n)

/-- Load the descriptor of a receive flow and check it. -/
def State.loadRx (s : State) (n base f : Nat) : State :=
  let d := s.descAt base f
  let ok := s.dOk d false
  let t := (s.eccScan (descPlace base f) 32).setRflow n f { s.rflow n f with desc := d, refused := !ok, loaded := true }
  if ok then t
  else (t.setF .STL_STATUS_DESC_BAD n 1).irqMasterIf (s.f .STL_CTRL_BAD_IRQ_EN n == 1) (.link n)

/-- A flow that a PUT names before any page did has its descriptor loaded. -/
def State.needTx (s : State) (n f : Nat) : State :=
  let x := s.setsAt n s.now
  if (s.tflow n f).loaded || !x.live then s else s.loadTx n x.tx f

/-! ### Permits (R226) -/

/-- Entries of a port's permit queue (R226). -/
abbrev permitCap := 4096

/-- Queue a permit on a link, merged into a waiting entry with the same destination; one that finds the queue full is lost (log entry 75). -/
def addPermit (ps : List Permit) (p : Permit) : List Permit :=
  if ps.any (fun q => q.chip == p.chip && q.link == p.link && q.flow == p.flow) then
    ps.map (fun q => if q.chip = p.chip ∧ q.link = p.link ∧ q.flow = p.flow then { q with count := q.count + p.count } else q)
  else if ps.length < permitCap then ps ++ [p] else ps

/-- The next link of the open route table towards a chip (R237). -/
def State.routeOf (s : State) (chip : Nat) : Option Nat :=
  let b := (s.rdByte (s.f .OPN_ROUTE_ACT_BASE * 65536 + chip)).toNat
  if bit b 7 then some (b % 64) else none

/-- A permit reaches its port: the named flow gains permits (R226); their count saturates at 8 bits (R16). -/
def State.gainPermit (s : State) (link flow k : Nat) : State :=
  let x := s.tflow link flow
  s.setTflow link flow { x with permits := min (x.permits + k) 255, moved := true }

/-- Send a permit towards its chip: back on the landing link when that chip is its peer, else by the open route table; with no valid route it
is discarded and counted (R226). A permit for this chip's own flow is taken here (log entry 31). -/
def State.sendPermit (s : State) (on : Option Nat) (p : Permit) : State :=
  if p.chip = s.chipAddr then s.gainPermit p.link p.flow p.count
  else
    let direct := on.filter (fun n => (s.link n).peer == some p.chip)
    match direct.orElse (fun _ => s.routeOf p.chip) with
    | some n => s.modLink n (fun l => { l with permits := addPermit l.permits p })
    | none => s.bump .OPN_CNT_ROUTE_COUNT

/-! ### Accumulation (R256, R257) -/

/-- Combine an incoming element with the target's (R256): booked OP 1 to 4. -/
def combine (op x v : Nat) : Nat :=
  if op = 1 then fp32.rne ((fp32.decode x).add (fp32.decode v))
  else if op = 2 then
    match elemOf 0x6 with
    | some e => (e.conv .rne ((e.decode x).add (e.decode v))).code
    | none => x
  else if op = 3 then (x + v) % 2 ^ 32
  else wpAdd x v

/-- Bytes of an element of a landing operation. -/
def opBytes (op : Nat) : Nat := if op = 2 then 2 else if op = 4 then 12 else 4

/-- The bytes of a target after an accumulating landing of n elements; bytes beyond them stay as they are (R257). -/
def accumulate (op n : Nat) (old new : List Byte) : List Byte :=
  let w := opBytes op
  (List.range n).flatMap (fun i => leBytes w (combine op (leAt old (w * i) w) (leAt new (w * i) w))) ++ old.drop (w * n)

/-- Elements of a booked granule (R257). -/
def opCount (op : Nat) : Nat := if op = 2 then 256 else if op = 4 then 42 else 128

/-! ### Landing -/

/-- 512 zero bytes. -/
def zeros512 : List Byte := List.replicate 512 0

/-- Complete the booked GETs of core c whose flow holds a whole vector (R247): their data has landed. -/
def Core.getsDone (k : Core) (link flow : Nat) : Core :=
  { k with porter := k.porter.map (fun p => (p.1, p.2.map (fun o =>
      if o.kind = .get ∧ o.booked ∧ o.link = link ∧ o.flow = flow then { o with readDone := true } else o))) }

/-- A granule of a vector of a flow with descriptor d has been written: once all have, the vector has landed: the event, and booked GETs (R224,
R247). -/
def State.vectorGranule (s : State) (n f v : Nat) (d : Desc) : State :=
  let x := s.rflow n f
  let g := Map.get 0 x.got v + 1
  if g < dVlen d then s.setRflow n f { x with got := Map.set 0 x.got v g, moved := true }
  else
    let t := s.setRflow n f { x with got := Map.set 0 x.got v 0, whole := setBit x.whole v true, moved := true }
    match s.physical (dCore d) with
    | some c =>
      let t1 := if dEven d then t.deliver c (dEv d) else t
      if dKind d = kFwd ∨ v ≠ x.rel then t1 else t1.modCore c (fun k => k.getsDone n f)
    | none => t

/-- Write a granule to the core store: an OP 0 landing sets the tag, and the nil bit for NIL; OP 1 to 4 combine, set the tag and clear the
nil bit, or for NIL only set the tag (R123, R189, R224, R258). -/
def State.landStore (s : State) (c a op : Nat) (bs : List Byte) (nil : Bool) : State :=
  s.modCore c (fun k =>
    let g := a / 512
    if op = 0 then (k.put a bs).setTag g true nil
    else if nil then k.setTag g true (bit (k.tag g) 1)
    else (k.put a (accumulate op (opCount op) (k.store.rdBytes a 512) bs)).setTag g true false)

/-- Write a granule to HBM (R224); an accumulating landing reads the target first (R175). -/
def State.landHbm (s : State) (a op : Nat) (bs : List Byte) (nil : Bool) : State :=
  if op = 0 then s.hbmWrite a bs
  else if nil then s
  else
    let r := s.hbmRead a 512
    r.2.hbmWrite a (accumulate op (opCount op) r.1 bs)

/-- Put a granule into the transit store (R227). -/
def State.putTransit (s : State) (k : Nat) (bs : List Byte) (nil : Bool) (fanout : Nat) : State :=
  { s with transit := Map.set none s.transit k (some ⟨bs, nil, fanout, []⟩) }

/-- Whether a transit granule is present. -/
def State.transitFull (s : State) (k : Nat) : Bool := (Map.get none s.transit k).isSome

/-- Fold a landed granule into its tensor (R320). -/
def State.landFold (s : State) (d : Desc) (f g : Nat) (bs : List Byte) : State :=
  if dTally d then s.foldGranule (dTal d) 2 (landKey g f (dTal d)) bs else s

/-- Whether granule g of slot v of a receive flow must wait: its tag (OP 0 in a core store) or its transit granule is present; an accumulating
landing waits for neither (R225, R258). -/
def State.mustHold (s : State) (d : Desc) (v g : Nat) : Bool × Bool :=
  let store := dKind d != kFwd && dSpace d == 0 && dOp d == 0 &&
    (match s.physical (dCore d) with
      | some c => bit ((s.core c).tag ((dGran d v g).toNat / 512)) 0
      | none => false)
  (store, (dKind d == kFwd || (dKind d == kLandFwd && dOp d == 0)) && s.transitFull (dTransit d v g))

/-- Write the local part of a landing, and count the granule. -/
def State.landLocal (s : State) (h : Held) : State :=
  let d := h.desc
  let a := (dGran d h.slot h.gran).toNat
  let t := if dKind d = kFwd then s
    else if dSpace d = 0 then
      match s.physical (dCore d) with
      | some c => s.landStore c a (dOp d) h.bytes h.nil
      | none => s
    else if dSpace d = 1 then s.landHbm a (dOp d) h.bytes h.nil
    else s.pieceLand (4096 * h.link + h.flow) h.gran (dVlen d) h.bytes
  t.vectorGranule h.link h.flow h.slot d

/-- Land a granule, nothing in its way (R224, R227): the tally, the transit granule at once; a write to HBM waits for the slots of the port. -/
def State.landGranule (s : State) (h : Held) : State :=
  let d := h.desc
  let s1 := s.landFold d h.flow h.gran h.bytes
  let s2 := if dKind d = kLand then s1 else s1.putTransit (dTransit d h.slot h.gran) h.bytes h.nil (dFanout d)
  let a := (dGran d h.slot h.gran).toNat
  if dKind d ≠ kFwd ∧ dSpace d = 1 ∧ s.slotted (.port h.link) (stackOf a) then s2.hbmWait (.port h.link) a 512 (.land h) else s2.landLocal h

/-- Frames a half of the holding area holds (R225). -/
abbrev holdCap := 2048

/-- Held frames of a half. -/
def State.heldIn (s : State) (h : Nat) : Nat := (s.holding.filter (fun x => x.half == h)).length

/-- A full holding area: the fault record and the stop of the step (R225, R100). -/
def State.holdFull (s : State) (n f g : Nat) : State :=
  let t := (((s.setF .STL_FAULT_FLOW n f).setF .STL_FAULT_GRANULE n g).setF .STL_FAULT_BELL n (s.now % 2 ^ 32)).setF .STL_STATUS_HOLD_FULL n 1
  ((t.irqMasterIf (s.f .STL_CTRL_HOLD_IRQ_EN n == 1) (.link n)).ldgFault 0x12 0x4 n).stopStep 0x2

/-- Land or hold granule g of slot v (R224, R225). A frame behind another held for the same granule is held too. -/
def State.landOrHold (s : State) (n f v g : Nat) (bs : List Byte) (nil : Bool) : State :=
  let d := (s.rflow n f).desc
  let w := s.mustHold d v g
  let place := if w.1 || !(dKind d == kFwd || dKind d == kLandFwd) then (dGran d v g).toNat / 512 else dTransit d v g
  let h : Held := ⟨linkHalf n, n, f, d, v, g, !w.1, (s.physical (dCore d)).getD 0, place, bs, nil⟩
  if w.1 || w.2 then
    if holdCap ≤ s.heldIn (linkHalf n) then s.holdFull n f g
    else ({ s with holding := s.holding ++ [h] } : State).bump .STL_CNT_HELD_COUNT n
  else s.landGranule h

/-- Whether a held frame may be written now: by the descriptor it came under. -/
def State.heldReady (s : State) (h : Held) : Bool :=
  let w := s.mustHold h.desc h.slot h.gran
  !w.1 && !w.2

/-- Write the oldest held frame whose granule is clear (R225). -/
def State.heldStep (s : State) : State :=
  match s.holding.find? s.heldReady with
  | none => s
  | some h => ({ s with holding := s.holding.erase h } : State).landGranule h

/-- Write held frames while granules are clear; each write sets its granule, so that one frame a granule is written. -/
def State.heldWrite (s : State) : State := upto s.holding.length (fun _ s => s.heldStep) s

/-- Discard the held frames that satisfy p, freeing their places; each adds 1 to STL_CNT_REFUSED of its link (R225). -/
def State.heldDrop (s : State) (p : Held → Bool) : State :=
  (s.holding.filter p).foldl (fun s h => s.bump .STL_CNT_REFUSED_COUNT h.link)
    { s with holding := s.holding.filter (fun h => !p h) }

/-- An MCAST flow takes a transit granule; the last of its FANOUT takers clears it, and a frame held for it is written (R225, R227). -/
def State.takeTransit (s : State) (k n f : Nat) : State :=
  match Map.get none s.transit k with
  | none => s
  | some t =>
    let ts := t.takers ++ [(n, f)]
    if t.fanout ≤ ts.length then ({ s with transit := Map.set none s.transit k none } : State).heldWrite
    else { s with transit := Map.set none s.transit k (some { t with takers := ts }) }

/-! ### RELEASE and PCLR (R83, R84) -/

/-- Clear the tags of n granules of core c from granule g; frames held for them are written (R84, R225). -/
def State.clearTags (s : State) (c g n : Nat) : State := (s.modCore c (fun k => k.clearTags g n)).heldWrite

/-- The descriptor of the receive flow a handle names, when it binds the flow to logical core l (R83, R244): a landing flow that did not fail its
check. -/
def State.boundRx (s : State) (l n f : Nat) : Bool :=
  match s.rxDesc n f with
  | some d => (dKind d == kLand || dKind d == kLandFwd) && dCore d == l
  | none => false

/-- Clear the current landing slot of a flow, advance it and queue one permit (R83, R226). -/
def State.release (s : State) (c n f : Nat) : State :=
  let x := s.rflow n f
  let d := (s.rxDesc n f).getD x.desc
  let rel := (x.rel + 1) % max (dPermits d) 1
  let s0 := s.setRflow n f { x with rel := rel, whole := setBit x.whole x.rel false }
  let s1 := if bit (s0.rflow n f).whole rel then s0.modCore c (fun k => k.getsDone n f) else s0
  let s2 := if dSpace d = 0 then
      (s1.modCore c (fun k => upto (dVlen d) (fun g k => k.setTag ((dGran d x.rel g).toNat / 512) false false) k)).heldWrite
    else s1
  s2.sendPermit (some n) ⟨dRetChip d, dRetLink d, dRetFlow d, 1⟩

end Sys2Proof.Machine
end

