-- ==== Sys2Proof/Machine/OpenOps.lean ====
section
/-!
DEFINITION. The open market (R233-R241): packets, routes, credit, and what a request does at its target (R248, R250, R254-R262).
-/
namespace Sys2Proof.Machine

/-! ### Packets (R233) -/

abbrev OpenPkt.dst (p : OpenPkt) : Nat := field p.w0 0 15
abbrev OpenPkt.afterG (p : OpenPkt) : Bool := bit p.w0 15
abbrev OpenPkt.src (p : OpenPkt) : Nat := field p.w0 16 15
abbrev OpenPkt.second (p : OpenPkt) : Bool := bit p.w0 31
abbrev OpenPkt.srcId (p : OpenPkt) : Nat := field p.w0 32 8
abbrev OpenPkt.cls (p : OpenPkt) : Nat := field p.w0 40 2
abbrev OpenPkt.op (p : OpenPkt) : Nat := field p.w0 42 6
/-- Payload bytes by the header. -/
abbrev OpenPkt.len (p : OpenPkt) : Nat := 4 * (field p.w0 48 11 + 1)
abbrev OpenPkt.addr (p : OpenPkt) : Nat := field p.w1 0 44
abbrev OpenPkt.tag (p : OpenPkt) : Nat := field p.w1 44 16

abbrev clsReq := 0
abbrev clsRpl := 1
abbrev clsCtl := 2

/-- A packet from this chip. -/
def State.mkPkt (s : State) (dst srcId cls op addr tag : Nat) (data : List Byte) : OpenPkt :=
  ⟨dst % 2 ^ 15 + s.chipAddr * 2 ^ 16 + srcId * 2 ^ 32 + cls * 2 ^ 40 + op * 2 ^ 42 + (data.length / 4 - 1) * 2 ^ 48,
    addr % 2 ^ 44 + tag * 2 ^ 44, data, none, none, none⟩

/-- The 16 header bytes. -/
def OpenPkt.header (p : OpenPkt) : List Byte := leBytes 8 p.w0 ++ leBytes 8 p.w1

/-- A packet from its header and payload bytes. -/
def pktOf (hdr data : List Byte) : OpenPkt :=
  let p : OpenPkt := ⟨leAt hdr 0 8, leAt hdr 8 8, [], none, none, none⟩
  { p with data := (List.range p.len).map (byteAt data) }

/-- 64-byte units of credit a packet takes (R239). -/
def OpenPkt.units (p : OpenPkt) : Nat := ceilDiv p.len 64

/-- The section of a link's buffers a packet takes (R238). -/
def OpenPkt.sect (p : OpenPkt) (n : Nat) : Nat := if n < 32 then 2 * b2n p.afterG + b2n p.second else 0

/-- The key of a class and section in `dues` and `used`. -/
def OpenPkt.creditKey (p : OpenPkt) (n : Nat) : Nat := 4 * p.cls + p.sect n

/-- Units of one section of the buffers of link n for a class (R238); the peer's are taken equal to this chip's (log entry 32). -/
def State.sectionUnits (s : State) (n cls : Nat) : Nat :=
  let all := if cls = clsReq then 128 * s.f .OPN_RBUF_ACT_REQ n else if cls = clsRpl then 128 * s.f .OPN_RBUF_ACT_RPL n else 512
  if n < 32 then all / 4 else all

/-- Whether OP is a value of its class (R248). -/
def OpenPkt.listed (p : OpenPkt) : Bool :=
  if p.cls = clsReq then p.op == 1 || p.op == 2 || decide (4 ≤ p.op ∧ p.op ≤ 0xF)
  else if p.cls = clsRpl then decide (0x20 ≤ p.op ∧ p.op ≤ 0x22)
  else p.cls == clsCtl && decide (0x30 ≤ p.op)

/-- Return the credit a packet held in a receive buffer of this chip (R239). -/
def State.returnCredit (s : State) (p : OpenPkt) : State :=
  match p.via with
  | some (n, k, u) => s.modLink n (fun l => { l with dues := Map.set 0 l.dues k (Map.get 0 l.dues k + u) })
  | none => s

/-- A reply to a request: the requester's SRC_ID and TAG, ADDR zero (R248). -/
def State.replyTo (s : State) (p : OpenPkt) (op : Nat) (data : List Byte) : OpenPkt := s.mkPkt p.src p.srcId clsRpl op 0 p.tag data

/-- An ACK with a status (R248). -/
def State.ackOf (s : State) (p : OpenPkt) (status : Nat) : OpenPkt := s.replyTo p 0x20 (leBytes 4 status)

/-! ### Routes (R236, R237) -/

/-- Whether two packets share an open channel: source core and chip, destination, class. -/
def OpenPkt.sameChannel (a b : OpenPkt) : Bool := a.src == b.src && a.srcId == b.srcId && a.dst == b.dst && a.cls == b.cls

/-- Judge the launch bells of the packets of a queue that stand at the head of their channels: late when the bell has passed (R62). -/
def State.judge (s : State) (before : List OpenPkt) : List OpenPkt → List OpenPkt
  | [] => []
  | p :: ps =>
    let q := match p.launch with
      | some (c, none) => if before.any (·.sameChannel p) then p else { p with launch := some (c, some (decide (bellDist s c < 0))) }
      | _ => p
    q :: s.judge (p :: before) ps

/-- Put a packet into the class queue of link n. -/
def State.enqueue (s : State) (n : Nat) (p : OpenPkt) : State :=
  s.modLink n (fun l => { l with openQ := Map.set [] l.openQ p.cls (s.judge [] (Map.get [] l.openQ p.cls ++ [p])) })

/-- The link a packet takes next and its stage bits there; none when it has no valid route, or would cross a third L-link in one stage
or a second G-link (R237). `on` is the link it arrived on. -/
def State.hop (s : State) (on : Option Nat) (p : OpenPkt) : Option (Nat × OpenPkt) :=
  match s.routeOf p.dst with
  | none => none
  | some n =>
    let fromL := (on.map (fun m => decide (m < 32))).getD false
    if n < 32 then
      (if fromL && p.second then none else some (n, { p with w0 := setBit p.w0 31 fromL }))
    else if p.afterG then none
    else some (n, { p with w0 := setBit (setBit p.w0 15 true) 31 false })

/-- Deliver a packet to this chip or queue it for its next link; none when it is discarded (R237). -/
def State.place (s : State) (on : Option Nat) (p : OpenPkt) : Option State :=
  if p.dst = s.chipAddr then some { s with opn := { s.opn with arrived := s.opn.arrived ++ [p] } }
  else
    match s.hop on p with
    | none => none
    | some (n, q) =>
      let t := (s.returnCredit p).enqueue n { q with via := none }
      some (if on.isSome then t.bump .OPN_CNT_FWD_COUNT else t)

/-- Deliver or queue a packet; a discarded one is counted, and a discarded request is answered ROUTE (R237). -/
def State.sendPkt (s : State) (on : Option Nat) (p : OpenPkt) : State :=
  match s.place on p with
  | some t => t
  | none =>
    let t := (s.returnCredit p).bump .OPN_CNT_ROUTE_COUNT
    if p.cls ≠ clsReq then t
    else
      match t.place none (t.ackOf p 0x3) with
      | some u => u
      | none => t.bump .OPN_CNT_ROUTE_COUNT

/-- A whole open packet has arrived on link n; a reserved OP is discarded and counted (R248). -/
def State.openArrive (s : State) (n : Nat) (p : OpenPkt) : State :=
  let q := { p with via := some (n, p.creditKey n, p.units) }
  if q.listed then s.sendPkt (some n) q else (s.returnCredit q).bump .OPN_CNT_ROUTE_COUNT

/-! ### Frames of a packet and starting one (R234, R239, R62) -/

/-- A list of bytes as blocks of n, the last filled with zeros; the fuel is at least their number. -/
def blocks (n : Nat) : Nat → List Byte → List (List Byte)
  | 0, _ => []
  | k + 1, bs => if bs.isEmpty then [] else ((bs ++ List.replicate (n - bs.length) 0).take n) :: blocks n k (bs.drop n)

/-- The payloads of the OPEN frames of a packet. -/
def OpenPkt.frames (p : OpenPkt) : List (List Byte) := blocks 512 17 (p.header ++ p.data)

/-- Whether a packet's launch bell has come (R62). -/
def State.eligible (s : State) (p : OpenPkt) : Bool :=
  match p.launch with
  | some (c, _) => decide (bellDist s c ≤ 0)
  | none => true

/-- The next packet of a queue: the first one eligible with no earlier packet of its channel that is not (R62). -/
def State.nextPkt (s : State) (held : List OpenPkt) : List OpenPkt → Option OpenPkt
  | [] => none
  | p :: ps =>
    if s.eligible p && !held.any (fun q => q.sameChannel p) then some p else s.nextPkt (if s.eligible p then held else p :: held) ps

/-- The units of a section that the packets sent there take until their credit returns (R239). -/
def LinkUnit.usedUnits (l : LinkUnit) (k : Nat) : Nat := (Map.get [] l.used k).sum

/-- Headers that a section's ring holds (R238). -/
abbrev headerRing := 64

/-- Units returned for a section: the oldest packets there are gone first (R238, R239; log entry 75). -/
def creditBack : List Nat → Nat → List Nat
  | [], _ => []
  | u :: us, k => if u ≤ k then creditBack us (k - u) else (u - k) :: us

/-- The launched request of a control core of this chip leaves late: its completion will carry LATE (R62, R250). -/
def State.noteLate (s : State) (p : OpenPkt) : State :=
  match p.launch with
  | some (_, some true) => if p.src = s.chipAddr then { s with opn := { s.opn with late := s.opn.late ++ [(p.srcId, p.tag)] } } else s
  | _ => s

/-- Start the next packet of a class on link n when the peer's section has room for its payload and its header; a head packet that waits is
counted (R238, R239). -/
def State.startPacket (s : State) (n cls : Nat) : State :=
  let l := s.link n
  match Map.get none l.cur cls with
  | some _ => s
  | none =>
    match s.nextPkt [] (Map.get [] l.openQ cls) with
    | none => s
    | some p =>
      let k := p.creditKey n
      let out := Map.get [] l.used k
      if out.sum + p.units ≤ s.sectionUnits n cls ∧ out.length < headerRing then
        (s.setLink n { l with
          openQ := Map.set [] l.openQ cls (s.judge [] ((Map.get [] l.openQ cls).erase p))
          used := Map.set [] l.used k (out ++ [p.units])
          cur := Map.set none l.cur cls (some ⟨p, if cls = clsCtl then [] else p.frames⟩) }).noteLate p
      else s.bump .OPN_CNT_CREDIT_COUNT

/-! ### At the target (R250, R254-R262) -/

/-- Bytes of an ATOM's operand. -/
def atomBytes (op : Nat) : Nat := if op = 0x0A ∨ op = 0x0D ∨ op = 0x0F then 8 else 4

/-- Bytes a request reaches. -/
def OpenPkt.reach (p : OpenPkt) : Nat :=
  if p.op = 0x02 then leAt p.data 0 4 else if 0x08 ≤ p.op then atomBytes p.op else p.len

/-- Whether a byte may be reached by a request, writing or not (R250). -/
def State.openByte (s : State) (write : Bool) (a : Nat) : Bool :=
  match rangeOf a with
  | .hbm _ => true
  | .store c o => s.enabled c && s.bound c && (!write || decide (o < s.progStart c))
  | _ => false

/-- Whether a byte lies in control SRAM, boot ROM or register space. -/
def deniedByte (a : Nat) : Bool :=
  match rangeOf a with
  | .sram _ => true
  | .rom _ => true
  | .regs _ => true
  | _ => false

/-- The status of a request's check: 0 when it may be performed (R250). -/
def State.openCheck (s : State) (p : OpenPkt) : Nat :=
  let bs := (List.range (min p.reach 8193)).map (p.addr + ·)
  if bs.any deniedByte then 0x5
  else if 8192 < p.reach ∨ bs.all (s.openByte (p.op != 0x02)) = false then 0x4
  else 0x0

/-- Read a target range. -/
def State.openRead (s : State) (a n : Nat) : List Byte × State :=
  if a + n ≤ hbmBytes then s.hbmRead a n else (s.rdBytes a n, s)

/-- Write a target range, tags apart. -/
def State.openWrite (s : State) (a : Nat) (bs : List Byte) : State :=
  if a + bs.length ≤ hbmBytes then s.hbmWrite a bs else s.wrBytes a bs

/-- Set the present tag and clear the nil bit of each granule of a core store that [a, a + n) covers wholly (R255). -/
def State.tagWhole (s : State) (a n : Nat) : State :=
  if a < 0xC0000000000 ∨ 0xC0040000000 ≤ a then s
  else
    let g0 := ceilDiv a 512
    upto ((a + n) / 512 - g0) (fun i s =>
      let x := (g0 + i) * 512 - 0xC0000000000
      s.modCore (x / storeBytes) (fun k => k.setTag (x % storeBytes / 512) true false)) s

/-- Clear the nil bit of each granule of a core store that a write of [a, a + n) reaches (R123). -/
def State.clearNil (s : State) (a n : Nat) : State :=
  if a < 0xC0000000000 ∨ 0xC0040000000 ≤ a ∨ n = 0 then s
  else upto ((a + n - 1) / 512 - a / 512 + 1) (fun i s =>
    let x := (a / 512 + i) * 512 - 0xC0000000000
    s.modCore (x / storeBytes) (fun k => k.setTag (x % storeBytes / 512) (bit (k.tag (x % storeBytes / 512)) 0) false)) s

/-- The larger of two FP32 values; a NaN operand gives NaN (R261). -/
def fpMax (a b : FVal) : FVal := if a.isNan || b.isNan then .nan else a.max2 b

/-- The new value of an ATOM: v is the operand, u CAS's new value (R261). -/
def atomNew (op w v u : Nat) : Nat :=
  if op = 0x08 then fp32.rne ((fp32.decode w).add (fp32.decode v))
  else if op = 0x09 then (w + v) % 2 ^ 32
  else if op = 0x0A then (w + v) % 2 ^ 64
  else if op = 0x0B then fp32.rne (fpMax (fp32.decode w) (fp32.decode v))
  else if op = 0x0C then (if signed 32 w < signed 32 v then v else w)
  else if op = 0x0D then (if signed 64 w < signed 64 v then v else w)
  else if w = v then u else w

/-- The landing operation of an ACC's OP (R256). -/
def accOp (op : Nat) : Nat := op - 3

/-- Perform a request that passed its check; the reply (R254-R257, R261, R262). -/
def State.perform (s : State) (p : OpenPkt) : State × OpenPkt :=
  let ok := s.ackOf p 0x0
  if p.op = 0x01 then (((s.openWrite p.addr p.data).clearNil p.addr p.len).tagWhole p.addr p.len, ok)
  else if p.op = 0x02 then
    let r := s.openRead p.addr p.reach
    (r.2, s.replyTo p 0x21 r.1)
  else if p.op < 0x08 then
    let r := s.openRead p.addr p.len
    ((r.2.openWrite p.addr (accumulate (accOp p.op) (p.len / opBytes (accOp p.op)) r.1 p.data)).clearNil p.addr p.len, ok)
  else
    let b := atomBytes p.op
    let r := s.openRead p.addr b
    let w := leVal r.1
    (r.2.openWrite p.addr (leBytes b (atomNew p.op w (leAt p.data 0 b) (leAt p.data b b))), s.replyTo p 0x22 (leBytes b w))

/-- A request is served: the check, the effect, the reply; the buffer's credit returns (R239, R250). -/
def State.serveNow (s : State) (p : OpenPkt) : State :=
  let st := s.openCheck p
  let r := if st = 0 then s.perform p else (s, s.ackOf p st)
  (r.1.returnCredit p).sendPkt none r.2

/-- Whether a request waits for HBM behind which another of its channel has to stay (R254). -/
def HbmReq.holds (q : HbmReq) (p : OpenPkt) : Bool :=
  match q.act with
  | .serve x => x.sameChannel p
  | _ => false

/-- The link whose port serves a request's HBM accesses in its slots, and the address whose stack it waits for: that of an earlier request of its
channel that waits, else its own when the plan gives the port slots there (R172, R180, R254). -/
def State.serveWait (s : State) (p : OpenPkt) : Option (Nat × Nat) :=
  match p.via with
  | none => none
  | some (n, _) =>
    match firstBelow 12 (fun k => (s.stack k).queue.any (·.holds p)) with
    | some k => some (n, k * stackBytes)
    | none => if p.addr < hbmBytes ∧ s.slotted (.port n) (stackOf p.addr) then some (n, p.addr) else none

/-- A request reaches its target, where an access to HBM waits for the slots of the port it came by. -/
def State.serveRequest (s : State) (p : OpenPkt) : State :=
  match s.serveWait p with
  | some (n, a) => s.hbmWait (.port n) a p.reach (.serve p)
  | none => s.serveNow p

/-! ### Depth of the queues (R241) -/

/-- Bytes queued for a link and class and not yet sent. -/
def State.queueBytes (s : State) (n cls : Nat) : Nat :=
  let l := s.link n
  ((Map.get [] l.openQ cls).map (fun p => 16 + p.len)).sum
    + ((Map.get none l.cur cls).map (fun c => 512 * c.left.length)).getD 0

/-- Whether core c's porter must hold an operation for a chip back: its queue is throttled and holds a packet of the core (R241). -/
def State.heldBack (s : State) (c chip cls : Nat) : Bool :=
  match s.routeOf chip with
  | none => false
  | some n => chip != s.chipAddr && bit (s.link n).throttled cls && (Map.get [] (s.link n).openQ cls).any (fun p => p.core == some c)

end Sys2Proof.Machine
end

