-- ==== Sys2Proof/Machine/PorterOps.lean ====
section
/-!
DEFINITION. The porter and the streams of a core as shared operations (R91, R92, R167, R176-R181, R245, R247, R251-R253): entries and
generations, completions, failures, sending to the open queues, and the data of replies.
-/
namespace Sys2Proof.Machine

/-! ### Entries (R91, R251) -/

/-- Entry i of the porter. -/
def Core.port (k : Core) (i : Nat) : Option PortOp := Map.get none k.porter i

/-- Write entry i of the porter. -/
def Core.setPort (k : Core) (i : Nat) (o : Option PortOp) : Core := { k with porter := Map.set none k.porter i o }

/-- The entries in use, oldest first. -/
def Core.ops (k : Core) : List (Nat × PortOp) :=
  (k.porter.filterMap (fun p => p.2.map (fun o => (p.1, o)))).insertionSort (fun a b => a.2.issued ≤ b.2.issued)

/-- Operations in flight. -/
def Core.inflight (k : Core) : Nat := (k.porter.filter (fun p => p.2.isSome)).length

/-- Entries a porter holds (R91). -/
abbrev portCap := 128

/-- The TAG of entry i: index and generation (R251). -/
def Core.tagOf (k : Core) (i : Nat) : Nat := i + 256 * (Map.get 0 k.gens i % 256)

/-- Allocate a generation for entry i. -/
def Core.newGen (k : Core) (i : Nat) : Core := { k with gens := Map.set 0 k.gens i ((Map.get 0 k.gens i + 1) % 256) }

/-- The request OP of an operation (R248). -/
def PortOp.code (o : PortOp) : Nat :=
  let t := if o.dt = 0 then 0 else if o.dt = 2 then 1 else 2
  match o.kind with
  | .put => 0x01
  | .get => 0x02
  | .acc => if o.dt = 0 then 0x04 else if o.dt = 1 then 0x05 else if o.dt = 2 then 0x06 else 0x07
  | .atomAdd => 0x08 + t
  | .atomMax => 0x0B + t
  | .atomCas => if o.dt = 3 then 0x0F else 0x0E

/-- Free an entry, delivering its event unless it was delivered (R92, R253). -/
def State.opFree (s : State) (c i : Nat) (o : PortOp) : State :=
  let t := s.modCore c (fun k => k.setPort i none)
  if o.locDone then t else t.deliver? c o.ev

/-- Local completion of an entry that has reached it: the event; the entry is freed, or kept until the reply of an open PUT or ACC
(R92, R245). -/
def State.opLocal (s : State) (c i : Nat) (o : PortOp) : State :=
  if o.booked then s.opFree c i o
  else (s.modCore c (fun k => k.setPort i (some { o with locDone := true }))).deliver? c o.ev

/-- Record a failed operation or piece (R253). -/
def State.portErr (s : State) (c op status tag addr : Nat) : State :=
  let t := s.bump .PRT_CNT_ERR_COUNT c
  if t.f .PRT_ERR_VALID c = 1 then t.setF .PRT_ERR_OVERRUN c 1
  else
    let u := (((t.setF .PRT_ERR_OP c op).setF .PRT_ERR_STATUS c status).setF .PRT_ERR_TAG c tag).setF .PRT_ERR_ADDR_ADDR c addr
    ((u.setF .PRT_ERR_BELL_BELL c s.now).setF .PRT_ERR_VALID c 1).irqMasterIf (s.f .PRT_CTRL_ERR_IRQ_EN c == 1) (.porter c)

/-- Whether a status is a failure (R253). -/
def failing (status : Nat) : Bool := 0x1 < status

/-- Complete an open operation with a status (R250, R253). -/
def State.opDone (s : State) (c i : Nat) (o : PortOp) (status : Nat) : State :=
  let t := if failing status then s.portErr c o.code status ((s.core c).tagOf i) (o.chip * 2 ^ 44 + o.remote) else s
  t.opFree c i o

/-! ### Sending (R89, R236, R241) -/

/-- The payload of an operation's request, and the state after its source has been read. -/
def State.opData (s : State) (c : Nat) (o : PortOp) : List Byte × State :=
  match o.kind with
  | .put => s.fillRead c o.local_ o.len
  | .acc => s.fillRead c o.local_ o.len
  | .get => (leBytes 4 o.len, s)
  | .atomCas => (leBytes (if o.dt = 3 then 8 else 4) o.val ++ leBytes (if o.dt = 3 then 8 else 4) o.val2, s)
  | _ => (leBytes (if o.dt = 3 then 8 else 4) o.val, s)

/-- An operation's request leaves the porter: a PUT's or ACC's source has been read (R92). -/
def State.opSend (s : State) (c i : Nat) (o : PortOp) : State :=
  let r := s.opData c o
  let p := s.mkPkt o.chip (0x80 + c) clsReq o.code o.remote ((s.core c).tagOf i) r.1
  let done := o.kind = .put ∨ o.kind = .acc
  (r.2.modCore c (fun k => k.setPort i (some { o with sent := some s.now, readDone := decide done }))).sendPkt none { p with core := some c }

/-- Send the waiting open operations of core c in issue order; one held back holds back the later ones for its link (R241). -/
def State.sendOps (s : State) (c : Nat) : State :=
  ((s.core c).ops.foldl (fun (a : State × List (Option Nat)) x =>
    let o := x.2
    let l := a.1.routeOf o.chip
    if o.booked ∨ o.sent.isSome then a
    else if l ∈ a.2 ∧ o.chip ≠ s.chipAddr then a
    else if a.1.heldBack c o.chip clsReq then (a.1, l :: a.2)
    else (a.1.opSend c x.1 o, a.2)) (s, [])).1

/-! ### Streams (R176-R181) -/

/-- Bytes of a stream. -/
def Stream.total (x : Stream) : Nat := x.rowBytes * x.rows

/-- The far address of byte i of a stream. -/
def Stream.farAt (x : Stream) (i : Nat) : Nat := ((x.far : Int) + ((i / x.rowBytes : Nat) : Int) * x.stride + (i % x.rowBytes : Nat)).toNat

/-- Apply f to the stream of core c in slot j. -/
def State.modStream (s : State) (c j : Nat) (f : Stream → Stream) : State :=
  s.modCore c (fun k => { k with streams := k.streams.map (fun x => if x.slot = j then f x else x) })

/-- Write bytes of an SLD at offset i of the stream: the nil bits clear; with PS each granule whose 512 bytes have been written has
its tag set (R123, R167). -/
def State.streamWrite (s : State) (c : Nat) (x : Stream) (i : Nat) (bs : List Byte) : State :=
  let a := x.local_ + i
  let s1 := s.modCore c (fun k => k.wrStore a bs)
  if x.ps = false ∨ bs = [] then s1
  else upto ((a + bs.length - 1) / 512 - a / 512 + 1) (fun d s =>
    let g := a / 512 + d
    let n := min (a + bs.length) (512 * g + 512) - max a (512 * g)
    let left := ((s.core c).streams.find? (fun y => y.slot == x.slot)).elim 512 (fun y => Map.get 512 y.left g) - n
    let t := s.modStream c x.slot (fun y => { y with left := Map.set 512 y.left g left })
    if left = 0 then t.modCore c (fun k => k.setTag g true false) else t) s1

/-- Count bytes moved by streams, in units of 64 (R324). -/
def State.streamCount (s : State) (c n : Nat) : State := s.pmc c 0x0F (n / 64)

/-- Move 64-byte unit u of a local stream (R178). -/
def State.moveUnit (s : State) (c : Nat) (x : Stream) (u : Nat) : State :=
  let a := x.farAt (64 * u)
  if x.load then
    let r := s.hbmRead a 64
    r.2.streamWrite c x (64 * u) r.1
  else
    let r := s.fillRead c (x.local_ + 64 * u) 64
    r.2.hbmWrite a r.1

/-- The stack of a local stream's address, 12 for the host memory window (R181). -/
def farPlace (a : Nat) : Nat := if a < hbmBytes then stackOf a else 12

/-- The units of a local stream that lie in stack k, in order. -/
def Stream.unitsIn (x : Stream) (k : Nat) : List Nat := (List.range (x.total / 64)).filter (fun u => farPlace (x.farAt (64 * u)) == k)

/-- Serve core c's streams on stack k with room for `room` units, in issue order (R172, R178). -/
def State.serveStreams (s : State) (c k : Nat) : Nat → List Stream → State
  | _, [] => s
  | room, x :: xs =>
    if x.side ≠ .own then s.serveStreams c k room xs
    else
      let us := (x.unitsIn k).drop (Map.get 0 x.done k / 64)
      let now := us.take room
      let s1 := now.foldl (fun s u => s.moveUnit c x u) s
      let s2 := s1.modStream c x.slot (fun y => { y with done := Map.set 0 y.done k (Map.get 0 y.done k + 64 * now.length) })
      (s2.streamCount c (64 * now.length)).serveStreams c k (room - now.length) xs

/-- The link that reaches the board peer at a position (R268). -/
def State.peerLink (s : State) (pos : Nat) : Nat :=
  Nat.xor (Nat.xor s.index (s.f .CHIP_ADDR_BOARD * 4 + pos)) 3

/-- The chip address of the board peer at a position. -/
def State.peerChip (s : State) (pos : Nat) : Nat := s.f .CHIP_ADDR_GROUP * 32 + s.f .CHIP_ADDR_BOARD * 4 + pos

/-- Whether a link is down past its grace period (R180). -/
def State.linkGone (s : State) (n : Nat) : Bool := s.f .LNK_STATUS_STATE n != lkUp && s.f .LNK_STATUS_GRACE n == 0

/-- The request of a piece leaves the porter (R180). -/
def State.pieceSend (s : State) (c n : Nat) (x : Stream) (j len : Nat) : State :=
  let e := 128 + 16 * x.slot + j
  let s1 := s.modCore c (fun k => k.newGen e)
  let pos := match x.side with
    | .peer p => p
    | _ => 0
  let r := if x.load then (leBytes 4 len, s1) else s1.fillRead c (x.local_ + x.asked) len
  let p := s1.mkPkt (s1.peerChip pos) (0x80 + c) clsReq (if x.load then 0x02 else 0x01) (x.farAt x.asked % 2 ^ 44) ((s1.core c).tagOf e) r.1
  let s2 := r.2.modStream c x.slot (fun y => { y with asked := y.asked + len, pieces := Map.set none y.pieces j (some ⟨x.asked, len, s.now⟩) })
  s2.enqueue n { p with core := some c }

/-- Send the next piece of a peer stream when one of its 16 places is free and its queue does not hold it back (R180, R241, R251). -/
def State.sendPiece (s : State) (c j : Nat) : State :=
  match (s.core c).streams.find? (fun x => x.slot == j) with
  | none => s
  | some x =>
    match x.side, firstBelow 16 (fun p => (Map.get none x.pieces p).isNone) with
    | .peer pos, some p =>
      let n := s.peerLink pos
      if x.total ≤ x.asked then s
      else if s.linkGone n then s.modStream c j (fun y => { y with asked := y.total, miss := true })
      else if bit (s.link n).throttled clsReq && (Map.get [] (s.link n).openQ clsReq).any (fun q => q.core == some c) then s
      else s.pieceSend c n x p (min 8192 (x.rowBytes - x.asked % x.rowBytes))
    | _, _ => s

/-- Send the pieces of core c's peer streams, oldest stream first. -/
def State.sendPieces (s : State) (c : Nat) : State :=
  (s.core c).streams.foldl (fun s x => upto 16 (fun _ s => s.sendPiece c x.slot) s) s

/-- Send what waits in core c's porter. -/
def State.pump (s : State) (c : Nat) : State := (s.sendOps c).sendPieces c

/-- Send what waits in every porter. -/
def State.pumpAll (s : State) : State := s.cores.foldl (fun s p => s.pump p.1) s

/-- The answer to a piece: its data, whose whole granules are tagged (R255), or a status (R180, R253). -/
def State.pieceAnswer (s : State) (c : Nat) (x : Stream) (j : Nat) (p : Piece) (status : Nat) (data : List Byte) : State :=
  let e := 128 + 16 * x.slot + j
  let s1 := s.modStream c x.slot (fun y => { y with pieces := Map.set none y.pieces j none, miss := y.miss || failing status })
  let s2 := if failing status then
      s1.portErr c (if x.load then 0x02 else 0x01) status ((s.core c).tagOf e)
        ((s.peerChip (match x.side with
          | .peer q => q
          | _ => 0)) * 2 ^ 44 + x.farAt p.off % 2 ^ 44)
    else if x.load then (s1.streamWrite c x p.off (data.take p.len)).tagWhole (0xC0000000000 + c * storeBytes + x.local_ + p.off) p.len
    else s1
  let s3 := if failing status then s2 else s2.streamCount c p.len
  s3.sendPiece c x.slot

/-- Whether every byte of a stream has moved or stays unwritten (R178, R180, R181). -/
def Stream.whole (x : Stream) : Bool :=
  match x.side with
  | .own => decide ((x.done.map (·.2)).sum = x.total)
  | .peer _ => decide (x.asked = x.total) && x.pieces.isEmpty

/-- A stream completes: its event, and its count when data stays unwritten. -/
def State.streamDone (s : State) (c : Nat) (x : Stream) : State :=
  let t := s.modCore c (fun k => { k with streams := k.streams.erase x })
  (if x.miss then t.bump .PRT_CNT_FLUSHSTR_COUNT c else t).deliver? c x.ev

/-! ### Replies (R251, R253, R255) -/

/-- Write reply data into core c's store; a DATA reply sets the tag of each granule it writes wholly. -/
def State.replyWrite (s : State) (c a : Nat) (bs : List Byte) (tags : Bool) : State :=
  let t := s.modCore c (fun k => k.wrStore a bs)
  if tags then t.tagWhole (0xC0000000000 + c * storeBytes + a) bs.length else t

/-- The status a reply carries: that of an ACK, OK for data. -/
def OpenPkt.status (p : OpenPkt) : Nat := if p.op = 0x20 then (byteAt p.data 0).toNat else 0

/-- A reply reaches operation o of entry i (R251-R255). -/
def State.opReply (s : State) (c i : Nat) (o : PortOp) (p : OpenPkt) : State :=
  let t := if failing p.status then s
    else if p.op = 0x21 ∧ o.kind = .get then s.replyWrite c o.local_ (p.data.take o.len) true
    else if p.op = 0x22 ∧ o.discard = false then s.replyWrite c o.local_ p.data false
    else s
  t.opDone c i o p.status

/-- A reply to a control core's request completes it, LATE when it left after its launch bell (R62, R250). -/
def State.ctlReply (s : State) (p : OpenPkt) : State :=
  let e := (p.srcId, p.tag)
  let st := if p.status = 0 ∧ s.opn.late.contains e then 0x1 else p.status
  { s with opn := { s.opn with late := s.opn.late.erase e, done := s.opn.done ++ [(p.srcId, p.tag, st)] } }

/-- A reply reaches this chip: the operation or piece its TAG names completes, or it is stale (R251). -/
def State.reply (s : State) (p : OpenPkt) : State :=
  let c := p.srcId - 0x80
  let k := s.core c
  let i := p.tag % 256
  let stale := s.bump .PRT_CNT_STALE_COUNT c
  if p.srcId < 0x80 then s.ctlReply p
  else if p.tag ≠ k.tagOf i then stale
  else if i < 128 then
    match k.port i with
    | some o => if o.booked ∨ o.sent.isNone then stale else s.opReply c i o p
    | none => stale
  else
    match k.streams.find? (fun x => x.slot == (i - 128) / 16) with
    | some x =>
      match Map.get none x.pieces ((i - 128) % 16) with
      | some q => s.pieceAnswer c x ((i - 128) % 16) q p.status p.data
      | none => stale
    | none => stale

/-- Whether a request sent in bell b has waited OPEN_TMO bells (R252). -/
def State.overdue (s : State) (c : Nat) (b : Option Nat) : Bool := (b.map (fun b => decide (b + s.f .PRT_CFG_OPEN_TMO c ≤ s.now))).getD false

/-- The board peer of a stream (R160). -/
def Stream.pos (x : Stream) : Nat :=
  match x.side with
  | .peer q => q
  | _ => 0

/-- Complete the oldest overdue operation of core c, else its oldest overdue piece, with TIMEOUT (R252), and notify the chip it went to
(R281). -/
def State.timeout (s : State) (c : Nat) : State :=
  match (s.core c).ops.find? (fun x => !x.2.booked && s.overdue c x.2.sent) with
  | some x => ((s.bump .PRT_CNT_TMO_COUNT c).opDone c x.1 x.2 0x6).raiseNotice 0x4 x.2.chip 0
  | none =>
    match (s.core c).streams.findSome? (fun x => (x.pieces.find? (fun p => s.overdue c (p.2.map (·.sent)))).map (fun p => (x, p))) with
    | some (x, (j, some q)) => ((s.bump .PRT_CNT_TMO_COUNT c).pieceAnswer c x j q 0x6 []).raiseNotice 0x4 (s.peerChip x.pos) 0
    | _ => s

/-- A flush completes what core c has on a link's board peer: pieces without an answer stay unwritten (R180, R203). -/
def State.flushStreams (s : State) (c n : Nat) : State :=
  (s.core c).streams.foldl (fun s x =>
    match x.side with
    | .peer pos =>
      if s.peerLink pos = n then
        s.modStream c x.slot (fun y => { y with asked := y.total, pieces := [], miss := y.miss || decide (y.asked < y.total) || !y.pieces.isEmpty })
      else s
    | _ => s) s

end Sys2Proof.Machine
end

