-- ==== Sys2Proof/Machine/Routes.lean ====
section
/-!
DEFINITION. Wiring, open routes and the arming of table commits (R242, R266-R272): what firmware writes into the open route table, and
how it replaces the entries of a flushed link.
-/
namespace Sys2Proof.Machine

/-! ### Wiring (R266-R270) -/

/-- The L-link between in-group indices i and p (R268). -/
def lLink (i p : Nat) : Nat := Nat.xor (Nat.xor i p) 3

/-- The group of a chip address. -/
abbrev groupOf (a : Nat) : Nat := a / 32 % 1024

/-- The in-group index of a chip address (R266). -/
abbrev indexOf (a : Nat) : Nat := a % 32

/-- This chip's group. -/
def State.group (s : State) : Nat := s.f .CHIP_ADDR_GROUP

/-- The cabling plan that firmware has accepted (R270). -/
def State.cables (s : State) : List CablePair := (s.topo.machine.map (·.cables)).getD []

/-- The ports of group g that pair with group h, in ascending order. -/
def State.pairPorts (s : State) (g h : Nat) : List Nat :=
  ((s.cables.filter (fun c => c.group == g && c.peerGroup == h)).map (·.port)).insertionSort (fun a b => a ≤ b)

/-- The link from this chip to the holder of port p of its group. -/
def State.portLink (s : State) (p : Nat) : Nat := if p / 32 = s.index then 32 + p % 32 else lLink s.index (p / 32)

/-- The open route to chip d (R271). -/
def State.routeTo (s : State) (d : Nat) : Option Nat :=
  if groupOf d = s.group then (if indexOf d = s.index then none else some (lLink s.index (indexOf d)))
  else
    match s.pairPorts s.group (groupOf d) with
    | [] => none
    | ps => some (s.portLink (ps.getD (indexOf d % ps.length) 0))

/-- The byte of a route (R237). -/
def routeByte (l : Option Nat) : Byte :=
  match l with
  | some n => BitVec.ofNat 8 (0x80 + n)
  | none => 0

/-! ### Replacement (R271, R272) -/

/-- Whether the link from in-group index a to index c of this group, neither of them this chip, is UP: a free value, since this chip knows its
own links only (log entry 36). -/
def State.farUp (s : State) (a c : Nat) : Bool := Config.remoteUp s.free (s.group * 32 + a) (lLink a c)

/-- Whether the holder of G-port p of this group has the port's G-link UP; of another chip's it is a free value (log entry 36). -/
def State.portUp (s : State) (p : Nat) : Bool :=
  if p / 32 = s.index then s.up (32 + p % 32) else Config.remoteUp s.free (s.group * 32 + p / 32) (32 + p % 32)

/-- The replacement of a flushed L-link to chip c of the group (R271): link 3, else the L-link to the lowest-indexed chip that reaches c. No
link of `gone` is taken. -/
def State.detourL (s : State) (gone : List Nat) (c : Nat) : Option Nat :=
  let use := fun (l : Nat) => s.up l && !gone.contains l
  let partner := Nat.xor s.index 1
  if use 3 = true ∧ (partner = c ∨ s.farUp partner c = true) then some 3
  else ((List.range 32).find? (fun m => m != s.index && m != c && use (lLink s.index m) && s.farUp m c)).map (fun m => lLink s.index m)

/-- The port that stands in for G-port p towards group h: the next one in ascending order, wrapping, whose G-link is UP (R271). -/
def State.nextPort (s : State) (p h : Nat) : Option Nat :=
  let ps := s.pairPorts s.group h
  ((List.range ps.length).map (fun k => ps.getD ((ps.idxOf p + 1 + k) % ps.length) 0)).find? (fun q => q != p && s.portUp q)

/-- The way to the holder of port q of this group, with the links of `gone` replaced. -/
def State.wayTo (s : State) (gone : List Nat) (q : Nat) : Option Nat :=
  if q / 32 = s.index then some (32 + q % 32)
  else
    let l := lLink s.index (q / 32)
    if gone.contains l ∨ s.up l = false then s.detourL gone (q / 32) else some l

/-- The route to chip d once the links of `gone` have been flushed (R271). -/
def State.reroute (s : State) (gone : List Nat) (d : Nat) : Option Nat :=
  if groupOf d = s.group then s.detourL gone (indexOf d)
  else
    match s.pairPorts s.group (groupOf d) with
    | [] => none
    | ps =>
      let p := ps.getD (indexOf d % ps.length) 0
      if p / 32 = s.index ∧ (gone.contains (32 + p % 32) = true ∨ s.portUp p = false) then (s.nextPort p (groupOf d)).bind (s.wayTo gone) else s.wayTo gone p

/-- A base for a new route table: the bundle's, or the 64 KiB above it when that one is in use (R272; log entry 37). -/
def State.routeBase (s : State) (bundle : Nat) : Nat :=
  if s.f .OPN_ROUTE_ACT_BASE = bundle / 65536 then bundle / 65536 + 1 else bundle / 65536

/-- Write a route table: the entries of these chips, every other one not valid. -/
def State.writeRoutes (s : State) (base : Nat) (es : List (Nat × Byte)) : State :=
  let a := base * 65536
  let t := { s with hbm := s.hbm.zero a 32768 }
  es.foldl (fun t e => { t with hbm := t.hbm.wr (a + e.1) e.2 }) t

/-! ### Arming a commit (R242) -/

/-- Whether bell b is a round boundary by the active round structure together with a bell commit armed for a bell at or before b: by the staged
values until the bell unit has decided them, by the decided ones from then on (R51, R242). -/
def State.boundaryArm (s : State) (b : Nat) : Bool :=
  match s.bel.commit with
  | some c =>
    if c ≤ b ∧ s.bel.decided.isNone then decide (((b : Int) - (s.f .BEL_ROUND_ORIGIN_BELL : Int)) % ((s.f .BEL_ROUND_LEN_LEN_M1 + 1 : Nat) : Int) = 0)
    else s.posAt b == 0
  | none => s.posAt b == 0

/-- What an ARM of a table commit for bell B finds: 2 too soon, 3 not a round boundary, 1 armed (R242). -/
def State.commitCheck (s : State) (bell : Nat) : Nat :=
  if bellDist s bell < 64 then 2 else if s.boundaryArm (bellOf s bell).toNat then 1 else 3

/-- Arm OPN_COMMIT (R242, R243). -/
def State.armOpn (s : State) (bell : Nat) : State :=
  let r := s.commitCheck bell
  let t := ((s.setF .OPN_COMMIT_BELL 0 bell).setF .OPN_COMMIT_STATUS 0 r).setF .OPN_COMMIT_ARM 0 (b2n (r == 1))
  ({ t with opn := { t.opn with commit := if r = 1 then some (bellOf s bell).toNat else none, base := none, moving := [] } } : State).armedHere 65

/-- The first round boundary at least k bells ahead. -/
def State.nextBoundary (s : State) (k : Nat) : Nat := s.boundaryFrom (s.now + k)

/-- Firmware replaces the route entries of flushed links, at the first round boundary at least 64 bells ahead (R271, R272). While a route commit is
armed the replacement waits, so that neither change is lost (log entry 37). -/
def State.routeReplace (s : State) (gone : List Nat) : State :=
  if s.opn.commit.isSome then { s with opn := { s.opn with reroute := (s.opn.reroute ++ gone).dedup } }
  else
    match s.load.bundle with
    | none => s
    | some b =>
      let chips := (s.topo.partition.filter (fun d => d != s.chipAddr)).map (fun d => (d, s.routeOf d))
      let hit := fun (l : Option Nat) => match l with
        | some n => gone.contains n
        | none => false
      let t := { s with opn := { s.opn with reroute := [] } }
      if s.load.loaded = false ∨ !chips.any (fun e => hit e.2) then t
      else
        let base := s.routeBase b.route
        let u := t.writeRoutes base (chips.map (fun e => (e.1, routeByte (if hit e.2 then s.reroute gone e.1 else e.2))))
        let v := ({ u with free := u.free + 1 } : State).setF .OPN_ROUTE_BASE_BASE 0 base |>.armOpn (s.nextBoundary 64 % 2 ^ 32)
        { v with opn := { v.opn with moving := gone } }

/-- A replacement that waited for an armed route commit (R272). -/
def State.rerouteDue (s : State) : State := if s.opn.reroute = [] ∨ s.opn.commit.isSome then s else s.routeReplace s.opn.reroute

end Sys2Proof.Machine
end

