-- ==== Sys2Proof/Machine/LinkState.lean ====
section
/-!
DEFINITION. Link states, resets, grace and flush (R190, R197-R206, R231, R240): the operations that the rows of Machine/Link.lean share.
-/
namespace Sys2Proof.Machine

/-! ### Link reset (R201, R240; class L of R381) -/

/-- Return field f of link n to its reset value, for array element i of it. -/
def State.unsetF (s : State) (fl : Fld) (i : Nat) : State := s.setF fl i (fl.resetAt i)

/-- The fields of link n that a link reset returns to their reset values (every field of a link whose Kept by lacks L); LNK_SEQ and EPOCH stay while grace runs (log entry 35). -/
def linkResetFlds (grace : Bool) : List Fld :=
  [.LNK_STATUS_STATE, .LNK_STATUS_WIDTH_ACT, .LNK_STATUS_SPEED_ACT, .LNK_STATUS_LANES_OK, .LNK_STATUS_RETRAIN_PEND,
    .LNK_STATUS_ENC_ACT, .LNK_STATUS_REASON, .LNK_STATUS_ERR_WIN, .LNK_PEER_CHIP, .LNK_PEER_LINK, .LNK_PEER_VALID, .LNK_RTT_RTT,
    .BEL_TS_DEP_TS, .BEL_TS_ARR_TS, .BEL_LINKDLY_DLY, .LNK_ENC_REKEY_ARM, .LNK_ENC_REKEY_STATUS] ++ (if grace then [] else [.LNK_ENC_EPOCH, .LNK_SEQ_TX_NEXT, .LNK_SEQ_TX_ACKED, .LNK_SEQ_RX_LAST])

/-- Lanes that a width takes. -/
def widthLanes (w : Nat) : Nat := if w = 3 then 4 else w

/-- Lanes in a mask. -/
def laneCount (m : Nat) : Nat := ((List.range 4).filter (fun l => bit m l)).length

/-- Commit LNK_CFG (R201): a LANE_MASK too small for WIDTH_MAX keeps the pair. -/
def State.commitCfg (s : State) (n : Nat) : State :=
  let mask := s.f .LNK_CFG_LANE_MASK n
  let wm := s.f .LNK_CFG_WIDTH_MAX n
  let ok := decide (widthLanes wm ≤ laneCount mask)
  let s1 := s.modLink n (fun l => { l with
    lanes := if ok then mask else l.lanes
    widthMax := if ok then wm else l.widthMax
    speed := s.f .LNK_CFG_SPEED n
    enc := s.f .LNK_CFG_ENC_EN n == 1 })
  if ok then s1 else s1.setF .LNK_STATUS_CFG_MISMATCH n 1

/-- Units of 8 KiB that the open buffers of link n take of the port die's pool, with these sizes. -/
def rbufUnits (req rpl : Nat) : Nat := req + rpl + 4

/-- Commit OPN_RBUF (R240): the sum over the port die stays within 16 MiB. -/
def State.commitRbuf (s : State) (n : Nat) : State :=
  let die := (List.range 64).filter (fun m => m ≠ n ∧ linkHalf m = linkHalf n)
  let others := (die.map (fun m => rbufUnits (s.f .OPN_RBUF_ACT_REQ m) (s.f .OPN_RBUF_ACT_RPL m))).sum
  let q := s.f .OPN_RBUF_REQ n
  let r := s.f .OPN_RBUF_RPL n
  if 2048 < others + rbufUnits q r then s.setF .OPN_STATUS_CFG_MISMATCH 0 1
  else (s.setF .OPN_RBUF_ACT_REQ n q).setF .OPN_RBUF_ACT_RPL n r

/-- The lanes of link n that hold lock. -/
def State.lockMask (s : State) (n : Nat) : Nat := sumTo 4 (fun l => s.f .LNK_LANE_LOCK (4 * n + l) * 2 ^ l)

/-- Set the lane registers of link n. -/
def State.setLanes (s : State) (n sig lock : Nat) : State :=
  upto 4 (fun l s => (s.setF .LNK_LANE_SIGNAL (4 * n + l) (b2n (bit sig l))).setF .LNK_LANE_LOCK (4 * n + l) (b2n (bit lock l))) s

/-- A link reset (class L): registers, the commits of LNK_CFG and OPN_RBUF, coefficients of the lanes that held lock kept, frames on the
way lost. What waits within grace stays (R202). -/
def State.linkReset (s : State) (n : Nat) : State :=
  let grace := s.f .LNK_STATUS_GRACE n = 1 ∧ (s.link n).flushFlag = false
  let lock := s.lockMask n
  let s0 := [Fld.CLK_XALIGN_ALIGNED, .CLK_XALIGN_FAIL, .CLK_XALIGN_FAIL_REGION].foldl (fun s fl => s.unsetF fl 0) s
  let s1 := (linkResetFlds (decide grace)).foldl (fun s fl => s.unsetF fl n) s0
  let s2 := upto 4 (fun l s => ((s.unsetF .LNK_LANE_SIGNAL (4 * n + l)).unsetF .LNK_LANE_LOCK (4 * n + l)).unsetF .LNK_LANE_SNR (4 * n + l)
    |>.unsetF .LNK_LANE_SYMERR (4 * n + l)) s1
  let s3 := s2.modLink n (fun l => { l with
    coeffs := Nat.land l.coeffs lock, rpl := none, rplDue := none, nakDue := false, nakHeld := false, catchup := false, assign := false,
    retrainNow := false, rekey := none, marks := 0 })
  (s3.commitCfg n).commitRbuf n

/-! ### Entering and leaving states (R198) -/

/-- Set the state of link n. -/
def State.setLk (s : State) (n st : Nat) : State := s.setF .LNK_STATUS_STATE n st

/-- What link n puts on the line in its state (R197); in power-on and warm reset the transmitters are idle (R210). -/
def State.lineOut (s : State) (n : Nat) : LineOut :=
  let st := s.f .LNK_STATUS_STATE n
  if s.rst.boot = 0 ∨ st = lkOff then .idle
  else if st = lkDetect then .probe
  else if st = lkHand then .train
  else if st = lkUp then .frames
  else .pattern

/-- The lanes that link n drives: those of LANE_MASK, in UP those of the active width (R197, R204). -/
def State.drives (s : State) (n : Nat) : Nat :=
  match s.lineOut n with
  | .idle => 0
  | .frames => s.f .LNK_STATUS_LANES_OK n
  | _ => (s.link n).lanes

/-- Clear PARENT_FRESH of the slots of BEL_PARENT that name link n (R54). -/
def State.unfresh (s : State) (n : Nat) : State :=
  let s1 := if s.f .BEL_PARENT_PARENT = n then s.setFb .BEL_STATUS_PARENT_FRESH 0 0 false else s
  if s1.f .BEL_PARENT_ALT = n then s1.setFb .BEL_STATUS_PARENT_FRESH 0 1 false else s1

/-- The chip at the other end of link n, as the last handshake found it (R199); LNK_PEER itself goes with a link reset. -/
def State.peerOf (s : State) (n : Nat) : Nat := (s.link n).peer.getD (s.f .LNK_PEER_CHIP n)

/-- Link n leaves UP: the grace timer starts, a pending retrain clears (R202, R206, R54); CTL0 is told, and firmware raises LINK_DOWN (R281). -/
def State.leaveUp (s : State) (n : Nat) : State :=
  if s.up n = false then s
  else
    let s1 := (((s.setF .LNK_STATUS_GRACE n 1).setF .LNK_STATUS_RETRAIN_PEND n 0).unfresh n).modLink n (fun l =>
      { l with assign := false, catchup := false, retrainNow := false, rpl := none, rplDue := none, marks := 0 })
    (s1.irqMasterIf (s.f .LNK_CTRL_DOWN_IRQ_EN n == 1) (.link n)).raiseNotice 0x1 (s.peerOf n) n

/-- Enter TRAIN_FAST. -/
def State.toFast (s : State) (n : Nat) : State := ((s.setLk n lkFast).bump .LNK_CNT_FAST_COUNT n).setF .LNK_CTRL_RETRAIN n 0

/-- Enter TRAIN_FULL. -/
def State.toFull (s : State) (n : Nat) : State := ((s.setLk n lkFull).bump .LNK_CNT_FULL_COUNT n).setF .LNK_CTRL_RESET n 0

/-- Leave UP by a link reset and a fast retrain (R198). -/
def State.fastRetrain (s : State) (n : Nat) : State := ((s.leaveUp n).linkReset n).toFast n

/-- Go to DETECT with no lane in use. -/
def State.toDetect (s : State) (n : Nat) : State :=
  (((((s.leaveUp n).setF .LNK_STATUS_WIDTH_ACT n 0).setF .LNK_STATUS_LANES_OK n 0).setLanes n 0 0).setF .LNK_STATUS_RETRAIN_PEND n 0).setLk n lkDetect

/-- The TRAIN frame that this side of link n sends: its identity, settings and resume token (R199, R202); a refusal's REASON; the answers to
the peer's exchanges, and its part of the key exchange. -/
def State.ownTrain (s : State) (n : Nat) (refusal : Option Nat) (answers : List (Nat × Nat × Nat × Nat))
    (kex : Option (List Byte × List Byte × List Byte × List Byte × List Byte)) : TrainFrame :=
  let l := s.link n
  { refusal := refusal, chip := s.chipAddr, link := n, widthMax := l.widthMax, speed := l.speed, enc := l.enc, flushed := l.flushFlag,
    accepted := s.f .LNK_SEQ_RX_LAST n, next := s.f .LNK_SEQ_TX_NEXT n, exchanges := answers, kex := kex }

/-- A TRAIN frame leaves on link n (R199). -/
def State.sendTrain (s : State) (n : Nat) (t : TrainFrame) : State := s.modLink n (fun l => { l with trains := l.trains ++ [t] })

/-- Enter REFUSED with a reason, after two TRAIN frames that carry the refusal and its REASON unless the peer refused (R199). -/
def State.toRefused (s : State) (n reason : Nat) : State :=
  let t := s.ownTrain n (some reason) [] none
  let u := if reason = 4 then s else (s.sendTrain n t).sendTrain n t
  (u.setLk n lkRefused).setF .LNK_STATUS_REASON n reason

/-- Destroy link n's secret and keys (R366). -/
def State.dropKeys (s : State) (n : Nat) : State :=
  s.modLink n (fun l => { l with
    keyZ := none, key := 0, nextKey := none, oldKey := none, rekeyed := none, segs := [], rxSegs := [], rxLog := [], rxTags := [] })

/-! ### Flush (R203) -/

/-- The booked flows that the pages of a set name at the positions of the round (R203). -/
def State.setFlows (s : State) (live : Bool) (base : Nat) : List Nat :=
  if !live then []
  else ((List.range s.roundLen).flatMap (fun i =>
    let page := leVal (s.rdBytes (base + 2 * i) 2) % 4096
    ((pageWords (s.rdBytes (base + 0x2000 + 1024 * page) 1024)).map runOf).filterMap (fun r => if r.kind = 0 then some r.flow else none))).dedup

/-- Complete a queued request of this chip's porter FLUSHED (R203, R250). -/
def State.flushLocal (s : State) (c : Nat) (p : OpenPkt) : State :=
  let k := s.core c
  let i := p.tag % 256
  if p.tag ≠ k.tagOf i then s
  else if i < 128 then
    match k.port i with
    | some o => s.opDone c i o 0x2
    | none => s
  else
    match k.streams.find? (fun x => x.slot == (i - 128) / 16) with
    | some x =>
      match Map.get none x.pieces ((i - 128) % 16) with
      | some q => s.pieceAnswer c x ((i - 128) % 16) q 0x2 []
      | none => s
    | none => s

/-- What a flush does with one queued open packet: FLUSHED to its porter, or to a forwarded packet's requester (R203, R250). -/
def State.flushPkt (s : State) (p : OpenPkt) : State :=
  match p.core with
  | some c => s.flushLocal c p
  | none => if p.cls = clsReq ∧ p.src ≠ s.chipAddr then s.sendPkt none (s.ackOf p 0x2) else s

/-- The open packets that a flush of a link discards: those with a frame that is not acknowledged, those partly sent, those queued. -/
def LinkUnit.openPkts (l : LinkUnit) : List OpenPkt :=
  (l.rb ++ l.txq).filterMap (·.pkt) ++ l.cur.filterMap (fun c => c.2.map (·.pkt)) ++ l.openQ.flatMap (·.2)

/-- Flush link n (R203); firmware then replaces the open routes that used it (R271). -/
def State.flush (s : State) (n : Nat) : State :=
  let ps := (s.link n).openPkts
  let flows := (s.setFlows (s.link n).live (s.f .STL_TXBASE_ACT_BASE n * 65536)).map (fun f => (false, f))
    ++ (s.setFlows (s.link n).live (s.f .STL_RXBASE_ACT_BASE n * 65536)).map (fun f => (true, f))
  let s1 := s.modLink n (fun l => { l with
    rb := [], txq := [], openQ := [], cur := [], rpl := none, rplDue := none, rplFrom := none,
    rplCount := 0, catchup := false, assign := false, flushFlag := true, fresh := true, flushed := flows })
  let s2 := (ps.foldl (fun s p => s.flushPkt p) s1).dropKeys n
  let s3 := s2.cores.foldl (fun s p => s.flushStreams p.1 n) s2
  let s4 := if flows = [] then s3 else s3.stopStep 0x4
  let s5 := ((s4.setF .LNK_STATUS_FLUSHED n 1).bump .LNK_CNT_FLUSH_COUNT n).ldgFault 0x12 0x6 n
  ((s5.irqMasterIf (s.f .LNK_CTRL_DOWN_IRQ_EN n == 1) (.link n)).lifEvent 0x07 n).setF .LNK_STATUS_GRACE n 0
    |>.raiseNotice 0x2 (s.peerOf n) n |>.routeReplace [n]

/-- The flush of a link whose key is of no use, without grace, and the link reset (R207, R364). -/
def State.keyLoss (s : State) (n : Nat) : State :=
  let t := s.flush n
  let u := ((t.leaveUp n).setF .LNK_STATUS_GRACE n 0).linkReset n
  if s.up n then u.toFast n else u

/-- Authentication failure (R207). -/
def State.authFail (s : State) (n : Nat) : State := (s.setF .LNK_STATUS_AUTH_FAIL n 1).keyLoss n

/-! ### Entry to UP (R190, R202, R231, R239) -/

/-- Number afresh (R190); the peer's sections are empty again (R239), and packets whose rest was flushed are dropped. -/
def State.renumber (s : State) (n : Nat) : State :=
  ((((s.setF .LNK_SEQ_TX_NEXT n 0).setF .LNK_SEQ_TX_ACKED n 0xFFFF).setF .LNK_SEQ_RX_LAST n 0xFFFF).setF .LNK_STATUS_GRACE n 0).modLink n
    (fun l => { l with fresh := false, flushFlag := false, used := [], dues := [], part := [], rxNext := 0, setP := true, nakDue := false, nakHeld := false })

end Sys2Proof.Machine
end

