-- ==== Sys2Proof/Machine/LinkOps.lean ====
section
/-!
DEFINITION. The link layer's frames (R184-R196, R207-R209, R229-R232) and the stall scheduler (R211, R222, R223): what a transmit slot
sends and what an arriving frame does.
-/
namespace Sys2Proof.Machine

/-! ### CRC-32C and the header (R186, R188) -/

/-- One bit of the reflected CRC. -/
def crcBit (c : Nat) : Nat := if c % 2 = 1 then Nat.xor (c / 2) 0x82F63B78 else c / 2

/-- One byte of the CRC. -/
def crcByte (c : Nat) (b : Byte) : Nat :=
  crcBit (crcBit (crcBit (crcBit (crcBit (crcBit (crcBit (crcBit (Nat.xor c b.toNat))))))))

/-- CRC-32C of a byte string (R188). -/
def crc32c (bs : List Byte) : Nat := Nat.xor (bs.foldl crcByte 0xFFFFFFFF) 0xFFFFFFFF

/-- The fields of a frame header (R186). -/
structure Hdr where
  seq : Nat
  ack : Nat
  stall : Nat
  bell2 : Nat
  typ : Nat
  rpl : Bool
  nak : Bool
  late : Bool
  enc : Bool
  deriving DecidableEq, Repr

/-- The header word. -/
def Hdr.word (h : Hdr) : Nat :=
  h.seq % 2 ^ 16 + h.ack % 2 ^ 16 * 2 ^ 16 + h.stall % 2 ^ 14 * 2 ^ 32 + h.bell2 % 4 * 2 ^ 46 + h.typ % 16 * 2 ^ 48 + b2n h.rpl * 2 ^ 52
    + b2n h.nak * 2 ^ 53 + b2n h.late * 2 ^ 54 + b2n h.enc * 2 ^ 55

/-- The header a word holds. -/
def hdrOf (w : Nat) : Hdr :=
  ⟨field w 0 16, field w 16 16, field w 32 14, field w 46 2, field w 48 4, bit w 52, bit w 53, bit w 54, bit w 55⟩

abbrev tyEmpty := 0
abbrev tyMark := 1
abbrev tyBooked := 2
abbrev tyNil := 3
abbrev tyOpen := 4
abbrev tyControl := 5
abbrev tyTrain := 6

/-- Whether a frame type is sequenced (R187). -/
def sequenced (t : Nat) : Bool := decide (2 ≤ t ∧ t ≤ 5)

/-- The 524 bytes of a frame: header, payload, CRC (R188). -/
def frameBytes (h : Hdr) (payload : List Byte) : List Byte :=
  let body := leBytes 8 h.word ++ payload
  body ++ leBytes 4 (crc32c body)

/-- a - b as a signed 16-bit difference (R190). -/
def seqDiff (a b : Nat) : Int := signed 16 (a + 65536 - b % 65536)

/-- Fabric time in ns since bell 0 at the active bell length. -/
def State.nsNow (s : State) : Nat := s.now * (s.f .BEL_ACTIVE_US * 1000) + s.bel.phase / 2 ^ 32

/-! ### Encryption (R207) -/

/-- The 12-byte IV of a segment; `up` is DIR 1. -/
def segIv (epoch seg : Nat) (up : Bool) : List Byte := leBytes 2 epoch ++ [BitVec.ofNat 8 (b2n up), 0] ++ leBytes 8 seg

/-- 16 bytes of additional data of a frame: the header with ACK, NAK, RPL and LATE zero. -/
def Hdr.aad (h : Hdr) : List Byte := leBytes 8 ({ h with ack := 0, nak := false, rpl := false, late := false } : Hdr).word ++ leBytes 8 0

/-- Bytes xored with the key stream from offset o. -/
def gcmXor (key : Nat) (iv : List Byte) (o : Nat) (bs : List Byte) : List Byte :=
  (List.range bs.length).map (fun i => byteAt bs i ^^^ Config.gcmStream key iv (o + i))

/-- Whether encryption is in use on link n. -/
def State.encOn (s : State) (n : Nat) : Bool := s.f .LNK_STATUS_ENC_ACT n == 1

/-! ### Departures -/

/-- A frame leaves on link n: ACK and NAK are those of this moment (R190, R191, R194); it enters the coded stream (R184, R185, R189). -/
def State.sendFrame (s : State) (n : Nat) (h : Hdr) (payload : List Byte) : State :=
  let nak := (s.link n).nakDue
  let w := frameBytes { h with ack := s.f .LNK_SEQ_RX_LAST n, nak := nak } payload
  let t := s.modLink n (fun l => { l with
    wire := w, line := l.line.send n (h.typ == tyNil) w, nakDue := false, nakHeld := l.nakHeld || nak })
  if nak then t.bump .LNK_CNT_NAK_COUNT n else t

/-- An EMPTY frame (R187). -/
def State.sendEmpty (s : State) (n k : Nat) : State := s.sendFrame n ⟨0, 0, k, s.now % 4, tyEmpty, false, false, false, false⟩ zeros512

/-- Whether stall k of the current bell lies in the awning of link n (R211). -/
def State.inAwning (s : State) (n k : Nat) : Bool := decide (s.spanEnd n s.now ≤ k)

/-- The first late departure of a bell is a retry event (R232). -/
def State.retryEvent (s : State) (n : Nat) : State :=
  if (s.link n).retryBell = some s.now then s
  else (s.modLink n (fun l => { l with retryBell := some s.now })).ldgFault 0x12 0x2 n

/-- The header of a sequenced frame as it leaves now. -/
def State.seqHdr (s : State) (f : TxFrame) (rpl : Bool) : Hdr :=
  ⟨f.seq, 0, f.stall, f.bell % 4, f.typ, rpl, false, decide (f.bell < s.now), f.enc⟩

/-- A sequenced frame leaves in slot k (R194, R212); the replay buffer notes the time (R193). -/
def State.depart (s : State) (n k : Nat) (f : TxFrame) (rpl : Bool) : State :=
  let s1 := if f.bell < s.now then (s.bump .LNK_CNT_LATE_COUNT n).retryEvent n else s
  let s2 := if rpl then s1.bump .LNK_CNT_RPLFR_COUNT n else s1
  let s3 := if s.inAwning n k then s2.bump .STL_CNT_AWN_COUNT n else s2
  let s4 := s3.modLink n (fun l => { l with rb := l.rb.map (fun g => if g.seq = f.seq then { g with sentAt := s.nsNow } else g) })
  s4.sendFrame n (s.seqHdr f rpl) f.payload

/-- A new frame takes its sequence number, its cipher text and its place in the replay buffer (R190, R207). -/
def State.number (s : State) (n : Nat) (f : TxFrame) : TxFrame × State :=
  let l := s.link n
  let q := s.f .LNK_SEQ_TX_NEXT n
  let t := s.setF .LNK_SEQ_TX_NEXT n (q + 1)
  match l.segs with
  | g :: gs =>
    if s.encOn n then
      let enc := f.typ != tyNil
      let h := s.seqHdr { f with seq := q, enc := enc } false
      let c := if enc then gcmXor l.key (segIv g.epoch g.seg (!l.lowSide)) g.text.length f.payload else f.payload
      let f' := { f with seq := q, enc := enc, payload := c }
      let g' := { g with aad := g.aad ++ h.aad, text := if enc then g.text ++ c else g.text }
      (f', t.modLink n (fun l => { l with segs := g' :: gs, rb := l.rb ++ [f'] }))
    else
      let f' := { f with seq := q }
      (f', t.modLink n (fun l => { l with rb := l.rb ++ [f'] }))
  | [] =>
    let f' := { f with seq := q }
    (f', t.modLink n (fun l => { l with rb := l.rb ++ [f'] }))

/-- Frames the replay buffer holds (R192). -/
abbrev replayCap := 512

/-- The next new frame: in plan order, CONTROL frames first while a retrain is pending (R194, R206). -/
def State.nextNew (s : State) (n : Nat) : Option TxFrame :=
  let q := (s.link n).txq
  if s.f .LNK_STATUS_RETRAIN_PEND n = 1 then (q.find? (fun f => f.typ == tyControl)).orElse (fun _ => q.head?) else q.head?

/-- The frame that a replay sends next. -/
def LinkUnit.replayFrame (l : LinkUnit) : Option TxFrame :=
  match l.rpl with
  | none => none
  | some q => l.rb.find? (fun f => decide (0 ≤ seqDiff f.seq q))

/-- A replay from sequence number q starts; a further one from the number of a replay that is still being sent waits until that one is sent in
full. After LIMIT replays from it the link leaves UP, and the count restarts (R195; log entry 53). -/
def State.startReplay (s : State) (n q : Nat) (tmo : Bool) : State :=
  let l := s.link n
  let c := if l.rplFrom = some q then l.rplCount else 0
  if l.rpl.isSome ∧ l.rplFrom = some q then s.modLink n (fun l => { l with rplDue := some tmo })
  else if s.f .LNK_RPL_CFG_LIMIT n ≤ c then (s.fastRetrain n).modLink n (fun l => { l with rplFrom := none, rplCount := 0 })
  else
    let t := (s.bump .LNK_CNT_RPL_COUNT n).modLink n (fun l => { l with
      rpl := some q, rplDue := none, rplFrom := some q, rplCount := c + 1, rplAt := some (q, s.nsNow) })
    if tmo then t.bump .LNK_CNT_TMO_COUNT n else t

/-- A replay has been sent in full: a further one from its number that has come due meanwhile starts (R195). -/
def State.replayEnd (s : State) (n : Nat) : State :=
  match (s.link n).rplDue, (s.link n).rplFrom with
  | some tmo, some q => (s.modLink n (fun l => { l with rplDue := none })).startReplay n q tmo
  | _, _ => s

/-- Slot k of link n with no mark due: the replay, else a new frame, else an EMPTY (R192, R194, R196). -/
def State.slotFrame (s : State) (n k : Nat) : State :=
  let l := s.link n
  let full := decide (replayCap ≤ l.rb.length)
  let s1 := if full then s.bump .LNK_CNT_STALL_COUNT n else s
  match l.replayFrame with
  | some f =>
    let more := l.rb.any (fun g => decide (0 < seqDiff g.seq f.seq))
    let t := (s1.modLink n (fun l => { l with rpl := if more then some (f.seq + 1) else none, catchup := l.catchup && more })).depart n k f true
    if more then t else t.replayEnd n
  | none =>
    let s2 := s1.modLink n (fun l => { l with rpl := none, catchup := false })
    if full || !s.portRuns n then s2.sendEmpty n k
    else
      match s2.nextNew n with
      | none => s2.sendEmpty n k
      | some f =>
        let r := (s2.modLink n (fun l => { l with txq := l.txq.erase f })).number n f
        r.2.depart n k r.1 false

/-! ### Bell marks (R209) -/

/-- The newest segment ends: its tag is fixed under the key it used (R207). -/
def State.closeSeg (s : State) (n : Nat) : State :=
  s.modLink n (fun l => match l.segs with
    | g :: gs => { l with segs := { g with tag := Config.gcmTag l.key (segIv g.epoch g.seg (!l.lowSide)) g.aad g.text } :: gs }
    | [] => l)

/-- A rekey whose bell has come changes the epoch; the old key stays for the segments of the peer not verified yet (R208). -/
def State.rekeyNow (s : State) (n : Nat) : State :=
  match (s.link n).rekey with
  | none => s
  | some b =>
    if s.now < b then s
    else
      let t := s.modLink n (fun l => { l with oldKey := some l.key, key := l.nextKey.getD 0, nextKey := none, rekey := none, rekeyed := some b })
      ((t.setF .LNK_ENC_EPOCH n (s.f .LNK_ENC_EPOCH n + 1)).setF .LNK_ENC_REKEY_ARM n 0).setF .LNK_ENC_REKEY_STATUS n 7

/-- The mark's segment: the next one of the epoch, or segment 0 of a new one (R207, R208). -/
def State.openSeg (s : State) (n : Nat) : State :=
  let t := (s.closeSeg n).rekeyNow n
  let e := t.f .LNK_ENC_EPOCH n
  t.modLink n (fun l =>
    let seg := match l.segs with
      | g :: _ => if g.epoch = e then g.seg + 1 else 0
      | [] => 0
    { l with segs := (⟨t.f .LNK_SEQ_TX_NEXT n, seg, e, [], [], 0⟩ :: l.segs).take 3 })

/-- The payload of a bell mark (R209). -/
def State.markPayload (s : State) (n : Nat) : List Byte :=
  let flags := s.f .BEL_STATUS_JOINED + 2 * s.f .BEL_STATUS_HOLDOVER + 4 * s.f .BEL_CTRL_ROOT + 8 * s.f .BEL_STATUS_REF_HOLDOVER
  let head := leBytes 8 s.now ++ leBytes 4 (s.bel.phase / 2 ^ 16) ++ leBytes 2 flags ++ leBytes 1 (s.f .BEL_ACTIVE_US) ++ leBytes 1 0
    ++ leBytes 4 (s.chipAddr + n * 2 ^ 16)
  let seg := if s.encOn n then
      match (s.link n).segs with
      | g :: r =>
        let p1 := r.head?.getD g
        let p2 := (r.drop 1).head?.getD p1
        leBytes 2 g.start ++ leBytes 2 p1.start ++ leBytes 2 p2.start ++ leBytes 2 g.epoch ++ leBytes 8 g.seg
          ++ leBytes 16 (if r.isEmpty then 0 else p1.tag) ++ leBytes 16 (if r.length < 2 then 0 else p2.tag)
      | [] => leBytes 48 0
    else leBytes 48 0
  head ++ seg ++ leBytes 444 0

/-- Send the bell mark (R209). After it new frames may be assigned (R231), and a pending retrain may act (R206). -/
def State.sendMark (s : State) (n : Nat) : State :=
  let s1 := if s.encOn n then s.openSeg n else s
  let s2 := s1.sendFrame n ⟨0, 0, 0, s.now % 4, tyMark, false, false, false, false⟩ (s1.markPayload n)
  let pend := s.f .LNK_STATUS_RETRAIN_PEND n = 1
  s2.modLink n (fun l => { l with assign := l.assign || (l.rpl.isNone && !l.catchup), retrainNow := l.retrainNow || decide pend })

/-! ### Assigning frames to stalls (R222, R223, R229, R234, R235) -/

/-- A new frame for stall k of the current bell joins the transmit queue; `pkt` is the open packet it ends. -/
def State.queueFrame (s : State) (n k typ : Nat) (payload : List Byte) (pkt : Option OpenPkt := none) : State :=
  s.modLink n (fun l => { l with txq := l.txq ++ [⟨0, typ, s.now, k, false, payload, 0, pkt⟩] })

/-- Read one granule of a vector's source (R222). -/
def State.sourceGranule (s : State) (d : Desc) (v g : Nat) : List Byte × State :=
  let a := (dGran d v g).toNat
  if dSpace d = 1 then s.hbmRead a 512
  else ((s.physical (dCore d)).map (fun c => s.fillRead c a 512)).getD (zeros512, s)

/-- Whether granule g of a dispatch slot goes as NIL, by its header granule (R127). -/
def dispNil (d : Desc) (hdr : List Byte) (g : Nat) : Bool :=
  dDisp d && decide (1 ≤ g) && decide (min (leAt hdr 0 2) (leAt hdr 2 2) ≤ (g - 1) / dRow d)

/-- A PUT or ACC whose source has been read reaches its local completion (R245). -/
def State.sourceRead (s : State) (p : Option (Nat × Nat)) : State :=
  match p with
  | some (c, i) => s.modCore c (fun k => k.setPort i ((k.port i).map (fun o => { o with readDone := true })))
  | none => s

/-- Granule g of the vector in progress of flow f enters the staging buffer; the last one ends the reading (R222, R223). -/
def State.stageGran (s : State) (n f g : Nat) : State :=
  let x := s.tflow n f
  let r := s.sourceGranule x.desc x.slot g
  let staged := x.staged.set g (some r.1)
  let whole := staged.all (·.isSome)
  let t := r.2.setTflow n f { r.2.tflow n f with staged := staged, reading := if whole then none else x.reading }
  if whole then t.sourceRead x.reading else t

/-- Ask for granule g of the vector in progress: through the core's fill port, or in the port's HBM slots (R172, R222). -/
def State.askGran (s : State) (n f g : Nat) : State :=
  let x := s.tflow n f
  let a := (dGran x.desc x.slot g).toNat
  if dSpace x.desc = 1 ∧ s.slotted (.port n) (stackOf a) then s.hbmWait (.port n) a 512 (.stage n f g) else s.stageGran n f g

/-- Start a vector of transmit flow f when it holds PNEED permits and none is in progress (R222). -/
def State.startVector (s : State) (n f : Nat) : State :=
  let s := s.needTx n f
  let x := s.tflow n f
  let d := x.desc
  if !x.loaded || x.refused || x.active || !(dKind d == kPut || dKind d == kAcc) || decide (x.permits < dPneed d) then s
  else
    let t := s.setTflow n f { x with
      permits := x.permits - dPneed d, active := true, cursor := 0, staged := List.replicate (dVlen d) none, reading := x.puts.head?
      puts := x.puts.drop 1, lack := false }
    upto (dVlen d) (fun g s => s.askGran n f g) t

/-- Whether stall k is flow f's first stall in its round: no page run earlier in the round booked it, nor does an earlier stall of this page
(R222). -/
def State.firstInRound (s : State) (n f k : Nat) (page : List Run) : Bool :=
  !(s.link n).ran.contains f
    && (List.range k).all (fun j => match planAt page j with
      | some r => !(r.kind == 0 && r.flow == f)
      | none => true)

/-- The first stall of a TRIG 1 flow in a round: its vector starts, or is skipped (R222). -/
def State.trigVector (s : State) (n f : Nat) : State :=
  let x := s.tflow n f
  (s.setTflow n f { x with lack := decide (x.permits < dPneed x.desc) }).startVector n f

/-- Whether a flow has a vector in progress. An MCAST flow's vector starts when its feeding flow starts to land it: when its first granule is
present and this flow has not taken it (R222, R227). -/
def State.tactive (s : State) (n f : Nat) : Bool :=
  let x := s.tflow n f
  if dKind x.desc = kMcast then
    x.cursor != 0 || (match Map.get none s.transit (dTransit x.desc x.slot 0) with
      | some g => !g.takers.contains (n, f)
      | none => false)
  else x.active

/-- A stall that goes out EMPTY for want of data (R223). -/
def State.stallEmpty (s : State) (n f : Nat) : State :=
  (s.setTflow n f { s.tflow n f with starved := (s.tflow n f).starved || s.tactive n f }).bump .STL_CNT_EMPTY_COUNT n

/-- The cursor after one granule of a vector of d. -/
def TFlow.step (x : TFlow) : TFlow :=
  let d := x.desc
  if x.cursor + 1 < dVlen d then { x with cursor := x.cursor + 1, moved := true }
  else { x with cursor := 0, active := false, staged := [], slot := (x.slot + 1) % max (dPermits d) 1, moved := true }

/-- A BOOKED stall of flow f (R223, R227). -/
def State.assignBooked (s : State) (n f k : Nat) (page : List Run) : State :=
  let x0 := s.tflow n f
  let d := x0.desc
  if !x0.loaded || x0.refused then s.stallEmpty n f
  else if dKind d = kMcast then
    let key := dTransit d x0.slot x0.cursor
    match Map.get none s.transit key with
    | some g =>
      if (n, f) ∈ g.takers then s.stallEmpty n f
      else ((s.queueFrame n k (if g.nil then tyNil else tyBooked) g.bytes).setTflow n f x0.step).takeTransit key n f
    | none => s.stallEmpty n f
  else
    let s1 := if dTrig d && s.firstInRound n f k page then s.trigVector n f else s
    let x := s1.tflow n f
    match x.active, x.staged.getD x.cursor none with
    | true, some bs =>
      let nil := dispNil d ((x.staged.getD 0 none).getD []) x.cursor
      (s1.queueFrame n k (if nil then tyNil else tyBooked) (if nil then zeros512 else bs)).setTflow n f x.step
    | _, _ => s1.stallEmpty n f

/-- An open stall of a class (R234, R239). -/
def State.assignOpen (s : State) (n cls k : Nat) : State :=
  let s1 := s.startPacket n cls
  match Map.get none (s1.link n).cur cls with
  | some ⟨p, b :: bs⟩ =>
    ((s1.queueFrame n k tyOpen b (if bs = [] then some p else none)).modLink n (fun l => { l with cur := Map.set none l.cur cls (if bs = [] then none else some ⟨p, bs⟩) })).pumpAll
  | _ => s1

/-- The 16 bytes of a PERMIT message (R235). -/
def permitMsg (p : Permit) : List Byte :=
  leBytes 16 (1 + p.chip % 2 ^ 15 * 2 ^ 4 + p.link % 64 * 2 ^ 19 + p.flow % 2 ^ 12 * 2 ^ 25 + p.count % 256 * 2 ^ 37)

/-- The 16 bytes of a CREDIT message (R235). -/
def creditMsg (key units : Nat) : List Byte := leBytes 16 (2 + key / 4 * 2 ^ 4 + key % 4 * 2 ^ 6 + units % 2 ^ 16 * 2 ^ 8)

/-- The port messages that wait on link n, and the link without the first eight of them. A count of more than a message holds stays in
part. -/
def LinkUnit.messages (l : LinkUnit) : List (List Byte) × LinkUnit :=
  let ps := l.permits.take 8
  let room := 8 - ps.length
  let ds := l.dues.take room
  let rest := ps.filterMap (fun p => if 255 < p.count then some { p with count := p.count - 255 } else none)
  (ps.map (fun p => permitMsg { p with count := min p.count 255 }) ++ ds.map (fun d => creditMsg d.1 (min d.2 65535)),
    { l with
      permits := rest ++ l.permits.drop 8
      dues := ds.filterMap (fun d => if 65535 < d.2 then some (d.1, d.2 - 65535) else none) ++ l.dues.drop room })

/-- Bytes padded with zeros to n. -/
def padTo (n : Nat) (bs : List Byte) : List Byte := (bs ++ List.replicate (n - bs.length) 0).take n

/-- A control stall: port messages and one control packet, or in the bell's first control stall a keeper (R229, R234). -/
def State.assignControl (s : State) (n k : Nat) (page : List Run) : State :=
  let s1 := s.startPacket n clsCtl
  let m := (s1.link n).messages
  let pkt := (Map.get none (s1.link n).cur clsCtl).map (·.pkt)
  if m.1 = [] ∧ pkt = none then (if firstControl page = some k then s1.queueFrame n k tyControl zeros512 else s1)
  else
    let body := padTo 128 m.1.flatten ++ padTo 384 ((pkt.map (fun p => p.header ++ p.data)).getD [])
    (s1.setLink n { m.2 with cur := Map.set none m.2.cur clsCtl none }).queueFrame n k tyControl body

/-- What stall k of the current bell assigns (R215, R231). -/
def State.assignStall (s : State) (n k : Nat) : State :=
  match s.txPage n s.now with
  | none => s
  | some page =>
    match planAt page k with
    | none => s
    | some r =>
      if r.kind = 0 then s.assignBooked n r.flow k page
      else if r.kind = 1 then s.assignOpen n clsReq k
      else if r.kind = 2 then s.assignOpen n clsRpl k
      else if r.kind = 3 then s.assignControl n k page
      else s

/-- Stalls per transmit slot: 1 at x4, 2 at x2, 4 at x1, doubled at 112 Gb/s (R185). -/
def State.slotStep (s : State) (n : Nat) : Nat :=
  let w := s.f .LNK_STATUS_WIDTH_ACT n
  (if w = 3 then 1 else if w = 2 then 2 else 4) * (1 + s.f .LNK_STATUS_SPEED_ACT n)

/-- The next transmit slot of link n in this bell (R194): the mark in stall 0, then the frames of the stalls that have come. -/
def State.txSlot (s : State) (n : Nat) : State :=
  let k := (s.link n).slot
  let st := s.slotStep n
  if s.up n = false ∨ s.f .BEL_ACTIVE_US * 200 ≤ k then s
  else
    let s1 := s.modLink n (fun l => { l with slot := k + st })
    if k = 0 then s1.sendMark n
    else
      let s2 := if (s1.link n).assign && s1.portRuns n then upto st (fun i s => s.assignStall n (k + 1 - st + i)) s1 else s1
      s2.slotFrame n k

/-! ### Replays (R193, R195) -/

/-- An ACK covers the frames up to sequence number a (R190, R195). -/
def State.takeAck (s : State) (n a : Nat) : State :=
  let old := s.f .LNK_SEQ_TX_ACKED n
  if seqDiff a old ≤ 0 ∨ seqDiff (s.f .LNK_SEQ_TX_NEXT n) a ≤ 0 then s
  else
    (s.setF .LNK_SEQ_TX_ACKED n a).modLink n (fun l =>
      let rb := l.rb.filter (fun f => decide (0 < seqDiff f.seq a))
      let done := (l.rplFrom.map (fun q => decide (seqDiff q a ≤ 0))).getD false
      let left := (l.rpl.map (fun q => rb.any (fun f => decide (0 ≤ seqDiff f.seq q)))).getD false
      { l with
        rb := rb
        rplFrom := if done then none else l.rplFrom
        rplCount := if done then 0 else l.rplCount
        rplDue := if done then none else l.rplDue
        rpl := if left then l.rpl else none
        catchup := l.catchup && left })

/-- A NAK asks for a replay from q, unless q is not held or a replay from q or before started within the last LNK_RTT (R193). -/
def State.takeNak (s : State) (n q : Nat) : State :=
  let l := s.link n
  let recent := match l.rplAt with
    | some (p, t) => decide (0 ≤ seqDiff q p ∧ s.nsNow ≤ t + s.f .LNK_RTT_RTT n / 65536)
    | none => false
  if l.rb.any (fun f => f.seq == q) && !recent then s.startReplay n q false else s

/-! ### Arrivals (R187, R191, R206) -/

/-- A CRC failure, or a frame treated as one (R187, R191, R206). -/
def State.crcFail (s : State) (n : Nat) : State :=
  let s1 := (s.bump .LNK_CNT_CRC_COUNT n).modLink n (fun l => { l with nakDue := l.nakDue || !l.nakHeld })
  let e := s.f .LNK_STATUS_ERR_WIN n + 1
  let s2 := s1.setF .LNK_STATUS_ERR_WIN n (min e 65535)
  if s.f .LNK_ERR_CFG_LIMIT n ≠ 0 ∧ s.f .LNK_ERR_CFG_LIMIT n ≤ e ∧ s.f .LNK_STATUS_RETRAIN_PEND n = 0 then
    (s2.setF .LNK_STATUS_RETRAIN_PEND n 1).irqMasterIf (s.f .LNK_CTRL_ERR_IRQ_EN n == 1) (.link n)
  else s2

/-- The plan bell of a frame: the first bell at or after P whose low bits equal BELL2 (R230). -/
def planBell (p bell2 : Nat) : Nat := p + (bell2 + 4 - p % 4) % 4

/-- A booked granule of receive flow f lands, and the cursor moves (R224). -/
def State.landFlow (s : State) (n f : Nat) (bs : List Byte) (nil : Bool) : State :=
  let x := s.rflow n f
  let d := x.desc
  let ok := x.loaded && !x.refused && (dKind d == kLand || dKind d == kLandFwd || dKind d == kFwd)
  if !ok then s.bump .STL_CNT_REFUSED_COUNT n
  else
    let last := decide (dVlen d ≤ x.cursor + 1)
    let t := s.setRflow n f { x with
      cursor := if last then 0 else x.cursor + 1
      slot := if last then (x.slot + 1) % max (dPermits d) 1 else x.slot
      moved := true }
    t.landOrHold n f x.slot x.cursor bs nil

/-- One frame of an open packet of a class (R234). -/
def State.reassemble (s : State) (n cls : Nat) (bs : List Byte) : State :=
  let all := Map.get [] (s.link n).part cls ++ bs
  let need := 16 + (pktOf (all.take 16) []).len
  let put := fun (t : State) (v : List Byte) => t.modLink n (fun l => { l with part := Map.set [] l.part cls v })
  if all.length < need then put s all
  else (put s []).openArrive n (pktOf (all.take 16) ((all.drop 16).take (need - 16)))

/-- A port message (R226, R235, R239); any other KIND is ignored. -/
def State.portMsg (s : State) (n w : Nat) : State :=
  if field w 0 4 = 1 then
    s.sendPermit none ⟨field w 4 15, field w 19 6, field w 25 12, field w 37 8⟩
  else if field w 0 4 = 2 then
    let k := 4 * field w 4 2 + field w 6 2
    s.modLink n (fun l => { l with used := Map.set [] l.used k (creditBack (Map.get [] l.used k) (field w 8 16)) })
  else s

/-- A CONTROL frame: its messages, then its control packet (R234). -/
def State.controlFrame (s : State) (n : Nat) (bs : List Byte) : State :=
  let s1 := upto 8 (fun i s => s.portMsg n (leAt bs (16 * i) 16)) s
  if leAt bs 128 16 = 0 then s1 else s1.openArrive n (pktOf ((bs.drop 128).take 16) (bs.drop 144))

/-- Land, forward or consume an accepted frame by the page of its plan bell (R224, R230). -/
def State.consume (s : State) (n : Nat) (f : RxFrame) (page : List Run) : State :=
  let r := planAt page f.stall
  if f.typ = tyControl then s.controlFrame n f.payload
  else if f.typ = tyOpen then
    match r with
    | some r => if r.kind = 1 then s.reassemble n clsReq f.payload else if r.kind = 2 then s.reassemble n clsRpl f.payload else s
    | none => s
  else
    match r with
    | some r => if r.kind = 0 then s.landFlow n r.flow f.payload (f.typ == tyNil) else s.bump .STL_CNT_REFUSED_COUNT n
    | none => s.bump .STL_CNT_REFUSED_COUNT n

/-- Take the oldest frame of the receive FIFO when the port runs and its page is cached (R196, R230). -/
def State.fifoStep (s : State) (n : Nat) : State :=
  match (s.link n).rxFifo with
  | [] => s
  | f :: fs =>
    if s.portRuns n = false then s
    else
      match s.rxPage n f.bell with
      | some page => (s.modLink n (fun l => { l with rxFifo := fs })).consume n f page
      | none => s

/-- Take the frames of the receive FIFO in arrival order. -/
def State.fifoDrain (s : State) (n : Nat) : State := upto (s.link n).rxFifo.length (fun _ s => s.fifoStep n) s

/-- The key of an epoch as link n's port holds it: the active slot, the next one, or the old one (R208). -/
def State.keyOf (s : State) (n epoch : Nat) : Nat :=
  let l := s.link n
  let e := s.f .LNK_ENC_EPOCH n
  if epoch = e then l.key else if epoch = e + 1 then l.nextKey.getD 0 else if epoch + 1 = e then l.oldKey.getD 0 else 0

/-- The epoch that this side's own rekey bell gives the segment of a bell's mark (R208). -/
def State.epochAt (s : State) (n bell : Nat) : Nat :=
  let l := s.link n
  let e := s.f .LNK_ENC_EPOCH n
  match l.rekey, l.rekeyed with
  | some b, _ => if b ≤ bell then e + 1 else e
  | none, some b => if bell < b then e - 1 else e
  | none, none => e

/-- The frames of a segment up to sequence number q that wait for its tag. -/
def LinkUnit.logged (l : LinkUnit) (start q : Nat) : List RxLog := l.rxLog.filter (fun x => decide (0 ≤ seqDiff x.seq start ∧ seqDiff x.seq q < 0))

/-- The payload of an accepted frame in clear, by the segment that holds its number, and the log of what that segment's tag covers (R207). -/
def State.decrypt (s : State) (n : Nat) (h : Hdr) (payload : List Byte) : List Byte × State :=
  let l := s.link n
  let e : RxLog := ⟨h.seq, h.aad, if h.enc then payload else []⟩
  if s.encOn n then
    let t := s.modLink n (fun l => { l with rxLog := l.rxLog ++ [e] })
    match l.rxSegs.find? (fun g => decide (0 ≤ seqDiff h.seq g.start)) with
    | some g =>
      let o := ((l.logged g.start h.seq).map (fun x => x.text.length)).sum
      (if h.enc then gcmXor (s.keyOf n g.epoch) (segIv g.epoch g.seg l.lowSide) o payload else payload, t)
    | none => (payload, t)
  else (payload, s)

/-- Check one tag whose frames have all been accepted; a segment whose EPOCH is not this side's fails (R207, R208). -/
def State.checkTag (s : State) (n : Nat) (t : RxTag) : Bool :=
  let l := s.link n
  let es := l.logged t.seg.start t.stop
  t.seg.sound && Config.gcmTag (s.keyOf n t.seg.epoch) (segIv t.seg.epoch t.seg.seg l.lowSide) (es.flatMap (·.aad)) (es.flatMap (·.text)) == t.tag

/-- The old key is zeroised once no segment under it is left to verify (R208). -/
def State.dropOldKey (s : State) (n : Nat) : State :=
  s.modLink n (fun l =>
    if l.rxSegs.any (fun g => g.epoch + 1 == s.f .LNK_ENC_EPOCH n) then l else { l with oldKey := none })

/-- Verify the oldest tag once every frame of its segment has been accepted (R207, R208). -/
def State.verifyTag (s : State) (n : Nat) : State :=
  match (s.link n).rxTags with
  | [] => s
  | t :: ts =>
    if seqDiff (s.f .LNK_SEQ_RX_LAST n + 1) t.stop < 0 then s
    else if s.checkTag n t then
      (s.modLink n (fun l => { l with
        rxTags := ts
        rxLog := l.rxLog.filter (fun x => decide (0 ≤ seqDiff x.seq t.stop))
        rxSegs := l.rxSegs.filter (fun g => !(g.epoch == t.seg.epoch && g.seg == t.seg.seg)) })).dropOldKey n
    else s.authFail n

/-- Verify the tags that can be. -/
def State.verifyTags (s : State) (n : Nat) : State := upto (s.link n).rxTags.length (fun _ s => s.verifyTag n) s

/-- Accept the expected sequenced frame (R191, R230, R232). -/
def State.accept (s : State) (n : Nat) (h : Hdr) (payload : List Byte) : State :=
  let b := planBell (s.f .STL_RXCUR_BELL n) h.bell2
  let s1 := ((s.setF .LNK_SEQ_RX_LAST n h.seq).setF .STL_RXCUR_BELL n b).modLink n (fun l => { l with nakHeld := false })
  let s2 := if b < s.now then s1.bump .STL_CNT_RXLATE_COUNT n else s1
  let r := s2.decrypt n h payload
  ((r.2.modLink n (fun l => { l with rxFifo := l.rxFifo ++ [⟨h.typ, b, h.stall, r.1⟩] })).fifoDrain n).verifyTags n

/-- A sequenced frame with a good CRC (R191). -/
def State.sequence (s : State) (n : Nat) (h : Hdr) (payload : List Byte) : State :=
  let d := seqDiff h.seq (s.f .LNK_SEQ_RX_LAST n + 1)
  if d = 0 then s.accept n h payload
  else if 0 < d then s.modLink n (fun l => { l with nakDue := l.nakDue || !l.nakHeld })
  else s

/-- The segment before one, by the mark that was lost: of the same epoch, or the last of the epoch before. -/
def RxSeg.between (g new : RxSeg) (start : Nat) (s : State) (n : Nat) : RxSeg :=
  let same := decide (g.epoch = new.epoch ∨ new.seg = 0)
  let e := if same then g.epoch else new.epoch
  ⟨start, if same then g.seg + 1 else 0, e, new.bell - 1, e == s.epochAt n (new.bell - 1), false⟩

/-- Marks from the one that opened g to the one that opens new: by SEG, across a rekey by the bells. -/
def RxSeg.gap (g new : RxSeg) : Nat := if g.epoch = new.epoch then new.seg - g.seg else if new.seg ≤ 1 then new.bell - g.bell else 0

/-- The segment tags and the next segment that a mark brings (R207, R367): the tag of the segment before it, or of two when one mark was lost;
a segment of which both marks were lost cannot be verified. -/
def State.markTags (s : State) (n : Nat) (p : List Byte) : State :=
  let s0 := leAt p 20 2
  let s1 := leAt p 22 2
  let bell := leAt p 0 8
  let new : RxSeg := ⟨s0, leAt p 28 8, leAt p 26 2, bell, leAt p 26 2 == s.epochAt n bell, false⟩
  let old := (s.link n).rxSegs.filter (fun g => !g.guess)
  let put := fun (gs : List RxSeg) (ts : List RxTag) => (s.modLink n (fun l => { l with rxSegs := gs, rxTags := l.rxTags ++ ts })).verifyTags n
  if 2 ^ 32 ≤ new.seg then s.authFail n
  else
    match old with
    | [] =>
      if new.seg = 0 then put [new] []
      else if new.seg = 1 then
        let first : RxSeg := ⟨s1, 0, new.epoch, bell - 1, new.epoch == s.epochAt n (bell - 1), false⟩
        put [new, first] [⟨first, s0, leAt p 36 16⟩]
      else s.authFail n
    | g :: _ =>
      if g.gap new = 1 then put (new :: old) [⟨g, s0, leAt p 36 16⟩]
      else if g.gap new = 2 then
        let mid := g.between new s1 s n
        put (new :: mid :: old) [⟨g, s1, leAt p 52 16⟩, ⟨mid, s0, leAt p 36 16⟩]
      else s.authFail n

/-- The segment that a lost mark opened, as the receiver's stall count tells it: the frames not accepted yet belong to it until the next mark
says where it began (R207, R209; log entry 53). -/
def State.guessSeg (s : State) (n : Nat) : State :=
  match (s.link n).rxSegs with
  | [] => s
  | g :: _ =>
    let e := s.epochAt n (g.bell + 1)
    let new : RxSeg := ⟨(s.f .LNK_SEQ_RX_LAST n + 1) % 65536, if e = g.epoch then g.seg + 1 else 0, e, g.bell + 1, true, true⟩
    s.modLink n (fun l => { l with rxSegs := new :: l.rxSegs })

/-- Count a received frame slot (R209); one that the count puts at stall 0 and that holds no mark is a lost mark's. -/
def State.countSlot (s : State) (n : Nat) (mark : Bool) : State :=
  let k := (s.link n).rxStall
  let t := s.modLink n (fun l => { l with
    rxStall := if mark then s.slotStep n else (k + s.slotStep n) % max (s.f .BEL_ACTIVE_US * 200) 1 })
  if k = 0 ∧ !mark ∧ s.encOn n then t.guessSeg n else t

/-- The active slot of BEL_PARENT (R52). -/
def State.parentLink (s : State) : Nat := if s.f .BEL_STATUS_ALT_ACTIVE = 1 then s.f .BEL_PARENT_ALT else s.f .BEL_PARENT_PARENT

/-- A bell mark arrives (R52, R54, R209, R230). -/
def State.markArrive (s : State) (n : Nat) (p : List Byte) : State :=
  let flags := leAt p 12 2
  let s1 := (s.setF .BEL_TS_DEP_TS n (leAt p 0 4 * 2 ^ 32 + leAt p 8 4)).setF .BEL_TS_ARR_TS n s.stamp
  let s2 := s1.modLink n (fun l => { l with marks := l.marks + 1 })
  let m := (s2.link n).marks
  let s3 := if m = 4 ∧ s.f .BEL_PARENT_PARENT = n then s2.setFb .BEL_STATUS_PARENT_FRESH 0 0 true else s2
  let s4 := if m = 4 ∧ s.f .BEL_PARENT_ALT = n then s3.setFb .BEL_STATUS_PARENT_FRESH 0 1 true else s3
  let use := decide (s.parentLink = n) && bit (s4.f .BEL_STATUS_PARENT_FRESH) (s.f .BEL_STATUS_ALT_ACTIVE) && bit flags 0 && !bit flags 1
  let s5 := if use then (({ s4 with bel := { s4.bel with usable := true, noMark := 0 } } : State).setF .BEL_STATUS_HOLDOVER 0 0) else s4
  let s5 := if s.rst.boot = 6 ∧ s.parentLink = n ∧ s.rst.acq < 16 then
      { s5 with rst := { s5.rst with acq := if bit flags 0 then s.rst.acq + 1 else 0, mark := leAt p 0 8 } }
    else if s.parentLink = n then { s5 with rst := { s5.rst with mark := leAt p 0 8 } } else s5
  let s6 := if (s.link n).setP && decide (0 ≤ seqDiff (s.f .LNK_SEQ_RX_LAST n + 1) (s.link n).rxNext) then
      (s5.setF .STL_RXCUR_BELL n (leAt p 0 8)).modLink n (fun l => { l with setP := false }) else s5
  if s.encOn n then s6.markTags n p else s6

/-- Whether a frame's bytes are good: the CRC, that of zero payload bytes for NIL, a listed TYPE, reserved header bits zero (R187-R189). -/
def frameGood (bytes : List Byte) : Bool :=
  let w := leAt bytes 0 8
  let h := hdrOf w
  let payload := if h.typ = tyNil then zeros512 else (bytes.drop 8).take 512
  bytes.length == 524 && crc32c (leBytes 8 w ++ payload) == leAt bytes 520 4 && decide (h.typ ≤ 6) && decide (w < 2 ^ 56)

/-- A good frame on a link in UP: ACK and NAK are taken, and its type acted on. A mark of another bell length is only counted (R190, R191, R209). -/
def State.receiveGood (s : State) (n : Nat) (h : Hdr) (payload : List Byte) : State :=
  let alien := decide (h.typ = tyMark ∧ leAt payload 14 1 ≠ s.f .BEL_ACTIVE_US)
  let s0 := s.countSlot n (h.typ == tyMark && !alien)
  if alien then s0.bump .LNK_CNT_BELLMIS_COUNT n
  else
    let s1 := s0.takeAck n h.ack
    let s2 := if h.nak then s1.takeNak n ((h.ack + 1) % 65536) else s1
    if s2.up n = false then s2
    else if sequenced h.typ then s2.sequence n h payload
    else if h.typ = tyMark then s2.markArrive n payload
    else s2

/-- A frame arrives on link n (R187-R191, R412), with the symbols its codewords' code corrected: outside UP it is discarded; one whose codeword
cannot be corrected or that is not good counts as a CRC failure. -/
def State.receive (s : State) (n : Nat) (bytes : List Byte) (fec : Option Nat) : State :=
  if s.up n = false then s
  else
    match fec with
    | none => (s.countSlot n false).crcFail n
    | some k =>
      let t := if k = 0 then s else s.bump .LNK_CNT_FECSYM_COUNT n k
      if frameGood bytes then
        let h := hdrOf (leAt bytes 0 8)
        t.receiveGood n h (if h.typ = tyNil then zeros512 else (bytes.drop 8).take 512)
      else (t.countSlot n false).crcFail n

end Sys2Proof.Machine
end

