-- ==== Sys2Proof/Machine/Link.lean ====
section
/-!
DEFINITION. The link layer's commands (R187-R209, R365, R366, R412-R414): transmit slots, arriving frames, training, handshake, resets,
grace and rekeying.
-/
namespace Sys2Proof.Machine

/-! ### Frames -/

/-- TX_SLOT (R194). -/
def execTxSlot (n : LinkId) (s : State) : Out := .next (s.txSlot n)

/-- FRAME_RECEIVE (R191). -/
def execFrameReceive (n : LinkId) (bytes : List Byte) (fec : Option Nat) (s : State) : Out := .next (s.receive n bytes fec)

/-- BELL_MARK_RECEIVE (R209). -/
def execBellMarkReceive (n : LinkId) (bytes : List Byte) (fec : Option Nat) (s : State) : Out := .next (s.receive n bytes fec)

/-- Whether frame f of link n has timed out: LNK_RTT and TMO_EXTRA have passed since it last left, and no replay in progress is still to send
it (R193). -/
def State.timedOut (s : State) (n : Nat) (f : TxFrame) : Bool :=
  let due := decide ((f.sentAt + s.f .LNK_RPL_CFG_TMO_EXTRA n) * 65536 + s.f .LNK_RTT_RTT n ≤ s.nsNow * 65536)
  let ahead := match (s.link n).rpl with
    | some q => decide (0 ≤ seqDiff f.seq q)
    | none => false
  due && !ahead

/-- A timeout of the oldest frame q: a replay from it, or the one that a NAK started at the same time starts there instead (R193). -/
def State.timeoutReplay (s : State) (n q : Nat) : State :=
  match (s.link n).rplAt with
  | some (p, t) =>
    if t = s.nsNow ∧ 0 < seqDiff p q ∧ (s.link n).rpl = some p then
      (s.modLink n (fun l => { l with rpl := some q, rplFrom := some q, rplCount := 1, rplAt := some (q, t) })).bump .LNK_CNT_TMO_COUNT n
    else s.startReplay n q true
  | none => s.startReplay n q true

/-- REPLAY_TIMEOUT (R193): a replay from the oldest frame not acknowledged, once its time is over. -/
def execReplayTimeout (n : LinkId) (s : State) : Out :=
  .next (match (s.link n).rb with
    | f :: _ => if s.up n && s.timedOut n f then s.timeoutReplay n f.seq else s
    | [] => s)

/-- ERR_LIMIT_RETRAIN (R206): the mark has been sent with RETRAIN_PEND set. -/
def execErrLimitRetrain (n : LinkId) (s : State) : Out :=
  .next (if s.up n && (s.link n).retrainNow then s.fastRetrain n else s)

/-! ### Training (R198, R200) -/

/-- Set the module pins of a G-link (LNK_MOD). -/
def State.setModule (s : State) (n v : Nat) : State :=
  if n < 32 then s else (s.setF .LNK_MOD_RESET n v).setF .LNK_MOD_LPMODE n v

/-- LINK_ENABLE (R198, R201, R240): OFF to DETECT, with the commits of LNK_CFG and OPN_RBUF. -/
def State.linkEnable (s : State) (n : Nat) : State :=
  let s1 := (s.setF .LNK_CTRL_EN n 1).setModule n 0
  if s.f .LNK_STATUS_STATE n = lkOff then ((s1.commitCfg n).commitRbuf n).setLk n lkDetect else s1

def execLinkEnable (n : LinkId) (s : State) : Out := .next (s.linkEnable n)

/-- LINK_DISABLE (R198, R366): any state to OFF. -/
def State.linkDisable (s : State) (n : Nat) : State :=
  (((s.toDetect n).dropKeys n).setLk n lkOff |>.setF .LNK_CTRL_EN n 0).setModule n 1

def execLinkDisable (n : LinkId) (s : State) : Out := .next (s.linkDisable n)

/-- SIGNAL_DETECT (R198): training starts, fast when coefficients are kept. -/
def execSignalDetect (n : LinkId) (lanes : BitVec 4) (s : State) : Out :=
  let on := Nat.land lanes.toNat (s.link n).lanes
  .next (if s.f .LNK_STATUS_STATE n = lkDetect ∧ on ≠ 0 then
      let t := s.setLanes n on 0
      if (s.link n).coeffs = 0 then t.toFull n else t.toFast n
    else s)

/-- The k lowest lanes of a mask. -/
def lowLanes (m k : Nat) : Nat := (((List.range 4).filter (fun l => bit m l)).take k).foldl (fun a l => a + 2 ^ l) 0

/-- The width of R200: the largest that both sides allow and for which enough lanes pass. -/
def trainWidth (own peer passing : Nat) : Option Nat := [3, 2, 1].find? (fun w => decide (w ≤ own ∧ w ≤ peer ∧ widthLanes w ≤ laneCount passing))

/-- Enter HANDSHAKE: LNK_PEER shows VALID, and this side's first TRAIN frame leaves (R199). -/
def State.toHand (s : State) (n : Nat) : State :=
  let t := ((s.modLink n (fun l => { l with trains := [] })).setF .LNK_PEER_VALID n 1).setLk n lkHand
  t.sendTrain n (t.ownTrain n none [] none)

/-- TRAIN_PASS (R198, R200): HANDSHAKE at the width and speed of R200, on the lowest lanes that pass. -/
def execTrainPass (n : LinkId) (lanes : BitVec 4) (peerWidth : BitVec 2) (peerSpeed : Bool) (s : State) : Out :=
  let l := s.link n
  let st := s.f .LNK_STATUS_STATE n
  let pass := Nat.land lanes.toNat l.lanes
  .next (match trainWidth l.widthMax peerWidth.toNat pass with
    | none => s
    | some w =>
      if st = lkFull ∨ st = lkFast then
        let use := lowLanes pass (widthLanes w)
        let t := ((s.setF .LNK_STATUS_WIDTH_ACT n w).setF .LNK_STATUS_SPEED_ACT n (max l.speed (b2n peerSpeed))).setF .LNK_STATUS_LANES_OK n use
        (t.setLanes n (Nat.lor pass (sumTo 4 (fun i => s.f .LNK_LANE_SIGNAL (4 * n + i) * 2 ^ i))) use).toHand n
      else s)

/-- TRAIN_FULL_TIMEOUT (R198). -/
def execTrainFullTimeout (n : LinkId) (s : State) : Out :=
  .next (if s.f .LNK_STATUS_STATE n = lkFull then (s.toDetect n).bump .LNK_CNT_TFAIL_COUNT n else s)

/-- TRAIN_FAST_TIMEOUT (R198). -/
def execTrainFastTimeout (n : LinkId) (s : State) : Out :=
  .next (if s.f .LNK_STATUS_STATE n = lkFast then s.toFull n else s)

/-! ### Handshake (R199, R202, R365) -/

/-- The mean round trip of the exchanges in 2^-16 ns (R199). -/
def meanRtt (xs : List (Nat × Nat × Nat × Nat)) : Nat :=
  let total := (xs.map (fun x => ((x.2.2.2 : Int) - x.1) - ((x.2.2.1 : Int) - x.2.1))).sum
  (total / ((max xs.length 1 : Nat) : Int)).toNat

/-- A chip address and link number as 4 bytes of a transcript or KDF context. -/
def endBytes (chip link : Nat) : List Byte := leBytes 2 chip ++ leBytes 2 link

/-- The two ends of link n in ascending chip-address order (R365). -/
def State.transcriptEnds (s : State) (n chip link : Nat) : List Byte :=
  if s.chipAddr ≤ chip then endBytes s.chipAddr n ++ endBytes chip link else endBytes chip link ++ endBytes s.chipAddr n

/-- This module's ephemeral private key for the next exchange, from the DRBG (R365). -/
def State.ephemeral (s : State) : Nat := Config.kdf s.sec.drbg (leBytes 2 0x65)

/-- The key of an epoch of link n (R366). -/
def State.epochKey (s : State) (n z epoch : Nat) : Nat :=
  Config.kdf z ([0x5A, 0x58, 0x39, 0x20, 0x6C, 0x69, 0x6E, 0x6B] ++ s.transcriptEnds n (s.f .LNK_PEER_CHIP n) (s.f .LNK_PEER_LINK n) ++ leBytes 2 epoch)

/-- The transcript: both ephemeral keys, then both ends, in ascending chip-address order (R365). -/
def State.transcript (s : State) (n : Nat) (t : TrainFrame) (peerEph : List Byte) : List Byte :=
  let own := Config.pubKey s.ephemeral
  (if s.chipAddr ≤ t.chip then own ++ peerEph else peerEph ++ own) ++ s.transcriptEnds n t.chip t.link

/-- The shared secret that a key exchange brings, when every check passes (R365). -/
def State.exchange (s : State) (n : Nat) (t : TrainFrame) : Option Nat :=
  match t.kex with
  | some (serial, idKey, cert, eph, sig) =>
    if Config.sigOk Config.caKey (serial ++ idKey) cert && Config.sigOk idKey (s.transcript n t eph) sig then some (Config.ecdh s.ephemeral eph)
    else none
  | none => none

/-- Whether link n holds a resumable key (R365). -/
def State.resumable (s : State) (n : Nat) (t : TrainFrame) : Bool :=
  let l := s.link n
  s.f .LNK_STATUS_GRACE n == 1 && !l.flushFlag && !t.flushed && l.keyZ.isSome

/-- The transmit slot that comes next at this phase of the bell: one every `slotStep` stalls of 5 ns. -/
def State.phaseSlot (s : State) (n : Nat) : Nat := ceilDiv (ceilDiv s.bel.phase (5 * 2 ^ 32)) (s.slotStep n) * s.slotStep n

/-- Complete a LINK_RETRAIN of link n that has started, with the width in DETAIL (R205). -/
def State.retrainDone (s : State) (n : Nat) : State :=
  if s.hst.taken.any (fun t => t.code == 0x42 && t.started && (byteAt t.args 0).toNat == n) then
    s.complete 0x42 cOk (s.f .LNK_STATUS_WIDTH_ACT n)
  else s

/-- Resume: the peer's token acknowledges, and what is left is replayed (R202); that replay is counted as any other (log entry 53). -/
def State.resume (s : State) (n : Nat) (t : TrainFrame) : State :=
  let s1 := (s.takeAck n t.accepted).modLink n (fun l => { l with rxNext := t.next, setP := true, nakDue := false, nakHeld := false })
  match (s1.link n).rb with
  | [] => s1.modLink n (fun l => { l with rpl := none, rplDue := none, catchup := false })
  | f :: _ =>
    (s1.bump .LNK_CNT_RPL_COUNT n).modLink n (fun l => { l with
      rpl := some f.seq, rplDue := none, rplFrom := some f.seq, rplCount := (if l.rplFrom = some f.seq then l.rplCount else 0) + 1
      rplAt := some (f.seq, s.nsNow), catchup := true })

/-- This side flushes too when the peer has flushed and it has not (R202, R203). -/
def State.joinFlush (s : State) (n : Nat) (t : TrainFrame) : State :=
  if t.flushed && !(s.link n).flushFlag && !(s.link n).fresh then s.flush n else s

/-- Firmware wants the detour plan of link n, which has come UP at reduced width, unless the plan's sets are in force (08, R204). -/
def State.wantDetour (s : State) (n : Nat) : State :=
  match s.topo.plans.find? (fun p => p.ends.contains (s.chipAddr, n)) with
  | some p =>
    if s.f .LNK_STATUS_WIDTH_ACT n = 3 ∨ p.sets.all (fun y => y.2.1 == s.f .STL_TXBASE_ACT_BASE (y.1 % 64) * 65536) then s
    else { s with topo := { s.topo with wanted := s.topo.wanted.filter (fun q => q != p.id) ++ [p.id] } }
  | none => s

/-- The entry to UP: delay registers, numbering afresh or resuming, and the end of grace (R198, R199, R202). The lanes in use keep their
coefficients from here on (R197). -/
def State.enterUp (s : State) (n : Nat) (t : TrainFrame) : State :=
  let rtt := meanRtt t.exchanges
  let s1 := (s.setF .LNK_RTT_RTT n rtt).setF .BEL_LINKDLY_DLY n (rtt / 2)
  let l := s.link n
  let s3 := if l.flushFlag || l.fresh then s1.renumber n else s1.resume n t
  let s4 := ((s3.setLk n lkUp).setF .LNK_STATUS_GRACE n 0).setF .LNK_STATUS_ENC_ACT n (b2n l.enc)
  let first : RxSeg := ⟨(s4.f .LNK_SEQ_RX_LAST n + 1) % 65536, 0, s4.f .LNK_ENC_EPOCH n, s4.now, true, true⟩
  (s4.modLink n (fun l => { l with
    assign := false, lowSide := decide (s.chipAddr < t.chip), slot := s4.phaseSlot n, rxStall := 0
    coeffs := Nat.lor l.coeffs (s4.f .LNK_STATUS_LANES_OK n)
    rxSegs := if l.enc && l.rxSegs.isEmpty then [first] else l.rxSegs })).retrainDone n |>.wantDetour n

/-- Take the keys of an exchange: epoch 0 starts, with no segment (R366). -/
def State.takeKey (s : State) (n z : Nat) : State :=
  let t := (s.setF .LNK_ENC_EPOCH n 0).bump .SEC_CNT_KEX_COUNT
  let k := t.epochKey n z 0
  ({ t with sec := { t.sec with drbg := Config.kdf t.sec.drbg (leBytes 2 0x66) } } : State).modLink n
    (fun l => { l with keyZ := some z, key := k, nextKey := none, rekey := none, oldKey := none, rekeyed := none, segs := [], rxSegs := [], rxLog := [], rxTags := [] })

/-- This side's answers to the peer's 16 exchanges: each is received and answered at this moment (R199). -/
def State.answers (s : State) : List (Nat × Nat × Nat × Nat) := List.replicate 16 (0, s.stamp, s.stamp, 0)

/-- This side's key exchange: identity and ephemeral key in one TRAIN frame, the signature over the transcript in the next (R365). -/
def State.sendKex (s : State) (n : Nat) (t : TrainFrame) (peerEph : List Byte) : State :=
  let idKey := Config.pubKey s.sec.idKey
  let k1 := (leBytes 8 s.fuse.serial, idKey, s.sec.otp.cert, Config.pubKey s.ephemeral, [])
  let k2 := ([], [], [], [], Config.sign s.sec.idKey (s.transcript n t peerEph))
  (s.sendTrain n (s.ownTrain n none [] (some k1))).sendTrain n (s.ownTrain n none [] (some k2))

/-- What a TRAIN frame does in HANDSHAKE (R199, R202, R365). -/
def State.handshake (s : State) (n : Nat) (t : TrainFrame) : State :=
  let l := s.link n
  let s1 := (((s.setF .LNK_PEER_CHIP n t.chip).setF .LNK_PEER_LINK n t.link).setF .LNK_PEER_VALID n 1).modLink n
    (fun l => { l with peer := some (t.chip % 2 ^ 15) })
  let s2 := s1.sendTrain n (s1.ownTrain n none s.answers none)
  if t.refusal.isSome then s.toRefused n 4
  else if s.f .LNK_EXPECT_CHECK_EN n = 1 ∧ (s1.f .LNK_PEER_CHIP n ≠ s.f .LNK_EXPECT_CHIP n ∨ s1.f .LNK_PEER_LINK n ≠ s.f .LNK_EXPECT_LINK n) then
    s1.toRefused n 1
  else if l.enc ≠ t.enc then s1.toRefused n 2
  else if l.enc && !s.resumable n t then
    if s.f .SEC_STATUS_ZEROISED = 1 then s1.toRefused n 3
    else
      match s.exchange n t, t.kex with
      | some z, some (_, _, _, eph, _) => (((s2.sendKex n t eph).joinFlush n t).takeKey n z).enterUp n t
      | _, _ => (s1.bump .SEC_CNT_KEXFAIL_COUNT).toRefused n 3
  else (s2.joinFlush n t).enterUp n t

/-- TRAIN_FRAME_RECEIVE: outside HANDSHAKE the port does not act on one (R412). -/
def execTrainFrameReceive (n : LinkId) (t : TrainFrame) (s : State) : Out :=
  .next (if s.f .LNK_STATUS_STATE n = lkHand then s.handshake n t else s)

/-- HANDSHAKE_TIMEOUT (R199). -/
def execHandshakeTimeout (n : LinkId) (s : State) : Out :=
  .next (if s.f .LNK_STATUS_STATE n = lkHand then s.toRefused n 4 else s)

/-! ### Losses and resets (R198, R203-R206, R413, R414) -/

/-- SIGNAL_LOSS (R198). -/
def execSignalLoss (n : LinkId) (s : State) : Out :=
  let st := s.f .LNK_STATUS_STATE n
  .next (if st = lkFull ∨ st = lkFast ∨ st = lkHand ∨ st = lkUp then s.toDetect n else s)

/-- LANE_LOSS (R204): the active lanes outside `lock` have lost lock. -/
def execLaneLoss (n : LinkId) (lock : BitVec 4) (s : State) : Out :=
  let use := s.f .LNK_STATUS_LANES_OK n
  let left := Nat.land use lock.toNat
  .next (if s.up n && left != use then
      ((s.bump .LNK_CNT_LANELOSS_COUNT n).setLanes n (sumTo 4 (fun i => s.f .LNK_LANE_SIGNAL (4 * n + i) * 2 ^ i)) left).fastRetrain n
    else s)

/-- PEER_TRAINING_PATTERN (R413). -/
def execPeerTrainingPattern (n : LinkId) (s : State) : Out := .next (if s.up n then s.fastRetrain n else s)

/-- A write of LNK_CTRL.RETRAIN (R414). -/
def State.retrainWrite (s : State) (n : Nat) : State := if s.up n then s.fastRetrain n else s

def execLnkRetrainWrite (n : LinkId) (s : State) : Out := .next (s.retrainWrite n)

/-- A write of LNK_CTRL.RESET (R198, R366): link reset, coefficients discarded, full training; in OFF no effect. -/
def State.resetWrite (s : State) (n : Nat) : State :=
  if s.f .LNK_STATUS_STATE n = lkOff then s
  else ((((s.leaveUp n).linkReset n).dropKeys n).modLink n (fun l => { l with coeffs := 0 })).toFull n

def execLnkResetWrite (n : LinkId) (s : State) : Out := .next (s.resetWrite n)

/-- A write of LNK_CTRL.FLUSH (R203): in UP it also resets the link, which retrains fast. -/
def State.flushWrite (s : State) (n : Nat) : State := if s.up n then (s.flush n).fastRetrain n else s.flush n

def execLnkFlushWrite (n : LinkId) (s : State) : Out := .next (s.flushWrite n)

/-- GRACE_EXPIRY (R203). -/
def execGraceExpiry (n : LinkId) (s : State) : Out :=
  .next (if s.f .LNK_STATUS_GRACE n = 1 ∧ s.up n = false then s.flush n else s)

/-! ### Rekeying and LINK_RETRAIN -/

/-- Arm a rekey at a bell (R208, R366): too soon, no next key, or armed with the key of the next epoch loaded. -/
def State.armRekey (s : State) (n bell : Nat) : State :=
  let t := s.setF .LNK_ENC_REKEY_BELL n bell
  if bellDist s bell < 64 then (t.setF .LNK_ENC_REKEY_ARM n 0).setF .LNK_ENC_REKEY_STATUS n 2
  else
    match (s.link n).keyZ with
    | none => (t.setF .LNK_ENC_REKEY_ARM n 0).setF .LNK_ENC_REKEY_STATUS n 3
    | some z => ((t.setF .LNK_ENC_REKEY_ARM n 1).setF .LNK_ENC_REKEY_STATUS n 1).modLink n (fun l => { l with
        rekey := some (bellOf s bell).toNat
        nextKey := some (s.epochKey n z (s.f .LNK_ENC_EPOCH n + 1)) })

/-- REKEY_ARM (R208). -/
def execRekeyArm (n : LinkId) (bell : BitVec 32) (s : State) : Out := .next (s.armRekey n bell.toNat)

/-- LINK_RETRAIN (R205). -/
def execLinkRetrain (n : LinkId) (width : BitVec 8) (s : State) : Out :=
  .next (if width.toNat = 0 ∨ 3 < width.toNat then s.refuse 0x42 0x0A
    else if s.f .LNK_STATUS_STATE n = lkOff then s.refuse 0x42 0x07
    else
      let t := (s.markStarted 0x42 false).setF .LNK_CFG_WIDTH_MAX n width.toNat
      if s.up n then t.retrainWrite n else t.resetWrite n)

/-- LINK_RETRAIN_TIMEOUT (R205, R349). -/
def execLinkRetrainTimeout (s : State) : Out :=
  .next (if s.hst.taken.any (fun t => t.code == 0x42 && t.started) then s.refuse 0x42 0x07 else s)

end Sys2Proof.Machine
end

