-- ==== Sys2Proof/Machine/Sched.lean ====
section
/-!
DEFINITION. The stall scheduler's own commands (R216, R217, R222, R228, R242, R243, R263, R264): page loads, vector starts, flow
resets, the arming and deciding of commits, and the flow watch.
-/
namespace Sys2Proof.Machine

/-! ### Page loads (R216, R217) -/

/-- The words of the page of bell b in the set at base. -/
def State.pageAt (s : State) (base b : Nat) : List Nat := pageWords (s.rdBytes (base + 0x2000 + 1024 * s.pageNo base b) 1024)

/-- Reading the page of bell b meets the symbol code: its round-map entry and its bytes (R175). -/
def State.pageRead (s : State) (base b : Nat) : State :=
  (s.eccScan (base + 2 * s.posAt b) 2).eccScan (base + 0x2000 + 1024 * s.pageNo base b) 1024

/-- A cache of two pages takes the page of bell b. -/
def cachePage (c : List (Nat × List Run)) (b : Nat) (p : List Run) : List (Nat × List Run) :=
  ((b, p) :: c.filter (fun q => q.1 ≠ b)).take 2

/-- The flows that a page books. -/
def bookedFlows (p : List Run) : List Nat := ((p.filter (fun r => r.kind == 0)).map (·.flow)).dedup

/-- The page the port runs when a page fails: the last that passed, or the built-in one (R217). -/
def State.lastGood (s : State) (n b : Nat) (good : List Run) : List Run := if good = [] then s.builtIn n b else good

/-- A failed page is flagged and counted (R217). -/
def State.pageBad (s : State) (n : Nat) : State :=
  ((s.setF .STL_STATUS_PAGE_BAD n 1).bump .STL_CNT_PAGEBAD_COUNT n).irqMasterIf (s.f .STL_CTRL_BAD_IRQ_EN n == 1) (.link n)

/-- Load the transmit descriptors of the flows that a page books. -/
def State.loadTxFlows (s : State) (n base : Nat) (p : List Run) : State := (bookedFlows p).foldl (fun s f => s.loadTx n base f) s

/-- The transmit fetcher loads the page of bell b. The descriptors of a set that is not in force yet load with the pulse that starts
its bell. -/
def State.loadTxPage (s : State) (n b : Nat) : State :=
  let x := s.setsAt n b
  if !x.live then s
  else
    let ws := s.pageAt x.tx b
    let p := ws.map runOf
    let r := s.pageRead x.tx b
    if s.pageOk n b ws then
      let t := r.modLink n (fun l => { l with txGood := p, txPages := cachePage l.txPages b p })
      if x = s.setsAt n s.now then t.loadTxFlows n x.tx p else t
    else (r.modLink n (fun l => { l with txPages := cachePage l.txPages b (s.lastGood n b l.txGood) })).pageBad n

/-- TX_PAGE_LOAD (R216): the page of bell N + 1, during bell N. -/
def execTxPageLoad (n : LinkId) (s : State) : Out := .next (s.loadTxPage n (s.now + 1))

/-- RX_PAGE_LOAD (R216, R230): the page of the plan bell of the oldest waiting frame; then the frames that waited for it are taken. -/
def execRxPageLoad (n : LinkId) (s : State) : Out :=
  .next (match (s.link n).rxFifo with
    | [] => s
    | f :: _ =>
      let x := s.setsAt n f.bell
      let base := x.rx
      if !x.live ∨ (cached (s.link n).rxPages f.bell).isSome then s
      else
        let ws := s.pageAt base f.bell
        let p := ws.map runOf
        let r := s.pageRead base f.bell
        if s.pageOk n f.bell ws then
          let t := r.modLink n (fun l => { l with rxGood := p, rxPages := cachePage l.rxPages f.bell p })
          ((bookedFlows p).foldl (fun s g => s.loadRx n base g) t).fifoDrain n
        else
          ((r.modLink n (fun l => { l with rxPages := cachePage l.rxPages f.bell (s.lastGood n f.bell l.rxGood) })).pageBad n).fifoDrain n)

/-! ### Flows (R222, R228) -/

/-- FLOW_VECTOR_START (R222): a waiting PUT starts a vector of a TRIG 0 flow. -/
def execFlowVectorStart (n : LinkId) (f : BitVec 12) (s : State) : Out :=
  let t := s.needTx n f.toNat
  let x := t.tflow n f.toNat
  .next (if !dTrig x.desc && x.puts ≠ [] then t.startVector n f.toNat else s)

/-- FLW_CTRL.RESET (R228): the selected flow's state returns to its load values, unless a vector is in progress or a PUT waits. -/
def State.flowReset (s : State) (n : Nat) : State :=
  let f := s.f .FLW_SEL_FLOW n
  if s.f .FLW_SEL_DIR n = 0 then
    let x := s.tflow n f
    if s.tactive n f ∨ x.puts ≠ [] then s.setF .FLW_STATE_RESET_BUSY n 1
    else s.setTflow n f { x with permits := if x.loaded then loadPermits x.desc else 0, slot := 0, cursor := 0 }
  else
    let x := s.rflow n f
    if x.cursor ≠ 0 ∨ x.got ≠ [] then s.setF .FLW_STATE_RESET_BUSY n 1
    else s.setRflow n f { x with slot := 0, cursor := 0, got := [], whole := 0, rel := 0 }

/-- FLOW_RESET (R228). -/
def execFlowReset (n : LinkId) (s : State) : Out := .next (s.flowReset n)

/-! ### Commits (R242, R243) -/

/-- Arm STL_COMMIT of link n; an ARM replaces an armed commit, and a refused ARM leaves none (R242). -/
def State.armStl (s : State) (n bell : Nat) : State :=
  let r := s.commitCheck bell
  let t := ((s.setF .STL_COMMIT_BELL n bell).setF .STL_COMMIT_STATUS n r).setF .STL_COMMIT_ARM n (b2n (r == 1))
  (t.modLink n (fun l => { l with commit := if r = 1 then some (bellOf s bell).toNat else none, base := none })).armedHere (1 + n)

/-- STL_COMMIT_ARM (R242). -/
def execStlCommitArm (n : LinkId) (bell : BitVec 32) (s : State) : Out := .next (s.armStl n bell.toNat)

/-- OPN_COMMIT_ARM (R242, R243). -/
def execOpnCommitArm (bell : BitVec 32) (s : State) : Out := .next (s.armOpn bell.toNat)

/-- Whether the transmit and receive sets at these bases overlap: 8 MiB each (R213, R243). -/
def setsOverlap (a b : Nat) : Bool := decide (a < b + 0x800000 ∧ b < a + 0x800000)

/-- Decide an armed STL commit at the start of bell B - 1 (R242, R243): refused when B is no round boundary or the staged bases do not
hold; before the first commit there is no active base to equal (R410). Otherwise the sets of bell B are known from now on. -/
def State.decideStl (s : State) (n : Nat) : State :=
  match (s.link n).commit with
  | none => s
  | some b =>
    if s.now + 1 ≠ b ∨ (s.link n).base.isSome then s
    else
      let tx := s.f .STL_TXBASE_BASE n * 65536
      let rx := s.f .STL_RXBASE_BASE n * 65536
      let drop := fun (t : State) (st : Nat) => ((t.setF .STL_COMMIT_STATUS n st).setF .STL_COMMIT_ARM n 0).modLink n (fun l => { l with commit := none })
      if s.posAt b ≠ 0 then drop s 3
      else if setsOverlap tx rx ∨ ((s.link n).live ∧ tx = s.f .STL_TXBASE_ACT_BASE n * 65536) then drop (s.setF .STL_STATUS_CFG_MISMATCH n 1) 4
      else s.modLink n (fun l => { l with base := some (b, ⟨true, tx, rx,
        s.f .STL_CFG_REQ n + 64 * s.f .STL_CFG_RPL n + 4096 * s.f .STL_CFG_CTL n + 262144 * s.f .STL_CFG_AWN n⟩) })

/-- A decided STL commit takes effect at the start of its bell; the descriptors of the page of that bell load. -/
def State.applyStl (s : State) (n : Nat) : State :=
  match (s.link n).base with
  | none => s
  | some (b, ⟨live, tx, rx, cfg⟩) =>
    if s.now ≠ b then s
    else
      let old := s.setsAt n (b - 1)
      let s1 := ((s.setF .STL_TXBASE_ACT_BASE n (tx / 65536)).setF .STL_RXBASE_ACT_BASE n (rx / 65536)).setF .STL_ACT_REQ n (field cfg 0 6)
      let s2 := ((s1.setF .STL_ACT_RPL n (field cfg 6 6)).setF .STL_ACT_CTL n (field cfg 12 6)).setF .STL_ACT_AWN n (field cfg 18 6)
      let s3 := (s2.setF .STL_COMMIT_STATUS n 7).setF .STL_COMMIT_ARM n 0
      let s4 := s3.modLink n (fun l => { l with live := live, base := none, commit := none, prev := some (b, old) })
      match cached (s4.link n).txPages b with
      | some p => s4.loadTxFlows n tx p
      | none => s4

/-- Decide an armed route commit (R242, R243). -/
def State.decideOpn (s : State) : State :=
  match s.opn.commit with
  | none => s
  | some b =>
    if s.now + 1 ≠ b ∨ s.opn.base.isSome then s
    else
      let base := s.f .OPN_ROUTE_BASE_BASE
      let drop := fun (t : State) (st : Nat) =>
        let u := (t.setF .OPN_COMMIT_STATUS 0 st).setF .OPN_COMMIT_ARM 0 0
        { u with opn := { u.opn with commit := none, moving := [] } }
      if s.posAt b ≠ 0 then drop s 3
      else if base = s.f .OPN_ROUTE_ACT_BASE then drop (s.setF .OPN_STATUS_CFG_MISMATCH 0 1) 4
      else { s with opn := { s.opn with base := some (b, base) } }

/-- The packets that still wait at link n, flushed before, for chips whose route leaves it now: each completes FLUSHED before its channel's route
moves (R272). -/
def State.flushMoved (s : State) (n : Nat) : State :=
  let goes := fun (p : OpenPkt) => p.dst != s.chipAddr && s.routeOf p.dst != some n
  let q := (s.link n).openQ
  (q.flatMap (fun x => x.2.filter goes)).foldl (fun s p => s.flushPkt p)
    (s.modLink n (fun l => { l with openQ := q.map (fun x => (x.1, x.2.filter (fun p => !goes p))) }))

/-- A decided route commit takes effect at the start of its bell. -/
def State.applyOpn (s : State) : State :=
  match s.opn.base with
  | none => s
  | some (b, base) =>
    if s.now ≠ b then s
    else
      let t := ((s.setF .OPN_ROUTE_ACT_BASE 0 base).setF .OPN_COMMIT_STATUS 0 7).setF .OPN_COMMIT_ARM 0 0
      s.opn.moving.foldl (fun s n => s.flushMoved n) { t with opn := { t.opn with base := none, commit := none, moving := [] } }

/-! ### The flow watch (R263, R264) -/

/-- What transmit flow f waits for, 0 when it does not wait (R263): a start condition (a waiting PUT, or the first stall of the round) without
PNEED permits, or data of a vector in progress. -/
def State.txWait (s : State) (n f : Nat) : Nat :=
  let x := s.tflow n f
  if (if dTrig x.desc then x.lack else decide (x.puts ≠ [])) && decide (x.permits < dPneed x.desc) then 1
  else if x.starved && s.tactive n f then 2
  else 0

/-- What a receive flow waits for. -/
def State.rxWait (s : State) (n f : Nat) : Nat :=
  let x := s.rflow n f
  if x.got ≠ [] then 3
  else if s.holding.any (fun h => h.link == n && h.flow == f) then 4
  else if s.cores.any (fun c => c.2.porter.any (fun p => match p.2 with
      | some o => decide (o.kind = .get) && o.booked && o.link == n && o.flow == f && !o.readDone
      | none => false)) then 5
  else 0

/-- The count of a flow after a pulse: it restarts when the flow moved or waits no more. -/
def watchCount (code wait : Nat) (moved : Bool) : Nat := if code = 0 ∨ moved then 0 else wait + 1

/-- Count the waiting flows of link n at a bell pulse (R263). -/
def State.watchLink (s : State) (n : Nat) : State :=
  let l := s.link n
  s.setLink n { l with
    tflows := l.tflows.modVals TFlow.reset (fun f x =>
      let c := if x.loaded then s.txWait n f else 0
      let w := watchCount c x.wait x.moved
      { x with wait := w, code := c, reported := x.reported && w != 0, moved := false, starved := false })
    rflows := l.rflows.modVals RFlow.reset (fun f x =>
      let c := if x.loaded then s.rxWait n f else 0
      let w := watchCount c x.wait x.moved
      { x with wait := w, code := c, reported := x.reported && w != 0, moved := false }) }

/-- The watching core of a descriptor (R264). -/
def State.watcher (s : State) (d : Desc) : Option Nat := s.physical (if dCore d < s.ncore then dCore d else 0)

/-- Report a flow that has waited its limit (R264), and the notice that names the chip it waits for (R281). -/
def State.watchReport (s : State) (n f code wait : Nat) (rx : Bool) (d : Desc) (c : Nat) : State :=
  let lim := s.f .PRT_WATCH_CFG_LIMIT c
  if lim = 0 ∨ wait < lim then s
  else
    let s1 := s.bump .PRT_CNT_WATCH_COUNT c
    let s2 := if s.f .PRT_WATCH_VALID c = 1 then s1.setF .PRT_WATCH_OVERRUN c 1
      else
        (((((s1.setF .PRT_WATCH_VALID c 1).setF .PRT_WATCH_WAIT c code).setF .PRT_WATCH_DIR c (b2n rx)).setF .PRT_WATCH_LINK c n).setF
          .PRT_WATCH_FLOW c f).setF .PRT_WATCH_BELL_BELL c s.now
    let s3 := s2.irqMasterIf (s.f .PRT_CTRL_WATCH_IRQ_EN c == 1) (.flowWatch c)
    let s4 := if rx then s3.setRflow n f { s3.rflow n f with reported := true } else s3.setTflow n f { s3.tflow n f with reported := true }
    s4.raiseNotice 0x3 (if rx then dRetChip d else s.peerOf n) n

/-- FLOW_WATCH_REPORT (R264): once for each wait. -/
def execFlowWatchReport (n : LinkId) (rx : Bool) (f : BitVec 12) (s : State) : Out :=
  let x := s.tflow n f.toNat
  let y := s.rflow n f.toNat
  let d := if rx then y.desc else x.desc
  .next (match s.watcher d with
    | none => s
    | some c =>
      if rx then (if y.reported then s else s.watchReport n f.toNat y.code y.wait true d c)
      else (if x.reported then s else s.watchReport n f.toNat x.code x.wait false d c))

end Sys2Proof.Machine
end

