-- ==== Sys2Proof/Machine/Clock.lean ====
section
/-!
DEFINITION. Clock regions, the reference monitor, frequency changes, fabric time, wall time and triggers (R36-R62).
-/
namespace Sys2Proof.Machine

/-! ### Clock regions (R35-R40) -/

/-- A region's target in MHz: the common target, half of it while HALVED; region 24 runs at 1.2 GHz (R35, R40). -/
def State.rgnMhz (s : State) (r : Nat) : Nat :=
  if r = 24 then 1200 else if s.f .CLK_RGN_STATUS_HALVED r = 1 then s.f .CLK_TARGET_MHZ / 2 else s.f .CLK_TARGET_MHZ

/-- The larger of the register's value and v, saturated to the field. -/
def State.maxF (s : State) (fl : Fld) (i v : Nat) : State := s.setF fl i (min (max (s.f fl i) v) (2 ^ fl.w - 1))

/-- DROOP_EVENT (R36, R38): a stretch of more than 2% counts; the largest is kept; crossings that leave 1 to 7 entries count. -/
def execDroopEvent (r : Fin 24) (stretch drift : Nat) (s : State) : Out :=
  let s1 := if 20 < stretch then s.bump .CLK_RGN_DROOP_EVENTS r else s
  .next ((s1.maxF .CLK_RGN_DROOP_MAX_STRETCH r stretch).bump .CLK_RGN_DROOP_XDRIFT r drift)

/-- The base setting an FLL moves to: at most 0.01% a µs while it resumes after a reference loss (R42). -/
def fllMove (slew : Bool) (old new : Nat) : Nat :=
  if slew then (if old < new then min new (old + old / 10000) else max new (old - old / 10000)) else new

/-- FLL_WINDOW (R36, R41, R42): the average of the window, DROOP_OVER, the debt of cycles and the base setting in kHz, which a held FLL keeps. -/
def execFllWindow (r : Fin 24) (cycles lost : Nat) (s : State) : Out :=
  let r := r.val
  let t := s.rgnMhz r
  let s1 := s.setF .CLK_RGN_STATUS_AVG_MHZ r (min cycles 4095)
  let s2 := if 9 * t < 1000 * lost then s1.setF .CLK_RGN_STATUS_DROOP_OVER r 1 else s1
  let owed := Map.get 0 s.clk.owed r + lost - (cycles - t)
  let old := Map.get (t * 1000) s.clk.base r
  let slew := Map.get false s.clk.slew r
  let want := (t + min owed (t * 2 / 100)) * 1000
  let base := if s.f .CLK_RGN_STATUS_HOLDING r = 1 then old else fllMove slew old want
  .next { s2 with clk := { s2.clk with
    owed := Map.set 0 s2.clk.owed r owed
    base := if base = t * 1000 then Map.erase s2.clk.base r else Map.put s2.clk.base r base
    slew := Map.set false s2.clk.slew r (slew && base != want) } }

/-- ALIGN_TIMEOUT (R39): FAIL, with the lowest region; start-up stops at its step 4, and the re-admission of a cluster in K at its end. -/
def execAlignTimeout (r : Fin 24) (s : State) : Out :=
  let low := if s.f .CLK_XALIGN_FAIL = 1 then min (s.f .CLK_XALIGN_FAIL_REGION) r.val else r.val
  let t := ((s.setF .CLK_XALIGN_FAIL 0 1).setF .CLK_XALIGN_FAIL_REGION 0 low).setF .CLK_XALIGN_ALIGNED 0 0
  let u := { t with clk := { t.clk with misaligned := setBit t.clk.misaligned r true } }
  .next (if s.rst.boot < 4 then { u with rst := { u.rst with failed := true } } else u)

/-- The crossings of the regions of a mask begin to align (R39): their failure would come as ALIGN_TIMEOUT. -/
def State.alignStart (s : State) (mask : Nat) : State :=
  { s with clk := { s.clk with misaligned := upto 24 (fun r m => if bit mask r then setBit m r false else m) s.clk.misaligned } }

/-- ALIGNED shows whether every crossing has aligned (R39). -/
def State.alignEnd (s : State) : State := s.setF .CLK_XALIGN_ALIGNED 0 (b2n (s.clk.misaligned == 0))

/-- REFERENCE_LOSS (R41, R48): the monitor's declaration, which counts each loss once; every FLL holds, and a stop under way will be aborted. -/
def execReferenceLoss (s : State) : Out :=
  if s.f .BEL_STATUS_REF_HOLDOVER = 1 then .next s else
  let s1 := ((s.setF .CLK_REFLOSS_LOST 0 1).bump .CLK_REFLOSS_COUNT).setF .CLK_REFLOSS_PRESENT 0 0
  let s2 := upto 24 (fun r s => s.setF .CLK_RGN_STATUS_HOLDING r 1) s1
  let s3 := s2.setF .BEL_STATUS_REF_HOLDOVER 0 1
  .next { s3 with clk := { s3.clk with fchg := s3.clk.fchg.map (fun c => if c.stopped then { c with aborted := true } else c) } }

/-- REFERENCE_PRESENT (R42): the monitor's declaration; the held loops resume tracking. -/
def execReferencePresent (s : State) : Out :=
  let s1 := s.setF .CLK_REFLOSS_PRESENT 0 1
  let s2 := upto 24 (fun r s =>
    if s.f .CLK_RGN_STATUS_HOLDING r = 1 then
      ({ s with clk := { s.clk with slew := Map.set false s.clk.slew r true } } : State).setF .CLK_RGN_STATUS_HOLDING r 0
    else s) s1
  .next (s2.setF .BEL_STATUS_REF_HOLDOVER 0 0)

/-! ### Frequency changes (R44-R48) -/

/-- Whether the bells that a stop from bell b covers are all quiet (R46). -/
def State.quietStop (s : State) (b : Nat) : Bool := (List.range (ceilDiv 3 (max (s.f .BEL_ACTIVE_US) 1))).all (fun i => s.isQuiet (b + i))

/-- All of regions 0-23. -/
abbrev allRegions : Nat := 2 ^ 24 - 1

/-- The refusal of an ARM, 0 for none: the conditions of R46 and R47, the lowest status first. -/
def State.fchgCheck (s : State) : Nat :=
  let bell := s.f .CLK_FCHG_BELL_BELL
  let target := s.f .CLK_FCHG_TARGET_MHZ
  let mask := s.f .CLK_FCHG_MASK_REGIONS
  let upper := mask / 2 ^ 16
  if bellDist s bell < 16 then 1
  else if !s.quietStop (bellOf s bell).toNat then 2
  else if target < 800 ∨ s.fuse.mhz < target then 3
  else if s.clk.fchg.isSome then 4
  else if s.f .CLK_REFLOSS_LOST = 1 then 5
  else if upper ≠ 0 ∧ mask ≠ allRegions then 6
  else if mask = 0 then 0xA
  else if mask ≠ allRegions ∧ target ≠ s.f .CLK_TARGET_MHZ then 6
  else 0

/-- Arm a frequency change by master m (R46): the staged fields take effect together; a refusal touches nothing. -/
def State.fchgArm (s : State) (m : Nat) : State :=
  let e := s.fchgCheck
  if e ≠ 0 then (s.setF .CLK_FCHG_CTRL_STATUS 0 e).setF .CLK_FCHG_CTRL_ARM 0 (b2n s.clk.fchg.isSome)
  else
    let t := (s.setF .CLK_FCHG_CTRL_ARM 0 1).setF .CLK_FCHG_CTRL_STATUS 0 8
    { t with clk := { t.clk with fchg := some ⟨s.f .CLK_FCHG_TARGET_MHZ, s.f .CLK_FCHG_MASK_REGIONS, s.f .CLK_FCHG_MASK_REGIONS == allRegions,
      (bellOf s (s.f .CLK_FCHG_BELL_BELL)).toNat, s.f .CLK_TARGET_MHZ, 0, false, false, m⟩ } }

/-- FCHG_ARM (R46). -/
def execFchgArm (m : Master) (s : State) : Out := .next (s.fchgArm m.toNat)

/-- The stop of an armed change starts with the named bell (R44). -/
def State.fchgStop (s : State) : State :=
  match s.clk.fchg with
  | none => s
  | some c =>
    if c.stopped ∨ c.bell ≠ s.now then s
    else
      let t := upto 24 (fun r s => if bit c.mask r then s.setF .CLK_RGN_STATUS_STOPPED r 1 else s) (s.alignStart c.mask)
      ({ t with clk := { t.clk with fchg := some { c with stopped := true } } } : State).setF .CLK_FCHG_CTRL_STATUS 0 9

/-- Restart one stopped region, its FLL locked (R44): at its previous target after an abort, else at the new one; halved when it met a thermal emergency after
the ARM (R47, R48), or in a class descent while its sensor still reads RELEASE or more (R379). -/
def State.fchgRegion (s : State) (c : FreqChange) (r : Nat) : State :=
  if bit c.mask r = false then s
  else
    let t := (s.setF .CLK_RGN_STATUS_STOPPED r 0).setF .CLK_RGN_STATUS_LOCKED r 1
    if c.aborted then t
    else
      let u := { t with clk := { t.clk with base := Map.erase t.clk.base r, owed := Map.erase t.clk.owed r } }
      let hot := s.pwr.descent && decide (r < 16) && s.f .CLK_RGN_STATUS_HALVED r == 1 && decide (s.pwr.release ≤ s.f .PWR_CLU_DEG r)
      u.setF .CLK_RGN_STATUS_HALVED r (b2n (bit c.tripped r || hot))

/-- Frames that the port took into a receive FIFO during a stop are consumed after the restart (R44, R230). -/
def State.drainFifos (s : State) : State := s.links.foldl (fun s p => s.fifoDrain p.1) s

/-- The STATUS of a change that ends (R48). -/
def FreqChange.status (c : FreqChange) : Nat := if c.aborted then 7 else 0xF

/-- The end of change c: the regions restart and realign, the common target moves (R44, R47, R48). -/
def State.fchgEnd (s : State) (c : FreqChange) : State :=
  let s1 := upto 24 (fun r s => s.fchgRegion c r) s
  let s2 := if c.whole ∧ c.aborted = false then s1.setF .CLK_TARGET_MHZ 0 c.target else s1
  let s3 := ({ s2 with clk := { s2.clk with fchg := none } } : State).alignEnd
  (s3.setF .CLK_FCHG_CTRL_STATUS 0 c.status).setF .CLK_FCHG_CTRL_ARM 0 0

/-- The ledger records a change that has ended (R48, R306). -/
def State.fchgEntry (s : State) (c : FreqChange) : State :=
  s.ldgInput { kind := 0x06, src := c.armer, detail := c.target + 4096 * c.status }

/-! ### The bell unit -/

/-- Arm a bell commit (R51): refused too soon; an ARM replaces an armed commit. -/
def State.armBel (s : State) (bell : Nat) : State :=
  let ok := decide (64 ≤ bellDist s bell)
  let t := ((s.setF .BEL_COMMIT_BELL 0 bell).setF .BEL_COMMIT_ARM 0 (b2n ok)).setF .BEL_COMMIT_STATUS 0 (if ok then 1 else 2)
  ({ t with bel := { t.bel with commit := if ok then some (bellOf s bell).toNat else none, decided := none } } : State).armedHere 0

/-- BEL_COMMIT_ARM (R51). -/
def execBelCommitArm (bell : BitVec 32) (s : State) : Out := .next (s.armBel bell.toNat)

/-- Bounds of BEL_FT_INC and BEL_WALL_INC (R53). -/
abbrev incMin : Nat := 0x0FFF2E48F
abbrev incMax : Nat := 0x1000D1B71

/-- Write an increment, clamped; outside the range INC_CLAMP sets (R53; for BEL_WALL_INC too: DESIGN CHOICE, log entry 67). -/
def State.setInc (s : State) (fl : Fld) (v : Nat) : State :=
  let t := s.setF fl 0 (min (max v incMin) incMax)
  if incMin ≤ v ∧ v ≤ incMax then t else t.setF .BEL_STATUS_INC_CLAMP 0 1

/-- BEL_FT_INC_WRITE (R53). -/
def execBelFtIncWrite (inc : BitVec 40) (s : State) : Out := .next (s.setInc .BEL_FT_INC_INC inc.toNat)

/-- HOLDOVER_ENTRY (R54): no usable mark for BEL_HOLD_LIMIT bells; with ALT_EN the other slot becomes active; firmware reports each
setting. The time root has no parent; a limit of 0 is read as 1 (DEDUCED, log entry 42). -/
def execHoldoverEntry (s : State) : Out :=
  .next (if s.bel.noMark < max (s.f .BEL_HOLD_LIMIT_BELLS) 1 ∨ s.f .BEL_CTRL_ROOT = 1 then s
    else
      let p := s.parentLink
      let s1 := (s.setF .BEL_STATUS_HOLDOVER 0 1)
      let s2 := if s.f .BEL_PARENT_ALT_EN = 1 then s1.setF .BEL_STATUS_ALT_ACTIVE 0 (1 - s.f .BEL_STATUS_ALT_ACTIVE) else s1
      let s3 := { s2 with bel := { s2.bel with noMark := 0, freshFor := 0 } }
      if s.f .BEL_STATUS_HOLDOVER = 1 then s3 else s3.raiseNotice 0x5 (s.f .LNK_PEER_CHIP p) p)

/-- Whether link n has brought four marks since its latest entry to UP (R54). -/
def State.linkFresh (s : State) (n : Nat) : Bool := s.up n && decide (4 ≤ (s.link n).marks)

/-- A write of BEL_PARENT (R54): slot 0 becomes active and the count restarts. -/
def State.setParent (s : State) (parent alt en : Nat) : State :=
  let s1 := ((s.setF .BEL_PARENT_PARENT 0 parent).setF .BEL_PARENT_ALT 0 alt).setF .BEL_PARENT_ALT_EN 0 en
  let s2 := (s1.setF .BEL_STATUS_ALT_ACTIVE 0 0).setF .BEL_STATUS_PARENT_FRESH 0
    (b2n (s1.linkFresh (parent % 64)) + 2 * b2n (s1.linkFresh (alt % 64)))
  { s2 with bel := { s2.bel with noMark := 0, freshFor := 0 } }

/-- BEL_PARENT_WRITE (R54). -/
def execBelParentWrite (v : BitVec 32) (s : State) : Out :=
  .next (s.setParent (field v.toNat 0 6) (field v.toNat 8 6) (field v.toNat 15 1))

/-- Set the bell number before joining (R56). -/
def State.setBell (s : State) (b : Nat) : State := if s.f .BEL_STATUS_JOINED = 1 then s else s.setF .BEL_NOW_BELL 0 b

/-- BEL_FT_SETBELL_WRITE (R56). -/
def execBelFtSetbellWrite (bell : BitVec 64) (s : State) : Out := .next (s.setBell bell.toNat)

/-- Show the phase in BEL_PHASE. -/
def State.setPhase (s : State) (p : Nat) : State :=
  let t := (s.setF .BEL_PHASE_NS 0 (p / 2 ^ 32)).setF .BEL_PHASE_FRAC 0 (p / 2 ^ 16)
  { t with bel := { t.bel with phase := p } }

/-- The length of a bell in 2^-32 ns. -/
def State.bellSpan (s : State) : Nat := s.f .BEL_ACTIVE_US * 1000 * 2 ^ 32

/-- Step the phase by d in 2^-16 ns (R56). A step below zero borrows a bell. -/
def State.stepPhase (s : State) (d : Int) : State :=
  let p : Int := (s.bel.phase : Int) + d * 2 ^ 16
  if 0 ≤ p then s.setPhase p.toNat
  else
    let span : Nat := max s.bellSpan 1
    let k := ceilDiv (-p).toNat span
    (s.setF .BEL_NOW_BELL 0 ((s.now : Int) - (k : Int)).toNat).setPhase (p + (k * span : Nat)).toNat

/-- BEL_FT_STEP_WRITE (R56). -/
def execBelFtStepWrite (step : BitVec 48) (s : State) : Out :=
  .next (if s.f .BEL_STATUS_JOINED = 1 then s else s.stepPhase step.toInt)

/-- JOIN (R56). -/
def State.joinFabric (s : State) : State := (s.setF .BEL_CTRL_JOIN 0 1).setF .BEL_STATUS_JOINED 0 1

def execJoin (s : State) : Out := .next s.joinFabric

/-! ### Wall time (R57-R59) -/

/-- Set wall time from BEL_WALL_SET_S and these nanoseconds (R57); the fraction below them clears (DESIGN CHOICE, log entry 67). -/
def State.wallSet (s : State) (ns : Nat) : State :=
  if 1000000000 ≤ ns then s.setF .BEL_STATUS_WALL_BADSET 0 1
  else
    let t := (s.setF .BEL_WALL_S_S 0 (s.f .BEL_WALL_SET_S_S)).setF .BEL_WALL_NS_NS 0 ns
    { t with bel := { t.bel with wallFrac := 0 } }

/-- WALL_SET (R57). -/
def execWallSet (ns : BitVec 30) (s : State) : Out := .next (s.wallSet ns.toNat)

/-- PPS_CAPTURE (R58). -/
def execPpsCapture (s : State) : Out :=
  .next (if s.f .BEL_PPS_CTRL_EN = 1 then
      let t := (s.setF .BEL_PPS_CAP_S_S 0 (s.f .BEL_WALL_S_S)).setF .BEL_PPS_CAP_NS_NS 0 (s.f .BEL_WALL_NS_NS)
      (t.setF .BEL_PPS_CAP_FT_TS 0 s.stamp).bump .BEL_PPS_CTRL_EDGES
    else s)

/-- A read of BEL_WALL_NS (R59). -/
def State.wallNsRead (s : State) (m : Nat) : State :=
  let t := { s with bel := { s.bel with wallCap := some (s.f .BEL_WALL_S_S) } }
  { t with rdata := Map.set 0 t.rdata m (s.f .BEL_WALL_NS_NS) }

/-- WALL_NS_READ (R59). -/
def execWallNsRead (m : Master) (s : State) : Out := .next (s.wallNsRead m.toNat)

/-- A read of BEL_PHASE (R59). -/
def State.phaseRead (s : State) (m : Nat) : State :=
  let t := { s with bel := { s.bel with nowCap := some s.now } }
  { t with rdata := Map.set 0 t.rdata m (s.f .BEL_PHASE_NS * 65536 + s.f .BEL_PHASE_FRAC) }

/-- PHASE_READ (R59). -/
def execPhaseRead (m : Master) (s : State) : Out := .next (s.phaseRead m.toNat)

/-! ### Triggers (R60, R61) -/

/-- Trigger t fires: an interrupt, or one count to an event input; a fused-off or fenced core gets none, and LATE sets. -/
def State.fireTrig (s : State) (t : Nat) : State :=
  let s1 := ({ s with bel := { s.bel with trig := Map.set none s.bel.trig t none } } : State).setF .BEL_TRIG_CTRL_ARM t 0
  let c := s.f .BEL_TRIG_CTRL_CORE t
  if s.f .BEL_TRIG_CTRL_KIND t = 1 then s1.irq (c % 8) (.trigger t)
  else if s.enabled c && s.cst c != stFenced then s1.deliver c (s.f .BEL_TRIG_CTRL_EVENT t)
  else s1.setF .BEL_TRIG_CTRL_LATE t 1

/-- Arm trigger t with the bell in BEL_TRIG_CMP (R61): it fires at once when that bell has come; LATE when it has passed. -/
def State.armTrig (s : State) (t : Nat) : State :=
  let d := bellDist s (s.f .BEL_TRIG_CMP_BELL t)
  if d < 0 then (s.fireTrig t).setF .BEL_TRIG_CTRL_LATE t 1
  else if d = 0 then s.fireTrig t
  else
    let u := s.setF .BEL_TRIG_CTRL_ARM t 1
    { u with bel := { u.bel with trig := Map.set none u.bel.trig t (some (bellOf s (s.f .BEL_TRIG_CMP_BELL t)).toNat) } }

/-- A write v of BEL_TRIG_CTRL[t] (R61). -/
def State.trigWrite (s : State) (t v : Nat) : State :=
  let s1 := ((s.setF .BEL_TRIG_CTRL_KIND t (field v 2 1)).setF .BEL_TRIG_CTRL_CORE t (field v 3 7)).setF .BEL_TRIG_CTRL_EVENT t (field v 10 4)
  let s2 := if bit v 1 then s1.setF .BEL_TRIG_CTRL_LATE t 0 else s1
  if bit v 0 then s2.armTrig t else s2

/-- TRIG_ARM (R61). -/
def execTrigArm (t : Fin 8) (v : BitVec 32) (s : State) : Out := .next (s.trigWrite t (setBit v.toNat 0 true))

/-- Fire the triggers whose bell starts (R61). -/
def State.fireDue (s : State) : State :=
  upto 8 (fun t s => match Map.get none s.bel.trig t with
    | some b => if b ≤ s.now then s.fireTrig t else s
    | none => s) s

end Sys2Proof.Machine
end

