-- ==== Sys2Proof/Machine/Weights.lean ====
section
/-!
DEFINITION. The crier, bank swaps and the scrub (R290-R304).
-/
namespace Sys2Proof.Machine

/-! ### The tree table and the job ring (R293, R296) -/

/-- A tree of the tree table (R293). -/
structure Tree where
  nfeed : Nat
  own : Bool
  vlen : Nat
  feeds : List Nat
  deriving DecidableEq, Repr

/-- The address of the entry of tree id, among the 65,536 that ids allow; an entry with a VLEN below 2 is none. -/
def State.treeAt (s : State) (id : Nat) : Option Nat :=
  ((List.range 65536).map (fun i => s.f .CRI_TREE_BASE_BASE * 65536 + 64 * i)).find? (fun a =>
    leVal (s.rdBytes a 2) == id && decide (2 ≤ leVal (s.rdBytes (a + 4) 4)))

/-- The entry of tree id. -/
def State.treeOf (s : State) (id : Nat) : Option Tree :=
  (s.treeAt id).map (fun a =>
    let b := s.rdBytes a 64
    ⟨min (leAt b 2 1) 4, bit (leAt b 3 1) 0, leAt b 4 4, (List.range 4).map (fun f => leAt b (8 + 8 * f) 8)⟩)

abbrev fdOff (x : Nat) : Nat := field x 0 16
abbrev fdHalf (x : Nat) : Nat := field x 16 1
abbrev fdPermits (x : Nat) : Nat := field x 17 4
abbrev fdFanout (x : Nat) : Nat := field x 21 4

/-- Entries of the job ring. -/
def State.criSize (s : State) : Nat := 2 ^ s.f .CRI_JOB_BASE_LOG2

/-- The address of a job slot. -/
def State.criSlot (s : State) (i : Nat) : Nat := s.f .CRI_JOB_BASE_BASE * 65536 + 32 * (i % s.criSize)

/-- Jobs that wait in the ring; the ring holds one fewer than its entries. -/
def State.criUsed (s : State) : Nat := (s.f .CRI_JOB_HEAD_HEAD + s.criSize - s.f .CRI_JOB_TAIL_TAIL % s.criSize) % s.criSize

/-- Write a running job back. -/
def State.putJob (s : State) (j : CriJob) : State :=
  { s with wgt := { s.wgt with jobs := s.wgt.jobs.map (fun (k : CriJob) => if k.tree = j.tree then j else k) } }

/-- A job ends or is refused with a status (R296). -/
def State.jobStatus (s : State) (slot st : Nat) : State :=
  let t := s.wrBytes (s.criSlot slot + 24) [BitVec.ofNat 8 st]
  if st ≤ 1 then t else (t.setF .CRI_STATUS_JOB_ERR 0 1).irqMasterIf (s.f .CRI_CTRL_ERR_IRQ_EN == 1) .weight

/-- Set the list of running jobs. -/
def State.setJobs (s : State) (js : List CriJob) : State :=
  (({ s with wgt := { s.wgt with jobs := js } } : State).setF .CRI_STATUS_RUNNING 0 js.length).setF .CRI_STATUS_BUSY 0 (b2n (!js.isEmpty))

/-- The table entry of a job's shard. -/
def State.jobShard (s : State) (j : CriJob) : ShardEnt := (s.shardsOf j.region).getD j.shard ⟨0, 0, 0, 0, 0⟩

/-- Pieces of a shard in a tree. -/
def State.jobPieces (s : State) (j : CriJob) (t : Tree) : Nat := ceilDiv (s.jobShard j).len (t.vlen - 1)

/-- The destinations of a tree: its feeds, and 4 for the root's own copy. -/
def Tree.dests (t : Tree) : List Nat := List.range t.nfeed ++ (if t.own then [4] else [])

/-- Whether the source bytes of piece v of a job are here: host bytes come with their reads. -/
def State.pieceHere (s : State) (j : CriJob) (t : Tree) (v : Nat) : Bool :=
  j.src != 0 || decide (min ((s.jobShard j).len) ((v + 1) * (t.vlen - 1)) * 512 ≤ j.host.length)

/-- A job that has sent all it can ends: with status 1, or 5 after a host read error (R296). -/
def State.jobCheck (s : State) (j : CriJob) (t : Tree) : State :=
  let n := s.jobPieces j t
  let done := t.dests.all (fun f => decide (n ≤ Map.get 0 j.next f))
  let stuck := j.err && t.dests.all (fun f => decide (n ≤ Map.get 0 j.next f) || !s.pieceHere j t (Map.get 0 j.next f))
  if done ∨ stuck then (s.jobStatus j.slot (if done then 1 else 5)).setJobs (s.wgt.jobs.filter (fun k => k.tree != j.tree)) else s

/-- Start the job at CRI_JOB_TAIL: refused with its status, or running (R296); its slot and its tree's entry are read through the symbol code (R175). -/
def State.jobStart (s : State) : State :=
  let tail := s.f .CRI_JOB_TAIL_TAIL
  let b := s.rdBytes (s.criSlot tail) 32
  let w := leAt b 0 8
  let tree := field w 0 16
  let region := field w 18 5
  let sbank := field w 24 1
  let src := field w 16 2
  let idx := (s.shardsOf region).findIdx? (fun e => e.id == field w 32 32)
  let t := ((s.eccScan (s.criSlot tail) 32).eccScan ((s.treeAt tree).getD 0) (if (s.treeAt tree).isSome then 64 else 0)).setF .CRI_JOB_TAIL_TAIL 0
    ((tail + 1) % s.criSize)
  match s.treeOf tree, idx with
  | none, _ => t.jobStatus tail 2
  | _, none => t.jobStatus tail 3
  | some x, some i =>
    if src = 2 ∧ s.bank region sbank ≠ bkLoaded ∧ s.bank region sbank ≠ bkActive then t.jobStatus tail 4
    else
      let j : CriJob := ⟨tail, tree, src, region, field w 23 1, sbank, i, leAt b 8 8, leAt b 16 4, [], [], false⟩
      (t.setJobs (s.wgt.jobs ++ [j])).jobCheck j x

/-- CRIER_JOB_START: a job waits, fewer than 8 run and none of them on its tree (R296). -/
def execCrierJobStart (s : State) : Out :=
  let tree := leAt (s.rdBytes (s.criSlot (s.f .CRI_JOB_TAIL_TAIL)) 2) 0 2
  .next (if s.f .CRI_CTRL_EN = 1 ∧ s.criUsed ≠ 0 ∧ s.wgt.jobs.length < 8 ∧ !s.wgt.jobs.any (fun j => j.tree == tree) then s.jobStart else s)

/-- The 32 bytes of a job. -/
def jobBytes (j : Word × Word × Word × Word) : List Byte :=
  leBytes 8 j.1.toNat ++ leBytes 8 j.2.1.toNat ++ leBytes 8 j.2.2.1.toNat ++ leBytes 8 j.2.2.2.toNat

/-- Whether a job's reserved bits and its STATUS are zero (R296). -/
def jobForm (j : Word × Word × Word × Word) : Bool :=
  field j.1.toNat 25 7 == 0 && field j.1.toNat 16 2 != 3 && field j.2.2.1.toNat 32 32 == 0 && j.2.2.2.toNat == 0

/-- Add jobs at CRI_JOB_HEAD. -/
def State.addJobs (s : State) : List (Word × Word × Word × Word) → State
  | [] => s
  | j :: js =>
    let h := s.f .CRI_JOB_HEAD_HEAD
    ((s.wrBytes (s.criSlot h) (jobBytes j)).setF .CRI_JOB_HEAD_HEAD 0 ((h + 1) % s.criSize)).addJobs js

/-- LOAD_SHARDS (R295, R349): every job goes into the ring, or none. -/
def execLoadShards (jobs : List (Word × Word × Word × Word)) (s : State) : Out :=
  .next (if !jobs.all jobForm then s.refuse 0x20 0x0A
    else if s.criSize - 1 - s.criUsed < jobs.length then s.refuse 0x20 0x07
    else (s.addJobs jobs).ok 0x20)

/-! ### Pieces (R294, R295) -/

/-- The header granule of piece v (R295). -/
def State.pieceHeader (s : State) (j : CriJob) (t : Tree) (v : Nat) : List Byte :=
  let e := s.jobShard j
  let valid := min (t.vlen - 1) (e.len - v * (t.vlen - 1))
  leBytes 4 e.id ++ leBytes 1 j.region ++ leBytes 1 j.bank ++ leBytes 2 0 ++ leBytes 4 v ++ leBytes 4 valid
    ++ leBytes 4 (e.off + v * (t.vlen - 1)) ++ leBytes 4 j.tag ++ leBytes 488 0

/-- Data granule k of the shard of a job, from its source (R296). -/
def State.sourceAt (s : State) (j : CriJob) (k : Nat) : List Byte × State :=
  if j.src = 0 then (padTo 512 ((j.host.drop (512 * k)).take 512), s)
  else if j.src = 1 then s.hbmRead (j.addr + 512 * k) 512
  else s.hbmRead (s.rgnAddr j.region j.sbank ((s.jobShard j).off + k)) 512

/-- Granule g of piece v: the header, a data granule, or nil beyond the shard's end. -/
def State.pieceGran (s : State) (j : CriJob) (t : Tree) (v g : Nat) : (List Byte × Bool) × State :=
  if g = 0 then ((s.pieceHeader j t v, false), s)
  else
    let k := v * (t.vlen - 1) + g - 1
    if k < (s.jobShard j).len then
      let r := s.sourceAt j k
      ((r.1, false), r.2)
    else ((zeros512, true), s)

/-- The key of a feed of a tree. -/
def feedKey (tree f : Nat) : Nat := 8 * tree + f

/-- The transit granule of granule g of the feed's next vector (R220, R294). -/
def State.feedGran (s : State) (j : CriJob) (t : Tree) (f g : Nat) : Nat :=
  let x := t.feeds.getD f 0
  let v := Map.get 0 s.wgt.feeds (feedKey j.tree f)
  fdHalf x * 65536 + fdOff x + v % max (fdPermits x) 1 * t.vlen + g

/-- Whether every granule of the feed's next slot is clear. -/
def State.feedClear (s : State) (j : CriJob) (t : Tree) (f : Nat) : Bool :=
  (List.range t.vlen).all (fun g => !s.transitFull (s.feedGran j t f g))

/-- Whether a feed has a piece to take and its slot is not clear (R294). -/
def State.feedWaits (s : State) (j : CriJob) (t : Tree) (f : Nat) : Bool :=
  let v := Map.get 0 j.next f
  f < t.nfeed && decide (v < s.jobPieces j t) && s.pieceHere j t v && !s.feedClear j t f

/-- Write piece v into a feed's slot. -/
def State.writeFeed (s : State) (j : CriJob) (t : Tree) (f v : Nat) : State :=
  let s1 := upto t.vlen (fun g s =>
    let r := s.pieceGran j t v g
    r.2.putTransit (s.feedGran j t f g) r.1.1 r.1.2 (fdFanout (t.feeds.getD f 0))) s
  let k := feedKey j.tree f
  { s1 with wgt := { s1.wgt with feeds := Map.set 0 s1.wgt.feeds k (Map.get 0 s1.wgt.feeds k + 1) } }

/-- The root's own copy of piece v passes the checks of any arrival (R298). -/
def State.writeOwn (s : State) (j : CriJob) (t : Tree) (v : Nat) : State :=
  upto t.vlen (fun g s =>
    let r := s.pieceGran j t v g
    r.2.pieceLand (2 ^ 40 + j.tree) g t.vlen r.1.1) s

/-- The piece that every destination of a job has. -/
def CriJob.least (j : CriJob) (t : Tree) : Nat := ((t.dests.map (fun f => Map.get 0 j.next f)).min?).getD 0

/-- Whether the crier can write the next piece of a job into destination f (R294). -/
def State.pieceReady (s : State) (j : CriJob) (t : Tree) (f : Nat) : Bool :=
  let v := Map.get 0 j.next f
  s.pieceHere j t v && decide (v < s.jobPieces j t) && decide (f ∈ t.dests) && (f == 4 || s.feedClear j t f)

/-- Write the next piece of a job into one destination; a piece counts as sent with its last destination. -/
def State.pieceWrite (s : State) (j : CriJob) (t : Tree) (f : Nat) : State :=
  let v := Map.get 0 j.next f
  if !s.pieceReady j t f then s
  else
    let s1 := if f = 4 then s.writeOwn j t v else s.writeFeed j t f v
    let j' := { j with next := Map.set 0 j.next f (v + 1) }
    let s2 := s1.putJob j'
    (if j.least t < j'.least t then s2.bump .CRI_CNT_PIECES_COUNT else s2).jobCheck j' t

/-- The job that runs on a tree, with the tree's entry. -/
def State.jobOn (s : State) (tree : Nat) : Option (CriJob × Tree) :=
  match s.wgt.jobs.find? (fun j => j.tree == tree), s.treeOf tree with
  | some j, some t => some (j, t)
  | _, _ => none

/-- The crier writes the next piece of a tree's job into destination f, its source read (R294). -/
def State.crierPiece (s : State) (tree f : Nat) : State :=
  match s.jobOn tree with
  | some (j, t) => s.pieceWrite j t f
  | none => s

/-- CRIER_HOST_READ_COMPLETION (R296): more bytes of the shard, or a host read error, after which the job ends with its last complete
piece. -/
def execCrierHostReadCompletion (tree : BitVec 16) (data : List Byte) (err : Bool) (s : State) : Out :=
  .next (match s.wgt.jobs.find? (fun j => j.tree == tree.toNat), s.treeOf tree.toNat with
    | some j, some t =>
      if j.src ≠ 0 ∨ j.err ∨ s.hst.busMaster = false then s
      else
        let j' := if err then { j with err := true } else { j with host := (j.host ++ data).take ((s.jobShard j).len * 512) }
        let s1 := s.putJob j'
        (if err then s1.bump .CRI_CNT_HOSTERR_COUNT else s1).jobCheck j' t
    | _, _ => s)

/-- Count the feeds that wait, at a bell pulse (R294). -/
def State.crierBell (s : State) : State :=
  s.wgt.jobs.foldl (fun s j => match s.treeOf j.tree with
    | some t => s.bump .CRI_CNT_WAIT_COUNT 0 ((List.range t.nfeed).filter (fun f => s.feedWaits j t f)).length
    | none => s) s

/-! ### Swaps (R299-R302) -/

/-- The other bank. -/
def otherBank (b : Nat) : Nat := 1 - b

/-- The bank of region r in a state. -/
def State.bankIn (s : State) (r st : Nat) : Option Nat := [0, 1].find? (fun b => s.bank r b == st)

/-- Whether a swap of region r can be agreed: one bank LOADED, the other ACTIVE or FREE, and two banks in local HBM (R291, R300). -/
def State.swappable (s : State) (r : Nat) : Bool :=
  s.f .WGT_RGN_CFG_VALID r == 1 && s.f .WGT_RGN_CFG_TIER r == 0 && s.rgnDelta r != 0 &&
  (match s.bankIn r bkLoaded with
    | some b => s.bank r (otherBank b) == bkActive || s.bank r (otherBank b) == bkFree
    | none => false)

/-- The regions of a mask. -/
def regionsOf (mask : Nat) : List Nat := (List.range 32).filter (fun r => bit mask r)

/-- Arm a swap at a bell (R300): too soon, not a round boundary, a named region with no LOADED bank, or armed. -/
def State.armSwap (s : State) (bell : Nat) : State :=
  let rs := regionsOf (s.f .WGT_SWAP_MASK_REGIONS)
  let st := if bellDist s bell < 64 then 2 else if !s.boundaryArm (bellOf s bell).toNat then 3
    else if !rs.all (fun r => (s.bankIn r bkLoaded).isSome) then 4 else 1
  let t := ((s.setF .WGT_SWAP_BELL 0 bell).setF .WGT_SWAP_STATUS 0 st).setF .WGT_SWAP_ARM 0 (b2n (st == 1))
  if st ≠ 1 then ({ t with wgt := { t.wgt with swap := none } } : State).armedHere 66
  else
    let u := rs.foldl (fun s r => ((s.bankIn r bkLoaded).map (fun b => s.setBank r b bkArmed)).getD s) t
    ({ u with wgt := { u.wgt with swap := some (bellOf s bell).toNat, swapBad := false } } : State).armedHere 66

/-- WGT_SWAP_ARM (R300). -/
def execWgtSwapArm (bell : BitVec 32) (s : State) : Out := .next (s.armSwap bell.toNat)

/-- The bank word of region r in the store of core n (11, "Switching banks under traffic"). -/
def State.bankWord (s : State) (n r : Nat) : State :=
  let b := s.f .WGT_RGN_ACT_BANK r
  let word := leBytes 8 (b * s.rgnDelta r) ++ leBytes 4 (s.f .WGT_RGN_GEN r) ++ leBytes 1 b ++ leBytes 3 0
  s.modCore n (fun c => c.put (s.f .WGT_CORE_OFF_GRANULE * 512 + 16 * r) word)

/-- Swap region r, whose bank b is ARMED (R301). -/
def State.swapRegion (s : State) (r b : Nat) : State :=
  let a := otherBank b
  let pipe := s.f .WGT_RGN_CFG_PIPE r
  let s1 := if s.bank r a = bkActive then
      (if pipe ≤ 1 then s.setBank r a bkFree else (s.setBank r a bkDraining).setF .WGT_RGN_DRAIN r (pipe - 1))
    else s
  let s2 := (((s1.setBank r b bkActive).setF .WGT_RGN_ACT_BANK r b).setF .WGT_RGN_HAS_ACT r 1).setF .WGT_RGN_GEN r (s.f .WGT_RGN_GEN r + 1)
  s2.boundCores.foldl (fun s n => s.bankWord n r) s2

/-- DRAIN counts down at a round boundary; at 0 the bank is FREE (R301). -/
def State.drainRegion (s : State) (r : Nat) : State :=
  match s.bankIn r bkDraining with
  | none => s
  | some b =>
    let d := s.f .WGT_RGN_DRAIN r - 1
    let t := s.setF .WGT_RGN_DRAIN r d
    if d = 0 then t.setBank r b bkFree else t

/-- The armed swap at the pulse of its bell (R301, R302). -/
def State.swapBell (s : State) (plan : Nat) : State :=
  match s.wgt.swap with
  | none => s
  | some b =>
    if b ≠ s.now then s
    else
      let t := (({ s with wgt := { s.wgt with swap := none, swapBad := false, asked := none } } : State)).setF .WGT_SWAP_ARM 0 0
      if s.wgt.swapBad then
        let u := upto 32 (fun r s => ((s.bankIn r bkArmed).map (fun b => s.setBank r b bkLoaded)).getD s) t
        ((((u.setF .WGT_STATUS_SWAP_HALT 0 1).setF .WGT_SWAP_STATUS 0 5).stopStep 0x5).ldgFault 0x15 0xA 0).raiseNotice 0x7 s.chipAddr 0
      else
        let u := upto 32 (fun r s => ((s.bankIn r bkArmed).map (fun b => s.swapRegion r b)).getD s) t
        (u.setF .WGT_SWAP_STATUS 0 7).commitEntry 66 plan

/-! ### The scrub (R303, R304) -/

/-- The shards a pass reads: in region, bank and offset order. -/
def State.scrubList (s : State) : List (Nat × Nat × Nat) :=
  (List.range 32).flatMap (fun r =>
    if s.f .WGT_RGN_CFG_VALID r = 1 ∧ s.f .WGT_RGN_CFG_MUTABLE r = 0 then
      let es := (s.shardsOf r).zipIdx.insertionSort (fun a b => a.1.off ≤ b.1.off)
      [0, 1].flatMap (fun b =>
        let st := s.bank r b
        if st = bkLoaded ∨ st = bkArmed ∨ st = bkActive ∨ st = bkDraining then
          (es.filter (fun e => (s.shard r b e.2).st == 2)).map (fun e => (r, b, e.2))
        else [])
    else [])

/-- The end of a pass. -/
def State.scrubEnd (s : State) : State := (s.bump .WGT_CNT_PASSES_COUNT).setF .WGT_STATUS_SCRUB_BUSY 0 0

/-- SCRUB_PASS_START (R303). -/
def execScrubPassStart (s : State) : Out :=
  .next (if s.f .WGT_CTRL_SCRUB_EN = 1 ∧ s.f .WGT_STATUS_SCRUB_BUSY = 0 then
      let t := ({ s with wgt := { s.wgt with scrub := s.scrubList } } : State).setF .WGT_STATUS_SCRUB_BUSY 0 1
      if s.scrubList = [] then t.scrubEnd else t
    else s)

/-- Read n granules of a bank from region granule g, folding the digest and writing back what ECC corrected (R175, R303). -/
def State.scrubRead (s : State) (r b g : Nat) : Nat → Nat → Nat × State
  | 0, d => (d, s)
  | n + 1, d =>
    let a := s.rgnAddr r b g
    let x := s.hbmRead a 512
    let k := stackOf a
    let t := x.2.setStack k { x.2.stack k with
      bad := Map.keep (fun w => !(decide (a % stackBytes / 64 ≤ w ∧ w < a % stackBytes / 64 + 8) && Map.get 0 (x.2.stack k).bad w == 1)) (x.2.stack k).bad }
    t.scrubRead r b (g + 1) n ((List.range 32).foldl (fun d i => gmul (Nat.xor d (leAt x.1 (16 * i) 16)) tlH) d)

/-- A scrubbed shard whose digest differs (R304). -/
def State.scrubBad (s : State) (r b i : Nat) : State :=
  let st := s.bank r b
  let t := (s.setShard r b i { s.shard r b i with st := 3 }).recordBad r b i 1
  if st = bkLoaded then t.setBank r b bkBad
  else if st = bkArmed then
    let u := t.setBank r b bkBad
    { u with wgt := { u.wgt with swapBad := true } }
  else (t.setF .WGT_STATUS_ACTIVE_BAD 0 1).ldgFault 0x15 0x7 r

/-- The shard at the head of the pass is read and judged (R303, R304), unless a piece or a swap has taken it. -/
def State.scrubNext (s : State) : State :=
  match s.wgt.scrub with
  | [] => s
  | (r, b, i) :: rest =>
    let s1 := ((({ s with wgt := { s.wgt with scrub := rest } } : State).setF .WGT_SCRUB_POS_REGION 0 r).setF .WGT_SCRUB_POS_BANK 0 b).setF
      .WGT_SCRUB_POS_SHARD 0 i
    let e := (s1.shardsOf r).getD i ⟨0, 0, 0, 0, 0⟩
    let s2 := if (s1.shard r b i).st ≠ 2 ∨ s1.bank r b = bkFree then s1
      else
        let x := s1.scrubRead r b e.off e.len 0
        let t := x.2.bump .WGT_CNT_SCRUBBED_COUNT
        if gmul (Nat.xor x.1 (32 * e.len)) tlH = e.digest then t else t.scrubBad r b i
    if rest = [] then s2.scrubEnd else s2

end Sys2Proof.Machine
end

