-- ==== Sys2Proof/Machine/Topology.lean ====
section
/-!
DEFINITION. Machine topology (R266-R286): the machine configuration, commit agreements, fault notices and the steward's records.
-/
namespace Sys2Proof.Machine

/-! ### Control packets (R279, R281) -/

/-- Send a control packet from the agreement and notice firmware (CTL4). -/
def State.ctlSend (s : State) (dst op : Nat) (data : List Byte) : State := s.sendPkt none (s.mkPkt dst 0x14 clsCtl op 0 0 data)

/-- A control packet that has arrived is consumed: its credit returns (R239). -/
def State.takeCtl (s : State) (src op : Nat) : State :=
  match s.opn.arrived.find? (fun p => p.cls == clsCtl && p.op == op && p.src == src) with
  | some p => ({ s with opn := { s.opn with arrived := s.opn.arrived.erase p } } : State).returnCredit p
  | none => s

/-- The payload of an agreement packet: plan, bell, and the result byte of DONE (R279). -/
def agreeBytes (plan bell : Nat) : List Byte := leBytes 4 plan ++ leBytes 8 bell

/-! ### The steward (R284) -/

/-- The steward for a notice about a suspect: the lowest-indexed healthy chip of the group other than it. -/
def State.stewardFor (s : State) (suspect : Nat) : Option Nat :=
  (List.range 32).find? (fun i => bit (s.f .CHIP_GROUP_VIEW_HEALTHY) i && !(groupOf suspect == s.group && indexOf suspect == i))

/-- Recompute CHIP_STEWARD from HEALTHY. -/
def State.stewardUpdate (s : State) : State :=
  let i := ((List.range 32).find? (fun i => bit (s.f .CHIP_GROUP_VIEW_HEALTHY) i)).getD 0
  (s.setF .CHIP_STEWARD_INDEX 0 i).setF .CHIP_STEWARD_SELF 0 (b2n (i == s.index))

/-- Write CHIP_GROUP_VIEW.HEALTHY. -/
def State.setHealthy (s : State) (v : Nat) : State := (s.setF .CHIP_GROUP_VIEW_HEALTHY 0 v).stewardUpdate

/-- SET_HEALTHY (R284). -/
def execSetHealthy (v : BitVec 32) (s : State) : Out := .next ((s.setHealthy v.toNat).ok 0x15)

/-! ### Chip address and machine configuration (R266-R270, R347, R348) -/

/-- Write CHIP_ADDR.GROUP and LOCK; nothing once LOCK is set (R267). -/
def State.lockGroup (s : State) (g : Nat) : State :=
  if s.f .CHIP_ADDR_LOCK = 1 then s else ((s.setF .CHIP_ADDR_GROUP 0 g).setF .CHIP_ADDR_LOCK 0 1).stewardUpdate

/-- CHIP_ADDR_LOCK (R267). -/
def execChipAddrLock (group : BitVec 10) (s : State) : Out := .next (s.lockGroup group.toNat)

/-- Whether a cabling plan meets the conditions of R270. -/
def cablesOk (m : MachineConfig) : Bool :=
  m.cables.all (fun c => decide (c.group < m.groups ∧ c.peerGroup < m.groups ∧ c.port < 1024 ∧ c.peerPort < 1024) && c.group != c.peerGroup
    && m.cables.any (fun d => d.group == c.peerGroup && d.port == c.peerPort && d.peerGroup == c.group && d.peerPort == c.port)
    && m.cables.all (fun d => !(d.group == c.group && d.port == c.port) || d == c))
  && (List.range m.groups).all (fun g => (List.range m.groups).all (fun h => g == h || m.cables.any (fun c => c.group == g && c.peerGroup == h)))

/-- The chip and link at the far end of link n by the wiring rules and the cabling plan (R268, R270). -/
def State.expectOf (s : State) (n : Nat) : Option (Nat × Nat) :=
  if n < 32 then
    let p := if n = 3 then Nat.xor s.index 1 else Nat.xor (Nat.xor s.index n) 3
    some (s.group * 32 + p, n)
  else
    (s.cables.find? (fun c => c.group == s.group && c.port == 32 * s.index + (n - 32))).map (fun c => (c.peerGroup * 32 + c.peerPort / 32, 32 + c.peerPort % 32))

/-- Firmware writes LNK_EXPECT of every link from the accepted configuration (R267, R270). -/
def State.writeExpect (s : State) : State :=
  upto 64 (fun n s => match s.expectOf n with
    | some (c, l) => ((s.setF .LNK_EXPECT_CHIP n c).setF .LNK_EXPECT_LINK n l).setF .LNK_EXPECT_CHECK_EN n 1
    | none => s) s

/-- What firmware writes from an accepted machine configuration (R348). -/
def State.applyMachine (s : State) (m : MachineConfig) : State :=
  let s1 := ({ s with topo := { s.topo with machine := some m, kept := Map.keep retained s.ctl.sram } } : State).writeExpect
  let s2 := if s1.f .CTL_LOCK_LOCK = 1 then s1 else (s1.setF .CTL_HOSTWR_MASK 0 m.hostwr).setF .CTL_LOCK_LOCK 0 1
  (((((s2.setF .RST_CFG_PERST_MODE 0 m.perst).setF .LIF_HOLDUP_CFG_CAP 0 (field m.holdupCfg 0 16)).setF .LIF_HOLDUP_CFG_VMIN 0 (field m.holdupCfg 16 12)).setF
    .LIF_HOLDUP_CFG_EPROG 0 (field m.holdupCfg 32 16)).setF .LIF_HOLDUP_CFG_EERASE 0 (field m.holdupCfg 48 16)).setF .LIF_MIRROR_BASE 0 (m.mirror / 4096)

/-- SET_MACHINE_CONFIG (R267, R270, R347, R348). -/
def execSetMachineConfig (cfg : MachineConfig) (s : State) : Out :=
  .next (match s.topo.machine with
    | some m => if m = cfg then s.ok 0x2 else s.refuse 0x2 0x08
    | none =>
      if !cablesOk cfg || decide (cfg.groups ≤ cfg.group) || (s.f .CHIP_ADDR_LOCK == 1 && s.group != cfg.group) then s.refuse 0x2 0x08
      else ((s.lockGroup cfg.group).applyMachine cfg).ok 0x2)

/-! ### Agreements (R279, R280) -/

/-- The plan id of a swap (R300), and those this model gives to LOAD_BUNDLE and START_ROUND (log entry 38). -/
abbrev swapPlan (seq : Nat) : Nat := 0x80000000 + seq % 2 ^ 30
abbrev loadPlan : Nat := 0xC0000000
abbrev startPlan : Nat := 0xC0000001

/-- The host command whose agreement a plan id names. -/
def planCode (p : Nat) : Nat := if p = loadPlan then 0x10 else if p = startPlan then 0x11 else if 0x80000000 ≤ p then 0x21 else 0x12

/-- A plan of the bundle. -/
def State.planOf (s : State) (p : Nat) : Option PlanInfo := s.topo.plans.find? (fun x => x.id == p)

/-- Whether the set at a base holds what its digest says (R214). -/
def State.setOk (s : State) (base digest : Nat) : Bool := tlBytes (s.rdBytes base 0x422000) == digest

/-- Whether the sets of a plan are written and checked (R214, R279). -/
def State.planWritten (s : State) (p : PlanInfo) : Bool :=
  p.sets.all (fun x => s.setOk x.2.1 x.2.2.1 && s.setOk x.2.2.2.1 x.2.2.2.2)

/-- Checking the sets of a plan reads them through the symbol code (R175). -/
def State.planScan (s : State) (p : PlanInfo) : State :=
  p.sets.foldl (fun s x => (s.eccScan x.2.1 0x422000).eccScan x.2.2.2.1 0x422000) s

/-- Whether this chip can take part in a plan. -/
def State.planReady (s : State) (p : Nat) : Bool :=
  if planCode p = 0x10 then s.load.loading.isSome
  else if planCode p = 0x11 then s.load.loaded
  else if planCode p = 0x21 then
    (match s.wgt.asked with
      | some m => (regionsOf m).all (fun r => s.swappable r)
      | none => false)
  else
    match s.planOf p with
    | some x => s.planWritten x
    | none => false

/-- The links that a plan touches. -/
def State.planLinks (s : State) (p : Nat) : List Nat :=
  if planCode p = 0x10 then ((s.load.bundle.map (·.sets)).getD []).map (fun y => y.link % 64)
  else ((s.planOf p).map (fun x => x.sets.map (fun y => y.1 % 64))).getD []

/-- The bells other than b at which a commit for a link of the plan is armed. -/
def State.planConflicts (s : State) (p b : Nat) : List Nat := (s.planLinks p).filterMap (fun n => (s.link n).commit.filter (· != b))

/-- Whether a commit for a link of the plan is armed at another bell. -/
def State.planConflict (s : State) (p b : Nat) : Bool := s.planConflicts p b != []

/-- The round position of bell b for a plan: a load's bell counts in the round structure that it commits (R242). -/
def State.planPos (s : State) (p b : Nat) : Nat :=
  if planCode p = 0x10 then (((b : Int) - (s.f .BEL_ROUND_ORIGIN_BELL : Int)) % ((s.f .BEL_ROUND_LEN_LEN_M1 + 1 : Nat) : Int)).toNat
  else s.roundPos b

/-- The first round boundary of a plan at least k bells ahead (R279). -/
def State.planBoundary (s : State) (p k : Nat) : Nat :=
  if planCode p = 0x10 then
    let n := max (s.now + k) (s.f .BEL_ROUND_ORIGIN_BELL)
    if s.planPos p n = 0 then n else n + (s.f .BEL_ROUND_LEN_LEN_M1 + 1 - s.planPos p n)
  else s.nextBoundary k

/-- The earliest bell at which a chip would accept plan p (R279): a round boundary at least 256 bells ahead, the bell of the commits already armed for
its links, or after them where they differ. A chip that has still to write and check its sets, or to load its banks, cannot tell when it will
have done so: that is a free value (log entry 77). -/
def State.counterBell (s : State) (p : Nat) : State × Nat :=
  let k := if s.planReady p then 0 else Config.freeNat s.free
  let b := s.planBoundary p (256 + k)
  let armed := (s.planLinks p).filterMap (fun n => (s.link n).commit)
  let top := armed.foldl max 0
  let c := if armed.all (fun x => decide (x < b)) then b else if armed.all (· == top) then top else s.planBoundary p (top + 1 - s.now)
  ({ s with free := if s.planReady p then s.free else s.free + 1 }, c)

/-- Whether a chip answers ACCEPT to plan p at bell b. -/
def State.acceptable (s : State) (p b : Nat) : Bool := decide (s.now + 256 ≤ b) && s.planPos p b == 0 && s.planReady p && !s.planConflict p b

/-- The route that a table at byte base gives to a chip (R237). -/
def State.routeIn (s : State) (base chip : Nat) : Option Nat :=
  let b := (s.rdByte (base + chip)).toNat
  if bit b 7 then some (b % 64) else none

/-- The link that a permit of a receive descriptor of link n leaves by, with these open routes (R226). -/
def State.permitLink (s : State) (route : Nat → Option Nat) (n : Nat) (d : Desc) : Option Nat :=
  if s.f .LNK_EXPECT_CHIP n = dRetChip d then some n else route (dRetChip d)

/-- Whether at most 4,096 distinct permit destinations of these receive sets (link, base) route through each link (R226). -/
def State.permitsFit (s : State) (route : Nat → Option Nat) (sets : List (Nat × Nat)) : Bool :=
  let ds := (sets.flatMap (fun x => (List.range 4096).filterMap (fun f =>
    let d := s.descAt x.2 f
    if 8 ≤ dKind d then (s.permitLink route x.1 d).map (fun l => (l, dRetChip d, dRetLink d, dRetFlow d)) else none))).dedup
  (List.range 64).all (fun l => decide ((ds.filter (fun x => x.1 == l)).length ≤ 4096))

/-- Arm a plan's own commits; whether every arm was accepted, and the refusing STATUS (R243, R300). -/
def State.armPlan (s : State) (p b : Nat) : State × Nat :=
  let c := b % 2 ^ 32
  let links := fun (t : State) (ls : List Nat) => ls.foldl (fun (a : State × Nat) n =>
    let u := a.1.armStl n c
    (u, if a.2 ≠ 0 then a.2 else if u.f .STL_COMMIT_STATUS n = 1 then 0 else u.f .STL_COMMIT_STATUS n)) (t, 0)
  let route := fun (a : State × Nat) =>
    let u := a.1.armOpn c
    (u, if a.2 ≠ 0 then a.2 else if u.f .OPN_COMMIT_STATUS = 1 then 0 else u.f .OPN_COMMIT_STATUS)
  if planCode p = 0x11 then
    (upto 128 (fun n s => if s.cst n = stLoaded then s.modCore n (fun k => { k with startBell := some b }) else s) s, 0)
  else if planCode p = 0x21 then
    let t := (s.setF .WGT_SWAP_MASK_REGIONS 0 (s.wgt.asked.getD 0)).armSwap c
    (t, if t.f .WGT_SWAP_STATUS = 1 then 0 else t.f .WGT_SWAP_STATUS)
  else if planCode p = 0x10 then
    let t := s.armBel c
    if t.f .BEL_COMMIT_STATUS ≠ 1 then (t, t.f .BEL_COMMIT_STATUS)
    else
      match s.load.bundle with
      | some x => route (links t (x.sets.map (fun y => y.link % 64)))
      | none => (t, 0)
  else
    match s.planOf p with
    | some x =>
      let t := x.sets.foldl (fun s y => (s.setF .STL_TXBASE_BASE (y.1 % 64) (y.2.1 / 65536)).setF .STL_RXBASE_BASE (y.1 % 64) (y.2.2.2.1 / 65536)) s
      let a := links t (x.sets.map (fun y => y.1 % 64))
      (match x.route with
        | some r => route (a.1.setF .OPN_ROUTE_BASE_BASE 0 (r / 65536), a.2)
        | none => a)
    | none => (s, 0xF)

/-- Write an agreement back, or drop it. -/
def State.putAgree (s : State) (p : Nat) (a : Option Agreement) : State :=
  let rest := s.topo.agreements.filter (fun x => x.plan != p)
  { s with topo := { s.topo with agreements := match a with
    | some x => x :: rest
    | none => rest } }

/-- The running agreement on a plan. -/
def State.agreeOf (s : State) (p : Nat) : Option Agreement := s.topo.agreements.find? (fun x => x.plan == p)

/-- Firmware takes a job and a bundle, or none, as the ones it works from. -/
def State.takeJob (s : State) (j : Option JobConfig) (b : Option Bundle) : State :=
  { s with
    topo := { s.topo with
      partition := (j.map (fun j => j.ranks ++ j.spares)).getD [], spares := (j.map (·.spares)).getD [], ranks := (j.map (·.ranks)).getD []
      plans := (b.map (·.plans)).getD [], recBase := (j.map (·.recBase)).getD 0 }
    load := { s.load with job := j, bundle := b } }

/-- A load under way ends without effect: the job and bundle before it stand again (R349, R350). -/
def State.dropLoad (s : State) : State :=
  if s.load.loading.isNone then s
  else
    let t := s.takeJob s.load.before.1 s.load.before.2
    { t with load := { t.load with loading := none } }

/-- The code of the host command that an agreement completes: 0, which names none, when firmware itself runs it for a detour plan or the outstanding
COMMIT_PLAN names another plan. -/
def State.hostCode (s : State) (p : Nat) : Nat :=
  if planCode p = 0x12 ∧ ((s.hst.taken.find? (fun t => t.code == 0x12)).map (fun t => leVal (t.args.take 4))).getD p ≠ p then 0 else planCode p

/-- What a chip without CONFIRM, or whose arm is refused, does: it stops the links of the plan and its step, and names itself (R280). -/
def State.agreeFail (s : State) (p : Nat) : State :=
  let t := (s.planLinks p).foldl (fun s n => s.linkDisable n) (s.putAgree p none)
  let u := if planCode p = 0x10 then t.dropLoad else t
  ((u.stopStep 0x5).raiseNotice 0x7 s.chipAddr 0).complete (s.hostCode p) cAgree

/-- Arm a confirmed plan (R279); a refused arm fails the agreement (R280). -/
def State.agreeArm (s : State) (a : Agreement) : State :=
  let r := s.armPlan a.plan a.bell
  if r.2 = 0 then (r.1.putAgree a.plan (some { a with confirmed := true, armed := true })).markStarted (s.hostCode a.plan) true
  else r.1.agreeFail a.plan

/-- Every chip has accepted: CONFIRM to each, and arm (R279). -/
def State.agreeConfirm (s : State) (a : Agreement) : State :=
  (a.chips.foldl (fun s c => s.ctlSend c 0x34 (agreeBytes a.plan a.bell)) s).agreeArm a

/-- Propose bell b of a plan to every chip it touches (R279); alone, the initiator confirms at once. -/
def State.agreePropose (s : State) (a : Agreement) : State :=
  let b := { a with answers := [] }
  if b.chips = [] then (s.putAgree b.plan (some b)).agreeConfirm b
  else b.chips.foldl (fun s c => s.ctlSend c 0x31 (agreeBytes b.plan b.bell)) (s.putAgree b.plan (some b))

/-- The other chips of the job. -/
def State.others (s : State) : List Nat := s.topo.partition.filter (fun c => c != s.chipAddr)

/-- The other chips that a plan touches: those that a plan of the bundle names, else every chip of the job. -/
def State.touched (s : State) (p : Nat) : List Nat :=
  if planCode p = 0x12 then ((s.planOf p).map (fun x => x.chips.filter (fun c => c != s.chipAddr))).getD [] else s.others

/-- Whether this chip initiates the agreement on a plan (R279): for the detour plan of a degraded link the end with the lower chip address, else the
steward of rank 0's group. -/
def State.initiates (s : State) (p : Nat) : Bool :=
  match (s.planOf p).bind (fun x => if planCode p = 0x12 then (x.ends.map (·.1)).min? else none) with
  | some c => c == s.chipAddr
  | none => s.f .CHIP_STEWARD_SELF == 1 && ((s.topo.ranks.head?.map (fun c => groupOf c == s.group)).getD true)

/-- Start the agreement on a plan; a chip that does not initiate waits for PROPOSE. -/
def State.agreeStart (s : State) (p : Nat) : State :=
  let t := s.markStarted (planCode p) false
  if s.initiates p then t.agreePropose ⟨p, s.planBoundary p 512, true, s.chipAddr, s.touched p, [], 0, false, false, []⟩ else t

/-- At the pulse firmware proposes the detour plans it wants, once no load is under way and no agreement on the plan runs (R242, R279). -/
def State.agreeWanted (s : State) : State :=
  if s.topo.wanted = [] ∨ s.outstanding 0x10 then s
  else
    s.topo.wanted.foldl (fun s p =>
      if (s.agreeOf p).isSome ∨ s.initiates p = false ∨ s.planReady p = false then s
      else s.agreePropose ⟨p, s.planBoundary p 512, true, s.chipAddr, s.touched p, [], 0, false, false, []⟩)
      { s with topo := { s.topo with wanted := [] } }

/-- Arm a plan at a bell that the host has arranged; a refused arm refuses the command, with none of it armed. -/
def State.planDirect (s : State) (p b : Nat) : State :=
  let r := s.armPlan p b
  if r.2 = 0 then (r.1.putAgree p (some ⟨p, b, false, s.chipAddr, [], [], 0, true, true, []⟩)).markStarted (planCode p) true
  else s.refuse (planCode p) 0x09 r.2

/-- COMMIT_PLAN (R243, R279, R346). -/
def execCommitPlan (plan : BitVec 32) (bell : BitVec 64) (s : State) : Out :=
  .next (if s.outstanding 0x10 then s.refuse 0x12 0x07
    else
      match s.planOf plan.toNat with
      | none => s.refuse 0x12 0x0A
      | some x =>
        if !s.planWritten x || !s.permitsFit ((x.route.map (fun r => s.routeIn r)).getD s.routeOf) (x.sets.map (fun y => (y.1, y.2.2.2.1))) then s.refuse 0x12 0x04
        else
          let t := s.planScan x
          if bell = 0 then t.agreeStart plan.toNat else t.planDirect plan.toNat bell.toNat)

/-- SWAP_BANK (R291, R300, R346). -/
def execSwapBank (mask : BitVec 32) (s : State) : Out :=
  .next (if s.outstanding 0x10 then s.refuse 0x21 0x07
    else if !(regionsOf mask.toNat).all (fun r => s.swappable r) then s.refuse 0x21 0x07 0x4
    else
      let t := { s with wgt := { s.wgt with asked := some mask.toNat, seq := s.wgt.seq + 1 } }
      t.agreeStart (swapPlan t.wgt.seq))

/-- PROPOSE (R279): ACCEPT, or COUNTER with the earliest bell at which the conditions would hold. -/
def execPropose (src : ChipAddr) (plan : BitVec 32) (bell : BitVec 64) (s : State) : Out :=
  let t := s.takeCtl src.toNat 0x31
  let p := plan.toNat
  .next (if t.acceptable p bell.toNat then
      (t.putAgree p (some ⟨p, bell.toNat, false, src.toNat, [], [], 0, false, false, []⟩)).ctlSend src.toNat 0x32 (agreeBytes p bell.toNat)
    else (t.counterBell p).1.ctlSend src.toNat 0x33 (agreeBytes p (t.counterBell p).2))

/-- Every answer of a round is in: CONFIRM, another round with the largest counter, or after four rounds none (R279). -/
def State.agreeDecide (s : State) (a : Agreement) : State :=
  if a.answers.length < a.chips.length then s.putAgree a.plan (some a)
  else
    let cs := a.answers.filterMap (·.2)
    if cs = [] then s.agreeConfirm a
    else if 4 ≤ a.rounds + 1 then
      let t := s.putAgree a.plan none
      ((if planCode a.plan = 0x10 then t.dropLoad else t).raiseNotice 0x7 s.chipAddr 0).complete (s.hostCode a.plan) cAgree
    else s.agreePropose { a with bell := cs.foldl max 0, rounds := a.rounds + 1 }

/-- Record one answer to a PROPOSE of this initiator. -/
def State.agreeAnswer (s : State) (src p : Nat) (ok : Agreement → Bool) (c : Option Nat) : State :=
  match s.agreeOf p with
  | some a =>
    if a.initiator && !a.confirmed && decide (src ∈ a.chips) && ok a then
      s.agreeDecide { a with answers := (src, c) :: a.answers.filter (fun x => x.1 != src) }
    else s
  | none => s

/-- ACCEPT (R279). -/
def execAccept (src : ChipAddr) (plan : BitVec 32) (bell : BitVec 64) (s : State) : Out :=
  .next ((s.takeCtl src.toNat 0x32).agreeAnswer src.toNat plan.toNat (fun a => a.bell == bell.toNat) none)

/-- COUNTER (R279). -/
def execCounter (src : ChipAddr) (plan : BitVec 32) (bell : BitVec 64) (s : State) : Out :=
  .next ((s.takeCtl src.toNat 0x33).agreeAnswer src.toNat plan.toNat (fun _ => true) (some bell.toNat))

/-- CONFIRM (R279, R280): the chip arms the plan that it has accepted. -/
def execConfirm (src : ChipAddr) (plan : BitVec 32) (bell : BitVec 64) (s : State) : Out :=
  let t := s.takeCtl src.toNat 0x34
  .next (match t.agreeOf plan.toNat with
    | some a => if !a.initiator && !a.armed && a.bell == bell.toNat && a.from_ == src.toNat then t.agreeArm a else t
    | none => t)

/-- DONE (R280). -/
def execDone (src : ChipAddr) (plan : BitVec 32) (bell : BitVec 64) (result : Bool) (s : State) : Out :=
  let t := s.takeCtl src.toNat 0x35
  .next (match t.agreeOf plan.toNat with
    | some a =>
      if a.initiator && a.bell == bell.toNat && !result && decide (src.toNat ∈ a.chips) then
        t.putAgree a.plan (some { a with dones := if src.toNat ∈ a.dones then a.dones else src.toNat :: a.dones })
      else t
    | none => t)

/-- AGREE_DEADLINE (R280): B - 64 has come without CONFIRM. -/
def execAgreeDeadline (plan : BitVec 32) (s : State) : Out :=
  .next (match s.agreeOf plan.toNat with
    | some a => if !a.confirmed && decide (a.bell ≤ s.now + 64) then s.agreeFail plan.toNat else s
    | none => s)

/-- DONE_DEADLINE (R280): the initiator names every chip that has not reported a commit. -/
def execDoneDeadline (plan : BitVec 32) (s : State) : Out :=
  .next (match s.agreeOf plan.toNat with
    | some a =>
      if a.initiator && a.confirmed && decide (a.bell + 64 ≤ s.now) then
        (a.chips.filter (fun c => !decide (c ∈ a.dones))).foldl (fun s c => s.raiseNotice 0x7 c 0) (s.putAgree a.plan none)
      else s
    | none => s)

/-- The plan whose commits are armed for bell b, 0 for none (R306). -/
def State.planAtBell (s : State) (b : Nat) : Nat := ((s.topo.agreements.find? (fun a => a.armed && a.bell == b)).map (·.plan)).getD 0

/-- The STATUS that a plan's commits refused with at their bell, 0 when every one has taken effect. -/
def State.planResult (s : State) (p : Nat) : Nat :=
  let bad := fun (sts : List Nat) => (sts.find? (fun x => x != 7)).getD 0
  if planCode p = 0x11 then 0
  else if planCode p = 0x21 then bad [s.f .WGT_SWAP_STATUS]
  else
    bad ((if planCode p = 0x10 then [s.f .BEL_COMMIT_STATUS, s.f .OPN_COMMIT_STATUS] else []) ++ (s.planLinks p).map (fun n => s.f .STL_COMMIT_STATUS n)
      ++ (match s.planOf p with
        | some x => if x.route.isSome then [s.f .OPN_COMMIT_STATUS] else []
        | none => []))

/-- After bell B: DONE to the initiator, and the command completes (R279). -/
def State.agreeBell (s : State) : State :=
  s.topo.agreements.foldl (fun s a =>
    if !a.armed || a.bell != s.now then s
    else
      let r := s.planResult a.plan
      let t := if r = 0 then s.ok (s.hostCode a.plan) else s.refuse (s.hostCode a.plan) 0x09 r
      if a.initiator then t
      else
        let u := t.putAgree a.plan none
        if a.from_ = s.chipAddr then u else u.ctlSend a.from_ 0x35 (agreeBytes a.plan a.bell ++ leBytes 4 (b2n (r != 0)))) s

/-! ### Notices and records (R281-R286) -/

/-- A notice reaches the steward: it joins or opens a merge (R285). -/
def State.mergeNotice (s : State) (reporter suspect cls bell detail : Nat) : State :=
  let same := fun (m : Merge) => m.suspect == suspect && m.cls == cls
  let ms := if s.topo.merges.any same then
      s.topo.merges.map (fun m => if same m then { m with reporters := setBit m.reporters reporter true, first := min m.first bell } else m)
    else s.topo.merges ++ [⟨suspect, cls, 2 ^ reporter, bell, s.wall.1, s.wall.2, detail, s.now⟩]
  { s with topo := { s.topo with merges := ms } }

/-- The 16 bytes of a NOTICE (R281). -/
def Notice.bytes (n : Notice) : List Byte := leBytes 2 n.suspect ++ leBytes 1 n.cls ++ leBytes 1 0 ++ leBytes 8 n.bell ++ leBytes 2 n.detail ++ leBytes 2 0

/-- NOTICE_SEND (R282-R284): at most one notice per suspect and class in 64 bells; the steward records its own directly. -/
def execNoticeSend (s : State) : Out :=
  .next (match s.topo.toSend with
    | [] => s
    | n :: rest =>
      let t := { s with topo := { s.topo with toSend := rest } }
      if s.topo.sent.any (fun x => x.suspect == n.suspect && x.cls == n.cls && decide (s.now < x.bell + 64)) then t.bump .CHIP_CNT_SUPPR_COUNT
      else
        let u := ({ t with topo := { t.topo with
          sent := { n with bell := s.now } :: t.topo.sent.filter (fun x => decide (s.now < x.bell + 64)) } } : State).bump .CHIP_CNT_NOTICE_COUNT
        match u.stewardFor n.suspect with
        | none => u
        | some i => if i = u.index then u.mergeNotice i n.suspect n.cls n.bell n.detail else u.ctlSend (u.group * 32 + i) 0x30 n.bytes)

/-- NOTICE (R281, R284): any class other than the listed ones is reserved. -/
def execNotice (src : ChipAddr) (suspect : ChipAddr) (cls : BitVec 8) (bell : BitVec 64) (detail : BitVec 16) (s : State) : Out :=
  let t := s.takeCtl src.toNat 0x30
  .next (if 1 ≤ cls.toNat ∧ cls.toNat ≤ 7 then t.mergeNotice (indexOf src.toNat) suspect.toNat cls.toNat bell.toNat detail.toNat else t)

/-- The record of a merge (R285). -/
def State.recordOf (s : State) (m : Merge) : List Byte :=
  leBytes 2 m.suspect ++ leBytes 1 m.cls ++ leBytes 1 ((List.range 32).filter (fun i => bit m.reporters i)).length ++ leBytes 4 m.reporters
    ++ leBytes 8 m.first ++ leBytes 6 m.wallS ++ leBytes 4 m.wallNs ++ leBytes 2 s.chipAddr ++ leBytes 2 m.detail ++ leBytes 2 s.topo.recSeq

/-- Slots of the fault-record ring (R286). -/
abbrev recSlots : Nat := 256

/-- Put a record into the next slot of the ring, or count it lost when 256 wait (R286). -/
def State.addRecord (s : State) (r : List Byte) : State :=
  if recSlots ≤ s.topo.recWait.length then s.bump .CHIP_CNT_RECLOST_COUNT
  else
    let a := s.topo.recBase + 64 * s.topo.recNext
    let t := s.wrBytes a (r ++ leBytes 32 0)
    { t with topo := { t.topo with recWait := t.topo.recWait ++ [(a, r)], recNext := (t.topo.recNext + 1) % recSlots } }

/-- MERGE_CLOSE (R284, R285): the record to the ledger and the ring; HEALTHY loses a chip named in LINK_FLUSH, SELF or AGREE. -/
def execMergeClose (s : State) : Out :=
  .next (match s.topo.merges.find? (fun m => decide (m.opened + s.f .CHIP_STEWARD_MERGE ≤ s.now)) with
    | none => s
    | some m =>
      let r := s.recordOf m
      let t := { s with topo := { s.topo with merges := s.topo.merges.erase m, recSeq := s.topo.recSeq + 1 } }
      let u := (t.ldgAppend { kind := 0x07, src := 0x14, detail := 0x8 + m.suspect * 4096 }).addRecord r
      if (m.cls = 2 ∨ m.cls = 6 ∨ m.cls = 7) ∧ groupOf m.suspect = s.group then
        u.setHealthy (setBit (u.f .CHIP_GROUP_VIEW_HEALTHY) (indexOf m.suspect) false)
      else u)

/-- The mailbox channel of the steward's notices (R286). -/
abbrev recChannel : Nat := 63

/-- RECORD_DELIVER (R286): the notice of the next record, once the previous one shows TAKEN. -/
def execRecordDeliver (s : State) : Out :=
  let taken := s.topo.recSent && s.f .MBX_STAT_TAKEN recChannel == 1
  let t := if taken then { s with topo := { s.topo with recSent := false, recWait := s.topo.recWait.drop 1 } } else s
  .next (if t.topo.recSent then t
    else
      match t.topo.recWait with
      | [] => t
      | (a, r) :: _ =>
        let u := t.mbxWrite 0x14 recChannel ((0xFA00 + leAt r 30 1) * 2 ^ 48 + a)
        if u.f .MBX_CNT_NOTICE_COUNT ≠ t.f .MBX_CNT_NOTICE_COUNT ∨ u.f .MBX_STAT_FULL recChannel = 1 then
          ({ u with topo := { u.topo with recSent := true } } : State).bump .CHIP_CNT_RECORD_COUNT
        else u)

/-- HALT_STEP (R100). -/
def execHaltStep (s : State) : Out := .next ((s.stopStep 0x1).ok 0x13)

/-- CHIP_HALT_STOP (R100): a write of 1 to CHIP_HALT.STOP. -/
def execChipHaltStop (s : State) : Out := .next (s.stopStep 0x1)

/-- Write CORE_CTRL.FENCE of core n: clearing it changes nothing else (R102). -/
def State.writeFence (s : State) (n : Nat) (v : Bool) : State := if v then s.fence n else s.setF .CORE_CTRL_FENCE n 0

/-- CORE_FENCE_WRITE (R102). -/
def execCoreFenceWrite (c : CoreId) (v : Bool) (s : State) : Out := .next (if s.enabled c then s.writeFence c v else s)

/-- FENCE_CORE (R102). -/
def execFenceCore (c : CoreId) (clear : Bool) (s : State) : Out :=
  .next (if s.enabled c then (s.writeFence c (!clear)).ok 0x14 else s.refuse 0x14 0x0A)

end Sys2Proof.Machine
end

