-- ==== Sys2Proof/Machine/RegOps.lean ====
section
/-!
DEFINITION. Registers as their fields: the value of a register, and the return of fields to their reset values (R17, R381).
-/
namespace Sys2Proof.Machine

/-- The value of element i of a register: its fields in their places. -/
def State.regVal (s : State) (r : Reg) (i : Nat := 0) : Nat := (r.flds.map (fun fl => s.f fl i * 2 ^ fl.lo)).sum

/-- The register and the field with a code. -/
def fldOf (code : Nat) : Option (Reg × Fld) :=
  (allRegs.find? (fun r => r.flds.any (fun fl => fl.code == code))).bind (fun r => (r.flds.find? (fun fl => fl.code == code)).map (fun fl => (r, fl)))

/-- Return the listed fields that satisfy p (register, field, element) to their reset values. -/
def State.resetIf (s : State) (p : Reg → Fld → Nat → Bool) : State :=
  { s with regs := Map.keep (fun k => match fldOf (k % 1024) with
    | some (r, fl) => !p r fl (k / 1024)
    | none => true) s.regs }

/-- Whether a reset of class c returns a field to its reset value (R17). -/
def Fld.resetBy (fl : Fld) (c : Rst) : Bool := !decide (c ∈ fl.kept)

/-- The core whose window holds element i of a register: its arrays hold `cnt` elements for each core. -/
def Reg.coreOf (r : Reg) (i : Nat) : Option Nat :=
  if r.blk = .core ∨ r.blk = .mxe ∨ r.blk = .vec ∨ r.blk = .prt ∨ r.blk = .pmc then some (i / r.cnt) else none

/-- A master's identity as a control core (R162). -/
def ctlOf (m : Nat) : Option Nat := if 0x10 ≤ m ∧ m ≤ 0x17 then some (m - 0x10) else none

end Sys2Proof.Machine
end

