-- ==== Sys2Proof/Machine/Control.lean ====
section
/-!
DEFINITION. The control complex (R327-R330), the mailboxes (R331-R338) and the host interface (R339-R353, R386).
-/
namespace Sys2Proof.Machine

/-! ### Mastership and watchdogs -/

/-- A write of CTL_MASTER.CORE by master m: only the current master's takes effect (R328). -/
def State.masterWrite (s : State) (m i : Nat) : State := if m = 0x10 + s.f .CTL_MASTER_CORE then s.handOver i else s

/-- MASTER_CHANGE (R328). -/
def execMasterChange (m : Master) (core : Fin 8) (s : State) : Out := .next (s.masterWrite m.toNat core.val)

/-- Every core leaves the job (R350): bindings clear, the cores are in CG with retention (R384), no bundle is loaded or on its way, and firmware keeps an
all-quiet map (R375). -/
def State.unbindAll (s : State) : State :=
  let t := upto 128 (fun n s =>
    if s.bound n then ((s.setF .CORE_BIND_BOUND n 0).setF .CORE_STATUS_STATE n (if s.cst n = stFenced then stFenced else stIdle)).modCore n
      (fun c => { c with startBell := none, cg := true })
    else s) s
  ({ t with load := { t.load with loaded := false, loading := none, job := none, bundle := none } } : State).quietAll

/-- Drop the agreements on plans of this command that no CONFIRM has settled (R350). -/
def State.dropAgree (s : State) (code : Nat) : State :=
  { s with topo := { s.topo with agreements := s.topo.agreements.filter (fun a => planCode a.plan != code || a.confirmed) } }

/-- What is left of an aborted command: nothing but what is armed at an agreed bell or confirmed (R350). -/
def State.abortEffects (s : State) (t : Taken) : State :=
  let u := s.dropAgree t.code
  if t.armed then u
  else if t.code = 0x10 then (if u.jobRuns then u.dropLoad else u.unbindAll)
  else if t.code = 0x21 then { u with wgt := { u.wgt with asked := none } }
  else if t.code = 0x30 then { u with ldg := { u.ldg with batch := none } }
  else if t.code = 0x40 then { u with pwr := { u.pwr with change := none } }
  else if t.code = 0x50 then { u with fwu := none }
  else if t.code = 0x60 then { u with pwr := { u.pwr with down := none } }
  else u

/-- Abort the open multi-step command, if there is one (R347, R349): nothing is left of it, and it completes ABORTED, a step of it that has no
completion yet by that one. -/
def State.abortOpen (s : State) : State :=
  match s.hst.multi with
  | some o =>
    (({ s with hst := { s.hst with multi := none, taken := s.hst.taken.filter (fun t => t.idx != o.idx || t.code != o.code) } } : State).abortEffects o).cplDeliver
      (o.completion cAborted 0)
  | none => s

/-- Abort the commands that satisfy p, and the open multi-step command: each completes ABORTED (R330, R347, R349). -/
def State.abortCommands (s : State) (p : Taken → Bool) : State :=
  let isOpen := fun (t : Taken) => s.hst.multi.any (fun o => t.idx == o.idx && t.code == o.code)
  let ts := s.hst.taken.filter (fun t => p t && !isOpen t)
  let t := ts.foldl (fun s t => s.abortEffects t) { s with hst := { s.hst with taken := s.hst.taken.filter (fun t => !p t || isOpen t) } }
  (ts.foldl (fun s t => s.cplDeliver (t.completion cAborted 0)) t).abortOpen

/-- Control core i restarts from its verified image: its mailboxes take a receiver reset and its locks are released (R330, R336). -/
def State.restartCtl (s : State) (i : Nat) : State :=
  let t := upto 64 (fun c s => if s.f .MBX_BIND_RECV c = 0x10 + i then s.mbxRecvReset c else s) s
  (t.mbxReleaseAll (0x10 + i)).setFb .CTL_STATUS_RUNNING 0 i true

/-- WATCHDOG_EXPIRY (R330): LIMIT ms without a KICK. -/
def execWatchdogExpiry (i : Fin 8) (s : State) : Out :=
  if s.f .CTL_WDOG_LIMIT i = 0 ∨ s.fb .CTL_STATUS_RUNNING 0 i.val = false then .next s
  else
    let was := s.f .CTL_MASTER_CORE = i.val
    let s1 := ((s.restartCtl i.val).bump .CTL_CNT_RESTART_COUNT).setFb .CTL_STATUS_RESTARTED 0 i.val true
    let s2 := if was then ((s1.setMaster (if i.val = 2 then 0 else 2)).setF .CTL_MASTER_TAKEOVER 0 1).abortCommands (fun t => !t.started) else s1
    .next (s2.irqMaster (.watchdog i.val))

/-- A write of CTL_WDOG[i]: the count restarts with the limit written (R330). -/
def State.wdogWrite (s : State) (i limit : Nat) : State := s.setF .CTL_WDOG_LIMIT i limit

/-- WDOG_KICK (R330). -/
def execWdogKick (i : Fin 8) (limit : BitVec 16) (s : State) : Out := .next (s.wdogWrite i.val limit.toNat)

/-! ### Mailboxes -/

/-- A host write that the BAR0 filter discards (R341). -/
def State.barDeny (s : State) (off : Nat) : State :=
  let t := (s.setF .HST_STATUS_BAR0_DENIED 0 1).bump .HST_CNT_DENIED_COUNT
  if s.f .HST_DENIED_ADDR_VALID = 1 then t else (t.setF .HST_DENIED_ADDR_OFF 0 off).setF .HST_DENIED_ADDR_VALID 0 1

/-- The offset in register space of the registers of channel c. -/
def mbxOff (c : Nat) : Nat := 0x40010000 + 0x1000 + 0x40 * c

/-- MBX_SEND (R332; R341 for the host; the BMC reaches no register, R352). -/
def execMbxSend (m : Master) (ch : Fin 64) (v : BitVec 64) (s : State) : Out :=
  .next (if reachesRegs m.toNat = false then s
    else if m.toNat = 0 ∧ s.mbxSender 0 ch.val = false then s.barDeny (mbxOff ch.val + 8)
    else s.mbxWrite m.toNat ch.val v.toNat)

/-- A read of MBX_DATA[c] by master m (R332). -/
def State.mbxTake (s : State) (m : Master) (c : Nat) : State :=
  if s.f .MBX_BIND_RECV c ≠ m.toNat then (s.setF .MBX_STAT_DENIED c 1).answer m 0
  else if s.f .MBX_STAT_FULL c = 0 then s.answer m 0
  else
    let t := ((s.setF .MBX_STAT_FULL c 0).setF .MBX_STAT_TAKEN c 1).answer m (s.f .MBX_DATA_NOTICE c)
    if m = 0x20 then { t with sec := { t.sec with doorbell := t.sec.doorbell.filter (· != c) } } else t

/-- MBX_TAKE (R332): a master that reaches no register takes nothing, the BMC among them (R331, R352). -/
def execMbxTake (m : Master) (ch : Fin 64) (s : State) : Out := .next (if reachesRegs m.toNat then s.mbxTake m ch.val else s)

/-- What a read of MBX_LOCK[c] that is no grant shows master m (R333). -/
def State.lockView (s : State) (m c : Nat) : Nat :=
  let held := s.f .MBX_STAT_LOCKED c = 1 ∧ s.f .MBX_STAT_OWNER c ≠ m
  (if held then s.f .MBX_STAT_OWNER c + 2 ^ 8 else 0) + 2 ^ 9 * s.f .MBX_STAT_FULL c

/-- A read of MBX_LOCK[c] by master m (R333). -/
def State.mbxLock (s : State) (m : Master) (c : Nat) : State :=
  if s.mbxSender m.toNat c ∧ s.f .MBX_STAT_FULL c = 0 ∧ (s.f .MBX_STAT_LOCKED c = 0 ∨ s.f .MBX_STAT_OWNER c = m.toNat) then
    ((s.setF .MBX_STAT_LOCKED c 1).setF .MBX_STAT_OWNER c m.toNat).answer m 0
  else s.answer m (s.lockView m.toNat c)

/-- MBX_LOCK_ACQUIRE (R333). -/
def execMbxLockAcquire (m : Master) (ch : Fin 64) (s : State) : Out := .next (if reachesRegs m.toNat then s.mbxLock m ch.val else s)

/-- A write of MBX_LOCK[c].RELEASE by master m: the owner's releases the lock (R333). -/
def State.mbxRelease (s : State) (m c : Nat) : State :=
  if s.f .MBX_STAT_LOCKED c = 1 ∧ s.f .MBX_STAT_OWNER c = m then (s.setF .MBX_STAT_LOCKED c 0).setF .MBX_STAT_OWNER c 0 else s

/-- MBX_LOCK_RELEASE (R333, R341). -/
def execMbxLockRelease (m : Master) (ch : Fin 64) (s : State) : Out :=
  .next (if reachesRegs m.toNat = false then s
    else if m.toNat = 0 ∧ s.mbxSender 0 ch.val = false then s.barDeny (mbxOff ch.val + 0x18)
    else s.mbxRelease m.toNat ch.val)

/-! ### The command queue -/

/-- Entries of the command ring. -/
def State.cqSize (s : State) : Nat := 2 ^ s.f .HST_CQ_CFG_LOG2

/-- A doorbell (R344): every run of host writes closes (R308); while READY or CQ_EN is clear it is discarded. -/
def State.doorbell (s : State) (tail : Nat) : State :=
  let t := s.closeRun
  if t.f .HST_STATUS_READY = 0 ∨ t.f .HST_CTRL_CQ_EN = 0 then (t.setF .HST_STATUS_DB_LOST 0 1).bump .HST_CNT_DBLOST_COUNT
  else t.setF .HST_CQ_TAIL_TAIL 0 tail

/-- DOORBELL (R344). -/
def execDoorbell (tail : BitVec 16) (s : State) : Out := .next (s.doorbell tail.toNat)

/-- How a command is carried out (13, command table). -/
inductive CmdKind | immediate | deferred | multi
  deriving DecidableEq, Repr

/-- The command table: code, kind, and the byte ranges (first, length) of the inline arguments. -/
def cmdTable : List (Nat × CmdKind × List (Nat × Nat)) :=
  [(0x01, .immediate, []), (0x02, .immediate, []), (0x10, .multi, []), (0x11, .deferred, [(24, 8)]),
   (0x12, .deferred, [(24, 4), (32, 8)]), (0x13, .immediate, []), (0x14, .immediate, [(24, 2)]), (0x15, .immediate, [(24, 4)]),
   (0x20, .immediate, [(24, 4)]), (0x21, .deferred, [(24, 4)]), (0x30, .deferred, [(24, 24)]), (0x31, .immediate, [(24, 1), (26, 6)]),
   (0x40, .deferred, [(24, 1)]), (0x41, .immediate, [(24, 13)]), (0x42, .deferred, [(24, 2)]), (0x50, .multi, [(24, 8)]),
   (0x51, .immediate, []), (0x52, .immediate, [(24, 5)]), (0x60, .deferred, [])]

/-- The argument ranges of an entry: a step of LOAD_BUNDLE names its piece's offset, the last one the bell as well; step 0 of FW_UPDATE names ACT, a later one
its piece's offset (R372). -/
def cmdArgs (code step : Nat) (last : Bool) (r : List (Nat × Nat)) : List (Nat × Nat) :=
  if code = 0x10 then (if last then [(24, 16)] else if step = 0 then [] else [(24, 8)])
  else if code = 0x50 ∧ step = 0 then [(24, 1)]
  else r

/-- Whether an entry has a nonzero reserved byte (R343, R347; log entry 39: an argument byte that no command names is reserved). -/
def badBytes (e : List Byte) (code step : Nat) (last : Bool) (r : List (Nat × Nat)) : Bool :=
  let used := cmdArgs code step last r
  decide (4 ≤ (byteAt e 3).toNat) || leAt e 20 4 != 0 || (code == 0x14 && decide (2 ≤ (byteAt e 25).toNat)) || (code == 0x52 && decide (2 ≤ (byteAt e 28).toNat))
    || (List.range 40).any (fun i => byteAt e (24 + i) != 0 && !used.any (fun p => decide (p.1 ≤ 24 + i ∧ 24 + i < p.1 + p.2)))

/-- In FEED a live command waits until the cursor has come to its COMMAND entry (R314). -/
def State.fedCommand (s : State) : Bool :=
  s.f .LDG_CTRL_MODE != ldgFeed || (byteAt (s.rplBytes s.rplCursor) 18).toNat % 128 == 0x0B

/-- Whether the master takes a further entry (R344-R346): commands it has not completed have started, completions have room, the host interface runs
(R45), the host's earlier writes have reached HBM (R342), no hand-over waits (R328), and a replay that feeds has come to the command (R314). -/
def State.canTake (s : State) : Bool :=
  s.f .HST_STATUS_READY == 1 && s.f .HST_CTRL_CQ_EN == 1 && s.f .HST_CQ_HEAD_HEAD != s.f .HST_CQ_TAIL_TAIL % s.cqSize
    && !s.hst.cplFull && s.hst.held == [] && s.hst.taken.all (·.started)
    && !s.rgnStopped 16 && !s.hbms.any (fun p => p.2.queue.any (fun q => q.owner == .host))
    && s.ctl.handover == none && s.fedCommand

/-- Complete an entry that is not carried out. -/
def State.reject (s : State) (t : Taken) (status : Nat) (detail : Nat := 0) : State := s.cplDeliver (t.completion status detail)

/-- Take up an entry that follows R347's order: its table row, BUSY, HOST_READ, and the steps of a multi-step command. -/
def State.takeEntry (s : State) (e : List Byte) (t : Taken) (paramOk : Bool) : State :=
  match cmdTable.find? (fun r => r.1 == t.code) with
  | none => s.reject t cBadEntry
  | some (_, kind, args) =>
    if badBytes e t.code t.step t.last args then s.reject t cBadEntry
    else if kind != .immediate && s.outstanding t.code then s.reject t cBusy
    else if t.ptr ≠ 0 ∧ paramOk = false then s.reject t cHostRead
    else if kind = .multi ∧ t.last = false ∧ t.code = 0x10 then
      ({ s with hst := { s.hst with multi := some t } } : State).cplDeliver (t.completion cOk 0)
    else
      { s with hst := { s.hst with
        multi := if kind = .multi ∧ t.last = false then some t else none
        taken := s.hst.taken ++ [t] } }

/-- COMMAND_TAKE (R343-R347): the master reads the entry at HEAD. -/
def execCommandTake (entry : List Byte) (paramOk : Bool) (s : State) : Out :=
  .next (if s.canTake = false then s
    else
      let idx := s.f .HST_CQ_HEAD_HEAD
      let code := leAt entry 0 2
      let t : Taken :=
        { idx := idx, code := code, cmdId := leAt entry 4 4, step := (byteAt entry 2).toNat, last := (byteAt entry 3).getLsbD 0,
          irq := (byteAt entry 3).getLsbD 1, ptr := leAt entry 8 8, args := (List.range 40).map (fun i => byteAt entry (24 + i)),
          started := false, armed := false }
      let bs := (List.range 64).map (byteAt entry)
      let s1 := ((s.setF .HST_CQ_HEAD_HEAD 0 ((idx + 1) % s.cqSize)).bump .HST_CNT_CMD_COUNT).ldgInput
        { kind := 0x0B, src := 0, len := 64, digest := tlBytes bs, detail := code } bs
      match s1.hst.multi with
      | some o =>
        if code = o.code ∧ t.cmdId = o.cmdId ∧ t.step = o.step + 1 then s1.takeEntry entry t paramOk
        else (s1.reject t cSequence).abortOpen
      | none => if t.step ≠ 0 then s1.reject t cSequence else s1.takeEntry entry t paramOk)

/-- A write of HST_CPL_HEAD (R345): held completions are written while there is room. -/
def State.cplHead (s : State) (head : Nat) : State :=
  let t := (({ s with hst := { s.hst with cplFull := false } } : State).setF .HST_CPL_HEAD_HEAD 0 head).cplDrain s.hst.held.length
  t.setF .HST_STATUS_CPL_STALL 0 (b2n (t.hst.cplFull || t.hst.held != []))

/-- CPL_HEAD_WRITE (R345). -/
def execCplHeadWrite (head : BitVec 16) (s : State) : Out := .next (s.cplHead head.toNat)

/-- NOP_COMMAND (R346). -/
def execNopCommand (s : State) : Out := .next (s.ok 0x01)

/-- SET_WALL_TIME (R57; 13, command table): a step of wall time, or a discipline sample. -/
def execSetWallTime (secs : BitVec 64) (ns : BitVec 32) (sample : Bool) (s : State) : Out :=
  .next (if 1000000000 ≤ ns.toNat ∨ 2 ^ 48 ≤ secs.toNat then s.refuse 0x41 0x0A
    else if sample then ({ s with ctl := { s.ctl with sample := some (secs.toNat, ns.toNat) } } : State).ok 0x41
    else
      let t := (s.setF .BEL_WALL_SET_S_S 0 secs.toNat).setF .BEL_WALL_SET_NS_NS 0 ns.toNat
      (t.wallSet ns.toNat).ok 0x41)

/-! ### Resets of the host interface (R350) -/

/-- The first free abort record. -/
def State.freeAbort (s : State) : Option Nat := firstBelow 8 (fun a => s.f .HST_ABORT_VALID a == 0)

/-- Write an abort record; none when all eight are VALID. -/
def State.abortRecord (s : State) (t : Taken) : State :=
  let u := s.setF .HST_STATUS_ABORTS 0 1
  match s.freeAbort with
  | some a => ((((u.setF .HST_ABORT_CMD_ID a t.cmdId).setF .HST_ABORT_CODE a t.code).setF .HST_ABORT_STEPNO a t.step).setF .HST_ABORT_ARMED a (b2n t.armed)).setF
      .HST_ABORT_VALID a 1
  | none => u

/-- The host-bound channels at an F reset (R350). -/
def State.mbxHostReset (s : State) : State :=
  (upto 64 (fun c s =>
    if s.f .MBX_BIND_RECV c = 0 then s.mbxRecvReset c
    else if s.mbxSender 0 c then
      let t := if s.f .MBX_STAT_FULL c = 1 then (s.setF .MBX_DATA_NOTICE c 0).setF .MBX_STAT_FULL c 0 else s
      t.setF .MBX_STAT_ABORTED c 1
    else s) s).mbxReleaseAll 0

/-- The channel that carries notices from master m to master r, if one is bound so. -/
def State.mbxBack (s : State) (m r : Nat) : Option Nat :=
  firstBelow 64 (fun c => s.f .MBX_BIND_EN c == 1 && s.f .MBX_BIND_RECV c == r && s.mbxSender m c)

/-- Step 4 of R350 for one aborted command: firmware takes each notice whose TAG names it from the channels of the control cores, and answers its sender
with an ABORTED notice, of which TAG is the command's and the rest is free (log entry 46). -/
def State.mbxAbort (s : State) (cmdId : Nat) : State :=
  upto 64 (fun c s =>
    let r := s.f .MBX_BIND_RECV c
    if 0x10 ≤ r ∧ r ≤ 0x17 ∧ s.f .MBX_STAT_FULL c = 1 ∧ s.f .MBX_DATA_NOTICE c / 2 ^ 48 = cmdId % 2 ^ 16 ∧ cmdId % 2 ^ 16 ≠ 0 then
      let t := (s.setF .MBX_STAT_FULL c 0).setF .MBX_STAT_TAKEN c 1
      match t.mbxBack r (s.f .MBX_BIND_SEND c) with
      | some d => t.fresh.2.mbxWrite r d (cmdId % 2 ^ 16 * 2 ^ 48 + t.fresh.1 % 2 ^ 48)
      | none => t
    else s) s

/-- A reset of class F (R350). -/
def State.funcReset (s : State) : State :=
  let ready := s.f .HST_STATUS_READY
  let s1 := (s.resetIf (fun r fl _ => r.blk == .hst && fl.resetBy .F)).bump .RST_CNT_FUNC_COUNT
  let all := (s.hst.taken ++ (s.hst.multi.toList.filter (fun o => !s.hst.taken.any (fun t => t.idx == o.idx && t.code == o.code)))).insertionSort
    (fun a b => a.idx ≤ b.idx)
  let s2 := all.foldl (fun s t => s.abortEffects t)
    { s1 with hst := { s1.hst with taken := [], multi := none, held := [], cplFull := false, phase := true, busMaster := false, bar2 := 40 } }
  let s3 := all.foldl (fun s t => s.abortRecord t) (all.foldl (fun s t => s.mbxAbort t.cmdId) s2.mbxHostReset)
  s3.setF .HST_STATUS_READY 0 ready

/-- FUNCTION_LEVEL_RESET (R350): a function-level reset, a hot reset or the loss of the PCIe link. -/
def execFunctionLevelReset (s : State) : Out := .next s.funcReset

/-- Dword d of the function's configuration space (R339, R340): device 0x0901, class 0x12_0000, one function of header type 0, BAR0 of 4 GiB, BAR2 of
2^size bytes, no other BAR, no expansion ROM and no interrupt pin, in the places that PCI Express gives them (log entry 83). -/
def configDword (size d : Nat) : Nat :=
  let x := Config.pcieDword d % 2 ^ 32
  if d = 0 then x % 2 ^ 16 + 0x0901 * 2 ^ 16
  else if d = 2 then x % 2 ^ 8 + 0x120000 * 2 ^ 8
  else if d = 3 then x - field x 16 8 * 2 ^ 16
  else if d = 4 then 0x4
  else if d = 6 then 0xC + x / 2 ^ min size 32 * 2 ^ min size 32
  else if d = 7 then x / 2 ^ (size - 32) * 2 ^ (size - 32)
  else if d = 8 ∨ d = 9 ∨ d = 12 then 0
  else if d = 15 then x - field x 8 8 * 2 ^ 8
  else x

/-- CONFIG_REQUEST (R386): a read of configuration space, retried until CTL0 has started, then answered. -/
def execConfigRequest (addr : BitVec 12) (s : State) : Out :=
  .next (if s.fb .CTL_STATUS_RUNNING 0 0 then
      { s.answer 0x00 (configDword s.hst.bar2 (addr.toNat / 4)) with hst := { s.hst with cfgStatus := 0 } }
    else { s with hst := { s.hst with cfgStatus := 2 } })

/-! ### The sideband (R352, R353) -/

/-- One bit for each of the 32 links from n with p. -/
def linkBits (n : Nat) (p : Nat → Bool) : Nat := sumTo 32 (fun i => b2n (p (n + i)) * 2 ^ i)

/-- Whether a link runs below x4. -/
def State.narrow (s : State) (n : Nat) : Bool := s.up n && s.f .LNK_STATUS_WIDTH_ACT n != 3

/-- The word of each index marked F (R353). -/
def State.telemWord (s : State) (i : Nat) : Option Nat :=
  match i with
  | 0x04 => some (s.f .HST_STATUS_READY + 2 * b2n s.jobRuns + 4 * s.f .CHIP_HALT_STOPPED
      + 8 * b2n ((List.range 25).any (fun r => s.f .CLK_RGN_STATUS_HALVED r == 1)) + 16 * s.f .CLK_REFLOSS_LOST
      + 32 * s.f .WGT_STATUS_ACTIVE_BAD + 64 * s.f .SEC_STATUS_ZEROISED)
  | 0x05 => some (s.f .PWR_PKG_W)
  | 0x06 => some (s.f .PWR_CLASS_ACT)
  | 0x07 => some (s.f .PWR_TEMP_COMPUTE)
  | 0x14 => some (s.f .PWR_TEMP_PORT0)
  | 0x15 => some (s.f .PWR_TEMP_PORT1)
  | 0x18 => some (linkBits 0 (fun n => s.up n))
  | 0x19 => some (linkBits 32 (fun n => s.up n))
  | 0x1A => some (linkBits 0 (fun n => s.narrow n))
  | 0x1B => some (linkBits 32 (fun n => s.narrow n))
  | 0x20 => some (sumTo 12 (fun k => s.f .HBM_ECC_CE_COUNT k) % 2 ^ 32)
  | 0x21 => some (sumTo 12 (fun k => s.f .HBM_ECC_UE_COUNT k) % 2 ^ 32)
  | 0x22 => some (s.f .LIF_POH_S / 3600)
  | 0x23 => some (s.f .BEL_WALL_S_S % 2 ^ 32)
  | _ => none

/-- TELEMETRY_REFRESH (R353). -/
def execTelemetryRefresh (s : State) : Out :=
  let m := upto 0x24 (fun i m => match s.telemWord i with
    | some v => Map.set 0 m i v
    | none => m) s.ctl.telem
  .next { s with ctl := { s.ctl with telem := m } }

/-- The word of each index marked H (R353). -/
def State.telemLive (s : State) (i : Nat) : Option Nat :=
  if i = 0 then some (s.regVal .CHIP_ID % 2 ^ 32)
  else if i = 1 then some (s.regVal .CHIP_GRADE)
  else if i = 2 then some (s.regVal .CHIP_ADDR)
  else if i = 3 then some (s.f .CTL_FW_VER_VER)
  else if 0x08 ≤ i ∧ i ≤ 0x13 then some (s.f .HBM_TEMP_DEG (i - 8))
  else none

/-- The telemetry word of an index; an unlisted one reads zero (R352, R353). -/
def State.telem (s : State) (i : Nat) : Nat := (s.telemLive i).getD (Map.get 0 s.ctl.telem i)

/-- The packet error code over these bytes: the CRC-8 of x^8 + x^2 + x + 1 (SMBus; log entry 83). -/
def pec (bs : List Byte) : Nat :=
  bs.foldl (fun c b => upto 8 (fun _ x => if 128 ≤ x then Nat.xor (2 * x % 256) 7 else 2 * x) (Nat.xor c b.toNat)) 0

/-- What the wires of a sideband read return (R352): the word's 4 bytes, and over SMBus the packet error code of the block read of target
0x60 + POSITION. -/
def State.sidebandBytes (s : State) (idx : Nat) : List Byte :=
  let w := leBytes 4 (s.telem idx)
  let a := 2 * (0x60 + s.f .CHIP_ADDR_POSITION)
  if s.fuse.sbI3c then w
  else w ++ leBytes 1 (pec (leBytes 1 a ++ leBytes 1 idx ++ leBytes 1 (a + 1) ++ leBytes 1 4 ++ w))

/-- SIDEBAND_READ (R352): the BMC, master 0x01, reads a telemetry word: by a block read with the index as its command code, or over I3C by a private write of
the index and a private read. During a power-on reset nothing is acknowledged (R406). -/
def execSidebandRead (idx : BitVec 8) (s : State) : Out :=
  if s.rst.boot = 0 then .next { s with ctl := { s.ctl with sbOut := [] } } else
  let t := s.answer 0x01 (s.telem idx.toNat)
  .next { t with ctl := { t.ctl with sbOut := s.sidebandBytes idx.toNat, sbIdx := if s.fuse.sbI3c then idx.toNat else s.ctl.sbIdx } }

end Sys2Proof.Machine
end

