-- ==== Sys2Proof/Machine/Security.lean ====
section
/-!
DEFINITION. The security module (R354-R367), the lifetime store controller and its journal (R368-R371), and firmware update (R372,
R373).
-/
namespace Sys2Proof.Machine

/-! ### The NOR and its operations (R368, R369) -/

/-- n bytes of the NOR. -/
def State.norRd (s : State) (a n : Nat) : List Byte := (s.lif.nor.rdBytes a n).map (fun b => ~~~b)

/-- The base of a slot (14, NOR table). -/
abbrev slotBase (k : Nat) : Nat := 0x1000000 * k

/-- The base of the journal. -/
abbrev jnlBase : Nat := 0x2000000

/-- Bytes of a NOR sector. -/
abbrev sectorBytes : Nat := 0x10000

/-- The twofold energy in hand, in units that make R369's comparison exact: CAP x (V^2 - VMIN^2) in 1/200000 mJ. -/
def State.holdEnergy (s : State) : Nat :=
  s.f .LIF_HOLDUP_CFG_CAP * (s.f .LIF_HOLDUP_V ^ 2 - s.f .LIF_HOLDUP_CFG_VMIN ^ 2)

/-- Whether firmware may issue an operation (R369); with CAP or VMIN at 0, or no NOR device, it issues none. -/
def State.mayIssue (s : State) (o : NorOp) : Bool :=
  s.f .LIF_STATUS_NOR_ABSENT == 0 && decide (s.f .LIF_HOLDUP_CFG_VMIN ≤ s.f .LIF_HOLDUP_V) && s.f .LIF_HOLDUP_CFG_CAP != 0 && s.f .LIF_HOLDUP_CFG_VMIN != 0 && s.f .LIF_HOLDUP_OK == 1
    && decide (2 * (if o.data.isSome then s.f .LIF_HOLDUP_CFG_EPROG else s.f .LIF_HOLDUP_CFG_EERASE) * 200000 ≤ s.holdEnergy)

/-- An operation of the update or a header erase is queued or running. -/
def State.updBusy (s : State) : Bool := (s.lif.queue ++ s.lif.running.toList).any (fun o => o.user != .journal)

/-- Issue an operation of the journal, or keep it for the next interval (R369). -/
def State.jnlIssue (s : State) (o : NorOp) : State :=
  if s.mayIssue o then { s with lif := { s.lif with queue := s.lif.queue ++ [o] } }
  else ({ s with lif := { s.lif with waiting := s.lif.waiting ++ [o] } } : State).bump .LIF_CNT_REFUSED_COUNT

/-- Issue the next operation of an update or header erase, one at a time, or count that it was not issued (R369). -/
def State.updIssue (s : State) : State :=
  if s.updBusy then s
  else
    match s.lif.waiting.find? (fun o => o.user != .journal) with
    | none => s
    | some o =>
      if s.mayIssue o then { s with lif := { s.lif with waiting := s.lif.waiting.erase o, queue := s.lif.queue ++ [o], retryGap := false } }
      else ({ s with lif := { s.lif with retryGap := true } } : State).bump .LIF_CNT_REFUSED_COUNT

/-- NOR_OP_START (R368): the oldest operation starts, or is refused while HOLDUP_OK is deasserted and waits for its next chance. -/
def execNorOpStart (s : State) : Out :=
  .next (match s.lif.running, s.lif.queue with
    | none, o :: r =>
      if s.f .LIF_HOLDUP_OK = 0 then
        let w := if o.user = NorUser.journal then s.lif.waiting ++ [o] else o :: s.lif.waiting
        let t := { s with lif := { s.lif with queue := r, waiting := w, retryGap := s.lif.retryGap || o.user != NorUser.journal } }
        (t.setF .LIF_STATUS_REFUSED 0 1).bump .LIF_CNT_REFUSED_COUNT
      else ({ s with lif := { s.lif with queue := r, running := some o } } : State).setF .LIF_STATUS_BUSY 0 1
    | _, _ => s)

/-- HOLDUP_RETRY (R369): the next 100 ms of an update. -/
def execHoldupRetry (s : State) : Out := .next s.updIssue

/-- The NOR after an operation: the bytes programmed, or the sector erased. -/
def NorOp.apply (o : NorOp) (nor : Mem) : Mem :=
  match o.data with
  | some bs => nor.wrBytes o.addr (bs.map (fun b => ~~~b))
  | none => nor.zero (o.addr / sectorBytes * sectorBytes) sectorBytes

/-- Erase a slot's header (R364, R372, R373). -/
def State.eraseHeader (s : State) (slot : Nat) : State :=
  let o : NorOp := ⟨.header, 0x10 + s.f .CTL_MASTER_CORE, slotBase slot, none⟩
  (({ s with lif := { s.lif with waiting := o :: s.lif.waiting.filter (fun o => o.user != .update) } } : State).setF
    (if slot = 0 then .SEC_VER_A_VER else .SEC_VER_B_VER) 0 0).updIssue

/-! ### Images (R357, R358) -/

/-- The version of an image header. -/
abbrev hdrVersion (h : List Byte) : Nat := leAt h 8 4

/-- The security version of an image header. -/
abbrev hdrSvn (h : List Byte) : Nat := leAt h 12 4

/-- The body length of an image header. -/
abbrev hdrLen (h : List Byte) : Nat := leAt h 16 4

/-- Whether an image meets every check of R358. -/
def State.imageOk (s : State) (h body : List Byte) : Bool :=
  let idx := (byteAt h 72).toNat
  let pub := (h.drop 128).take 97
  leAt h 0 4 == 0x4E495A58 && leAt h 4 4 == 1 && decide (idx < 4) && Config.sha384 pub == s.sec.otp.keyHash.getD idx 0 && !decide (idx ∈ s.sec.otp.revoked)
    && Config.sigOk pub (h.take 128) ((h.drop 232).take 96) && decide (s.f .SEC_SVN_MIN ≤ hdrSvn h) && Config.sha384 body == leAt h 24 48

/-- The header in a slot. -/
def State.slotHeader (s : State) (k : Nat) : List Byte := s.norRd (slotBase k) 512

/-- The body in a slot. -/
def State.slotBody (s : State) (k : Nat) : List Byte := s.norRd (slotBase k + 512) (hdrLen (s.slotHeader k))

/-- Whether the image in a slot is valid; none is where no NOR device answers. -/
def State.slotOk (s : State) (k : Nat) : Bool := s.f .LIF_STATUS_NOR_ABSENT == 0 && s.imageOk (s.slotHeader k) (s.slotBody k)

/-- Whether slot j holds a header, of whatever validity, with a higher version than slot k's (R358; log entry 84: bytes without the magic and format are no
header). -/
def State.higherSlot (s : State) (j k : Nat) : Bool :=
  let h := s.slotHeader j
  leAt h 0 4 == 0x4E495A58 && leAt h 4 4 == 1 && decide (hdrVersion (s.slotHeader k) < hdrVersion h)

/-- The slot the boot ROM boots (R358). -/
def State.bootSlot (s : State) : Option Nat :=
  let newer := decide (hdrVersion (s.slotHeader 0) < hdrVersion (s.slotHeader 1))
  match s.slotOk 0, s.slotOk 1 with
  | true, true => some (if newer then 1 else 0)
  | true, false => some 0
  | false, true => some 1
  | false, false => none

/-! ### The module (R355, R360-R364) -/

/-- SEC_STATUS.APPROVED (R355). -/
def State.approve (s : State) : State :=
  s.setF .SEC_STATUS_APPROVED 0 (b2n (s.f .SEC_STATUS_DEBUG == 2 && s.f .SEC_STATUS_SELFTEST_FAIL == 0 && s.f .SEC_BOOT_APPROVED_IMG == 1
    && s.f .SEC_STATUS_ZEROISED == 0))

/-- Draw a new unlock nonce (R362): a free value. -/
def State.drawNonce (s : State) : State := s.fresh.2.setF .SEC_DBG_NONCE_NONCE 0 s.fresh.1

/-- The module derives the identity key at boot (R360), and draws the DRBG state and the nonce. -/
def State.bootIdentity (s : State) : State :=
  let key := if s.f .SEC_STATUS_ZEROISED = 1 then 0 else Config.kdf s.sec.otp.secret (List.replicate 8 0)
  let h := if s.f .SEC_STATUS_ZEROISED = 1 then 0 else Config.sha384 (Config.pubKey key)
  let t := { s.fresh.2 with sec := { s.sec with idKey := key, drbg := s.fresh.1 } }
  ((upto 6 (fun i u => u.setF .SEC_IDHASH_HASH i (h / 2 ^ (64 * i))) t).setF .SEC_SERIAL_SERIAL 0 s.fuse.serial).drawNonce

/-- SECURE_BOOT (R358-R360): start-up step 3; no valid slot stops in BOOT, and with the lid open at
power-on nothing boots (R364). -/
def execSecureBoot (s : State) : Out :=
  .next (if s.rst.boot ≠ 1 ∨ s.rst.held ∨ s.f .SEC_STATUS_SELFTEST_FAIL = 1 ∨ (s.afterP ∧ s.sec.lidClosed = false) then s
    else
      let ver := fun k => if s.slotOk k then hdrVersion (s.slotHeader k) else 0
      let s1 := (((((s.setF .PWR_STATUS_PHASE 0 1).setF .SEC_BOOT_A_VALID 0 (b2n (s.slotOk 0))).setF .SEC_BOOT_B_VALID 0 (b2n (s.slotOk 1))).setF
        .SEC_VER_A_VER 0 (ver 0)).setF .SEC_VER_B_VER 0 (ver 1))
      match s.bootSlot with
      | none => s1
      | some k =>
        let h := s.slotHeader k
        let s2 := s1.setFs [(.SEC_BOOT_SLOT, k), (.SEC_BOOT_FALLBACK, b2n (s.higherSlot (1 - k) k)), (.SEC_BOOT_KEY, (byteAt h 72).toNat),
          (.SEC_BOOT_APPROVED_IMG, leAt h 20 4), (.SEC_SVN_RUN, hdrSvn h), (.SEC_STATUS_STATE, 1), (.CTL_FW_VER_VER, hdrVersion h)]
        let s3 := (s2.setFb .CTL_STATUS_RUNNING 0 0 true).bootIdentity
        let s4 := { s3 with sec := { s3.sec with body := leAt h 24 48 }, rst := { s3.rst with boot := 2 } }
        s4.approve)

/-- A link loses its key to zeroisation (R364): an armed rekey fails, and an encrypted link that is UP flushes and resets. -/
def State.zeroLink (s : State) (n : Nat) : State :=
  let armed := s.f .LNK_ENC_REKEY_ARM n = 1
  let t := if armed then ((s.setF .LNK_ENC_REKEY_STATUS n 3).setF .LNK_ENC_REKEY_ARM n 0).modLink n (fun l => { l with rekey := none }) else s
  let u := t.dropKeys n
  if s.up n ∧ s.encOn n then u.keyLoss n else u

/-- An update under way stops at its current NOR operation: the slot header is erased and the command completes ABORTED (R364). -/
def State.zeroUpdate (s : State) : State :=
  match s.fwu with
  | some u =>
    if u.stage = 1 then
      ((({ s with fwu := none, lif := { s.lif with queue := s.lif.queue.filter (fun o => o.user != .update) } } : State).eraseHeader u.slot)).complete 0x50 cAborted
    else s
  | none => s

/-- Zeroisation with a cause bit of SEC_ZCAUSE (R363, R364). -/
def State.zeroise (s : State) (cause : Fld) (clear : Bool) : State :=
  let s1 := { s with sec := { s.sec with idKey := 0, drbg := 0, ram := [] } }
  let s2 := ((s1.setF .SEC_STATUS_ZEROISED 0 1).setF cause 0 1).approve
  let s3 := (upto 64 (fun n s => s.zeroLink n) s2).zeroUpdate
  let s4 := (s3.stopStep 0x1).lifEvent 0x04 0
  if clear then
    let t := { s4 with hbm := [], cores := Map.modVals Core.reset (fun _ c => c.clearStore) s4.cores }
    upto 12 (fun k s => s.setStack k { s.stack k with bad := [] }) t
  else s4

/-- ZEROISE (R363). -/
def execZeroise (word : BitVec 32) (clear : Bool) (s : State) : Out :=
  .next (if word.toNat = 0x5A45524F then (s.zeroise .SEC_ZCAUSE_COMMAND clear).ok 0x52 else s.refuse 0x52 0x0A)

/-- The cause field of a tamper (R364). -/
def tamperFld (c : Nat) : Fld :=
  if c = 0 then .SEC_ZCAUSE_LID else if c = 1 then .SEC_ZCAUSE_VOLT else if c = 2 then .SEC_ZCAUSE_TEMP else .SEC_ZCAUSE_CLOCK

/-- TAMPER (R364). -/
def execTamper (cause : Fin 4) (s : State) : Out :=
  let t := if cause = 0 then { s with sec := { s.sec with lidClosed := false } } else s
  .next ((((t.lifEvent 0x05 cause.val).setF .SEC_STATUS_TAMPER 0 1).zeroise (tamperFld cause.val) false))

/-- ENTROPY_FAILURE (R356): a continuous health test fails in service. -/
def execEntropyFailure (s : State) : Out := .next (s.zeroise .SEC_ZCAUSE_ENTROPY false)

/-- The report of ATTEST before its signature: bytes 0 to 455 (R361). -/
def State.report (s : State) (nonce : List Byte) : List Byte :=
  leBytes 4 1 ++ leBytes 4 0 ++ (List.range 48).map (byteAt nonce) ++ leBytes 2 s.chipAddr ++ leBytes 2 0 ++ leBytes 4 (s.regVal .CHIP_ID)
    ++ leBytes 48 (Config.sha384 ((List.range 0x20000).map Config.bootRom)) ++ leBytes 48 s.sec.body ++ leBytes 4 (s.f .CTL_FW_VER_VER)
    ++ leBytes 1 (s.f .SEC_SVN_RUN) ++ leBytes 1 (s.f .SEC_SVN_MIN) ++ leBytes 1 (s.f .SEC_STATUS_DEBUG)
    ++ leBytes 1 (s.f .SEC_STATUS_APPROVED + 2 * s.f .SEC_STATUS_TAMPER + 4 * s.f .SEC_BOOT_SLOT + 8 * s.f .SEC_BOOT_FALLBACK)
    ++ leBytes 4 (s.regVal .CHIP_GRADE) ++ leBytes 8 s.now ++ leBytes 6 s.wall.1 ++ leBytes 4 s.wall.2 ++ leBytes 8 (s.f .SEC_SERIAL_SERIAL)
    ++ leBytes 58 0 ++ padTo 97 (Config.pubKey s.sec.idKey) ++ leBytes 7 0 ++ padTo 96 s.sec.otp.cert

/-- ATTEST (R361). -/
def execAttest (buf : Word) (plen : BitVec 32) (nonce : List Byte) (s : State) : Out :=
  .next (if plen.toNat < 1024 then s.refuse 0x51 0x0A
    else if s.f .SEC_STATUS_ZEROISED = 1 then s.refuse 0x51 0x07
    else
      let r := s.report nonce
      ((s.wrFar true buf.toNat (padTo 1024 (r ++ padTo 96 (Config.sign s.sec.idKey r)))).bump .SEC_CNT_ATTEST_COUNT).ok 0x51)

/-- Whether an unlock token verifies (R362). -/
def State.tokenOk (s : State) (t : List Byte) : Bool :=
  let idx := (byteAt t 16).toNat
  leAt t 0 8 == s.f .SEC_SERIAL_SERIAL && leAt t 8 8 == s.f .SEC_DBG_NONCE_NONCE && ((t.drop 17).take 143).all (· == 0)
    && decide (idx < 4) && !decide (idx ∈ s.sec.otp.revoked)
    && Config.sigOk (leBytes 48 (s.sec.otp.keyHash.getD idx 0)) (t.take 160) ((t.drop 160).take 96)

/-- DEBUG_UNLOCK (R362): a token that verifies zeroises, enables VENDOR and is recorded; every token draws a new nonce. -/
def execDebugUnlock (token : List Byte) (s : State) : Out :=
  .next (if s.tokenOk token then
      ((((s.zeroise .SEC_ZCAUSE_DEBUG false).setF .SEC_STATUS_DEBUG 0 1).approve).lifEvent 0x0A 0).drawNonce
    else s.drawNonce)

/-! ### The journal (R370, R371) -/

/-- The address of a record. -/
def recAddr (i : Nat) : Nat := jnlBase + 4096 * i

/-- Whether a record's pages are erased. -/
def State.recErased (s : State) (i : Nat) : Bool := s.lif.nor.all (fun p => decide (p.1 < recAddr i ∨ recAddr i + 4096 ≤ p.1))

/-- A lifetime total: the counter and what was recovered at power-on (R370). -/
def State.lifeTotal (s : State) (off n v : Nat) : List Byte := leBytes n (s.lif.totals.rdLe off n + v)

/-- The 32 bytes of a calendar event (R370). -/
def LifEvent.bytes (e : LifEvent) : List Byte :=
  leBytes 6 e.wallS ++ leBytes 4 e.wallNs ++ leBytes 1 e.kind ++ leBytes 1 0 ++ leBytes 8 e.bell ++ leBytes 12 e.detail

/-- Records that are built and not written yet. -/
def State.recsOut (s : State) : Nat :=
  ((s.lif.waiting ++ s.lif.queue ++ s.lif.running.toList).filter (fun o => o.user == .journal && o.data.isSome)).length

/-- The bytes of the next TOTALS record (R370); the aging monitors of the regions are free values (log entry 2). -/
def State.recBytes (s : State) : List Byte :=
  let link := fun n => s.lifeTotal (64 + 16 * n) 4 (s.f .LNK_CNT_FAST_COUNT n) ++ s.lifeTotal (68 + 16 * n) 4 (s.f .LNK_CNT_FULL_COUNT n)
    ++ s.lifeTotal (72 + 16 * n) 4 (s.f .LNK_CNT_FLUSH_COUNT n) ++ s.lifeTotal (76 + 16 * n) 4 (s.f .LNK_CNT_LANELOSS_COUNT n)
  let stack := fun k => s.lifeTotal (1088 + 24 * k) 8 (s.f .HBM_ECC_CE_COUNT k) ++ s.lifeTotal (1096 + 24 * k) 8 (s.f .HBM_ECC_UE_COUNT k)
    ++ s.lifeTotal (1104 + 24 * k) 8 (s.f .HBM_HOT_US_US k)
  let body := leBytes 4 0x5244434C ++ leBytes 1 1 ++ leBytes 3 0 ++ leBytes 8 (s.f .LIF_SEQ_SEQ + 1 + s.recsOut) ++ leBytes 8 s.now ++ leBytes 6 s.wall.1
    ++ leBytes 4 s.wall.2 ++ leBytes 6 0 ++ leBytes 8 (s.f .LIF_POH_S) ++ leBytes 8 (s.f .LIF_ENERGY_J) ++ leBytes 4 (s.f .LIF_TCYC_COUNT)
    ++ leBytes 4 (s.f .CTL_FW_VER_VER) ++ (List.range 64).flatMap link ++ (List.range 12).flatMap stack
    ++ (List.range 24).flatMap (fun r => leBytes 4 (Config.freeNat (s.free + r)))
    ++ leBytes 2 s.lif.events.length ++ leBytes 2 s.lif.evLost ++ leBytes 4 0 ++ padTo 2048 (s.lif.events.flatMap LifEvent.bytes) ++ leBytes 552 0
  body ++ leBytes 16 (tlBytes body)

/-- Write one record, or skip it and note the gap (R370). -/
def State.journal (s : State) : State :=
  let i := s.lif.next
  if s.recErased i then
    let o : NorOp := ⟨.journal, 0x16, recAddr i, some s.recBytes⟩
    let t := { s with free := s.free + 24, lif := { s.lif with next := (i + 1) % 8192, events := [], evLost := 0 } }
    t.jnlIssue o
  else (s.setF .LIF_STATUS_JOURNAL_ERR 0 1).lifEvent 0x0C 0

/-- Issue the journal's waiting operations again (R369). -/
def State.jnlRetry (s : State) : State :=
  (s.lif.waiting.filter (fun o => o.user == .journal)).foldl (fun s o => s.jnlIssue o)
    { s with lif := { s.lif with waiting := s.lif.waiting.filter (fun o => o.user != .journal) } }

/-- The journal's interval (R369, R370): operations that wait are issued again, and, when none of them is a record, a record is
written. -/
def State.journalTick (s : State) : State := if s.recsOut = 0 then s.jnlRetry.journal else s.jnlRetry

/-- JOURNAL_RECORD (R370). -/
def execJournalRecord (s : State) : Out := .next (if s.f .LIF_CTRL_EN = 1 then s.journalTick else s)

/-- A record is written (R370, R371): the mirror, and the erase of the ring's next sector after a sector's first record. -/
def State.recWritten (s : State) (o : NorOp) (bs : List Byte) : State :=
  let i := (o.addr - jnlBase) / 4096
  let t := ((({ s with lif := { s.lif with record := bs } } : State).setF .LIF_SEQ_SEQ 0 (leAt bs 8 8)).bump .LIF_CNT_WRITES_COUNT).wrBytes
    (s.f .LIF_MIRROR_BASE * 4096) bs
  if i % 16 = 0 then t.jnlIssue ⟨.journal, 0x16, recAddr ((i + 16) % 8192), none⟩ else t

/-- The records of the journal that are valid: their TL128 verifies (R371). -/
def State.validRecords (s : State) : List Nat :=
  ((s.lif.nor.filter (fun p => decide (jnlBase ≤ p.1 ∧ p.1 < recAddr 8192))).map (fun p => (p.1 - jnlBase) / 4096)).dedup.filter (fun i =>
    let bs := s.norRd (recAddr i) 4096
    leAt bs 4080 16 == tlBytes (bs.take 4080))

/-- At power-on firmware takes the totals of the valid record with the highest sequence number (R371). -/
def State.recoverTotals (s : State) : State :=
  let seq := fun i => leAt (s.norRd (recAddr i) 4096) 8 8
  match s.validRecords.foldl (fun (b : Option Nat) i => match b with
      | none => some i
      | some j => if seq j < seq i then some i else b) none with
  | none => s
  | some i =>
    let bs := s.norRd (recAddr i) 4096
    let t := { s with lif := { s.lif with totals := Mem.wrBytes [] 0 bs, next := (i + 1) % 8192 } }
    t.setFs [(.LIF_SEQ_SEQ, leAt bs 8 8), (.LIF_POH_S, leAt bs 40 8), (.LIF_ENERGY_J, leAt bs 48 8), (.LIF_TCYC_COUNT, leAt bs 56 4)]

/-! ### Firmware update (R372, R373) -/

/-- The operations that write an image into a slot: every sector erased, then the image in pieces of 4 KiB (R372). -/
def State.slotOps (s : State) (slot : Nat) (img : List Byte) : List NorOp :=
  let m := 0x10 + s.f .CTL_MASTER_CORE
  (List.range (ceilDiv img.length sectorBytes)).map (fun i => ⟨.update, m, slotBase slot + sectorBytes * i, none⟩)
    ++ (List.range (ceilDiv img.length 4096)).map (fun i => ⟨.update, m, slotBase slot + 4096 * i, some ((img.drop (4096 * i)).take 4096)⟩)

/-- End an update REFUSED. -/
def State.fwRefuse (s : State) (reason : Nat) : State := (({ s with fwu := none, hst := { s.hst with multi := none } } : State).refuse 0x50 reason)

/-- The last step: the module checks the image, and the slot that did not boot is written (R372). -/
def State.fwWrite (s : State) (u : FwUpd) : State :=
  let body := u.body.rdBytes 0 (hdrLen u.header)
  if !s.imageOk u.header body then s.fwRefuse 0x0B
  else
    let slot := 1 - s.f .SEC_BOOT_SLOT
    let differs := bit (leAt u.header 20 4) 1 && s.fresh.1 % 2 == 1
    let t := { s.fresh.2 with fwu := some { u with stage := 1, slot := slot, held := u.act == 1 && differs, old := s.f .CTL_FW_VER_VER },
                              lif := { s.lif with waiting := s.lif.waiting ++ s.slotOps slot (u.header ++ body), retryGap := false } }
    (t.markStarted 0x50 false).updIssue

/-- The SVN advance (R359, R372). -/
def State.svnAdvance (s : State) : State :=
  let run := s.f .SEC_SVN_RUN
  if run ≤ s.f .SEC_SVN_MIN then s.ok 0x50
  else
    let t := { s with fuse := { s.fuse with svn := run } }
    ((t.setF .SEC_SVN_MIN 0 run).lifEvent 0x0B run).ok 0x50

/-- FW_UPDATE (R372): one step. -/
def execFwUpdate (step : BitVec 8) (last : Bool) (act : BitVec 8) (off : Word) (data : List Byte) (s : State) : Out :=
  .next (if step = 0 then
      (if act = 2 then (if last && data == [] then s.svnAdvance else s.fwRefuse 0x0A)
        else if 2 < act.toNat then s.fwRefuse 0x0A
        else
          let u : FwUpd := ⟨padTo 512 data, act.toNat, [], 0, 0, 0, false, 0⟩
          if last then s.fwWrite u else ({ s with fwu := some u } : State).ok 0x50)
    else
      match s.fwu with
      | none => s.fwRefuse 0x07
      | some u =>
        if u.stage ≠ 0 then s
        else if data.length % 4096 ≠ 0 ∨ 0x100000 < data.length ∨ (data = [] ∧ last = false) then s.fwRefuse 0x0A
        else
          let v := { u with body := u.body.wrBytes off.toNat data }
          if last then s.fwWrite v else ({ s with fwu := some v } : State).ok 0x50)

/-- The image is in its slot (R372, R373): a staged update completes; a live one makes CTL2 master and restarts the control cores. -/
def State.fwWritten (s : State) (u : FwUpd) : State :=
  let v := hdrVersion u.header
  let t := s.setF (if u.slot = 0 then .SEC_VER_A_VER else .SEC_VER_B_VER) 0 v
  if u.act = 1 ∧ u.held = false then ({ t with fwu := some { u with stage := 2 } } : State).handOver 2
  else ({ t with fwu := none } : State).complete 0x50 cOk (v % 2 ^ 31 + (if u.held then 2 ^ 31 else v / 2 ^ 31 % 2 * 2 ^ 31))

/-- What follows the end of an operation (R370, R372). -/
def State.norAfter (s : State) (o : NorOp) : State :=
  match o.user, o.data with
  | .journal, some bs => s.recWritten o bs
  | .journal, none => s
  | .header, _ => s.updIssue
  | .update, _ =>
    if s.lif.waiting.any (fun o => o.user == .update) then s.updIssue
    else
      match s.fwu with
      | some u => if u.stage = 1 then s.fwWritten u else s
      | none => s

/-- The operation in progress ends (R368). -/
def State.norDone (s : State) : State :=
  match s.lif.running with
  | none => s
  | some o => (({ s with lif := { s.lif with running := none, nor := o.apply s.lif.nor } } : State).setF .LIF_STATUS_BUSY 0 0).norAfter o

/-- HOLDUP_REFUSAL_TIMEOUT (R372): an operation of the update has stayed refused for 10 s. -/
def execHoldupRefusalTimeout (s : State) : Out :=
  .next (match s.fwu with
    | some u => if u.stage = 1 ∧ s.lif.retryGap then (s.eraseHeader u.slot).fwRefuse 0x0C else s
    | none => s)

/-- The control core that serves a deferred command (13, duty table). -/
def serverOf (code : Nat) : Nat :=
  if code = 0x42 then 2 else if code = 0x30 then 3 else if code = 0x11 ∨ code = 0x12 then 4 else if code = 0x21 then 5 else if code = 0x40 then 7 else 0

/-- Whether control core i may be restarted (R373); CTL0 once CTL2 has become master. -/
def State.mayRestart (s : State) (i : Nat) : Bool :=
  (i != 0 || s.ctl.handover == none) && (i != 4 || s.topo.agreements.all (fun a => a.armed)) && (i == 0 || s.hst.taken.all (fun t => serverOf t.code != i))

/-- FW_CORE_RESTART (R373): CTL0 first, under CTL2; then CTL1 to CTL7. -/
def execFwCoreRestart (s : State) : Out :=
  .next (match s.fwu with
    | some u =>
      if u.stage ≠ 2 ∨ s.mayRestart u.restarted = false then s
      else
        let i := u.restarted
        let t := s.restartCtl i
        if i = 0 then
          ({ t with fwu := some { u with restarted := 1 } } : State).setF .CTL_FW_VER_VER 0 (hdrVersion u.header) |>.setMaster 0
        else if i < 7 then { t with fwu := some { u with restarted := i + 1 } }
        else
          let h := u.header
          let v := { t with fwu := none, sec := { t.sec with body := leAt h 24 48 } }
          (((v.setFs [(.SEC_SVN_RUN, hdrSvn h), (.SEC_BOOT_APPROVED_IMG, leAt h 20 4)]).approve).lifEvent 0x03 (hdrVersion h)).complete 0x50 cOk (hdrVersion h)
    | none => s)

/-- FW_RESTART_TIMEOUT (R373): a core did not start; the cores updated restart from the old image. -/
def execFwRestartTimeout (s : State) : Out :=
  .next (match s.fwu with
    | some u =>
      if u.stage ≠ 2 then s
      else
        let t := upto (u.restarted + 1) (fun i s => s.restartCtl i) s
        ((t.setF .CTL_FW_VER_VER 0 u.old).eraseHeader u.slot).fwRefuse 0x0B
    | none => s)

end Sys2Proof.Machine
end

