-- ==== Sys2Proof/Machine/Power.lean ====
section
/-!
DEFINITION. Power classes and thermal protection (R374-R380), resets (R381-R384, R396), start-up (R385-R387, R56) and shutdown (R388).
-/
namespace Sys2Proof.Machine

/-! ### Power classes (R374-R377, R379) -/

/-- The common target of a class in MHz; the -17 part has lower ones (R374). -/
def State.classMhz (s : State) (c : Nat) : Nat :=
  if s.fuse.speed = 0 then (if c = 0 then 1740 else if c = 1 then 1820 else 1900)
  else (if c = 0 then 1560 else if c = 1 then 1630 else 1700)

/-- The envelope of a class in W (R374). -/
def classWatts (c : Nat) : Nat := 2200 + 400 * c

/-- The highest VDD_CORE of a class in mV (R374). -/
def classVdd (c : Nat) : Nat := if c = 0 then 700 else if c = 1 then 780 else 850

/-- The VDD_CORE of cluster k in class c, in mV: what its fuses give it at the target, never above the class's ceiling (R374; log entry 85). -/
def State.vddOf (s : State) (c k : Nat) : Nat := min (Config.fusedVdd (s.classMhz c) k) (classVdd c)

/-- The regulators give each cluster that is on its VDD_CORE of class c (R374, R376). -/
def State.setVdd (s : State) (c : Nat) : State :=
  upto 16 (fun k s => if s.f .PWR_CLU_OFF k = 1 then s else s.setF .PWR_CLU_VDD_MV k (s.vddOf c k)) s

/-- The first bell at least 16 ahead that R46 admits, within a round. -/
def State.admittedBell (s : State) : Option Nat :=
  (firstBelow s.roundLen (fun i => s.quietStop (s.now + 16 + i))).map (fun i => s.now + 16 + i)

/-- Arm a class change by CTL7 at bell b; for a higher target VDD_CORE rises before that bell (R376). -/
def State.armClass (s : State) (c b : Nat) (descent : Bool) : State :=
  let t := ((s.setF .CLK_FCHG_TARGET_MHZ 0 (s.classMhz c)).setF .CLK_FCHG_MASK_REGIONS 0 allRegions).setF .CLK_FCHG_BELL_BELL 0 b
  let u := t.fchgArm 0x17
  if u.f .CLK_FCHG_CTRL_STATUS = 8 then
    let v := if s.f .PWR_CLASS_ACT < c then u.setVdd c else u
    { v with pwr := { v.pwr with change := some c, descent := descent } }
  else u

/-- SET_POWER_CLASS (R376): the change is armed at the first quiet bell admitted, or the command is refused. -/
def execSetPowerClass (cls : BitVec 8) (s : State) : Out :=
  let c := cls.toNat
  .next (if 2 < c then s.refuse 0x40 0x0A
    else if s.load.loaded ∧ c < s.f .PWR_CLASS_LOW then s.refuse 0x40 0x03
    else
      match s.admittedBell with
      | none => s.refuse 0x40 0x07 0x2
      | some b =>
        let e := ((((s.setF .CLK_FCHG_TARGET_MHZ 0 (s.classMhz c)).setF .CLK_FCHG_MASK_REGIONS 0 allRegions).setF .CLK_FCHG_BELL_BELL 0 b)).fchgCheck
        let t := s.armClass c b false
        if e = 0 then t.markStarted 0x40 false else t.refuse 0x40 0x07 e)

/-- A class change has ended with its frequency change (R376): the class, the POWER entry, the lifetime event, the completion. A change that was
aborted leaves the class, and VDD_CORE returns to it (log entry 85). -/
def State.classEnd (s : State) : State :=
  match s.pwr.change, s.clk.fchg with
  | some c, none =>
    let t := { s with pwr := { s.pwr with change := none, descent := false } }
    if s.f .CLK_FCHG_CTRL_STATUS = 0xF then
      ((((t.setF .PWR_CLASS_ACT 0 c).bump .PWR_CNT_CLASS_COUNT).setVdd c).ldgInput { kind := 0x05, src := 0, detail := classWatts c }).lifEvent 0x09 c |>.ok 0x40
    else (t.setVdd (s.f .PWR_CLASS_ACT)).refuse 0x40 0x07 (s.f .CLK_FCHG_CTRL_STATUS)
  | _, _ => s

/-- CLASS_DESCENT (R379): firmware moves to the next lower class admitted, or stops the step at the lowest one. -/
def execClassDescent (s : State) : Out :=
  let low := if s.load.loaded then s.f .PWR_CLASS_LOW else 0
  .next (if (List.range 16).all (fun k => s.f .CLK_RGN_STATUS_HALVED k == 0) ∨ s.clk.fchg.isSome then s
    else if s.f .PWR_CLASS_ACT ≤ low then s.stopStep 0x1
    else
      match s.admittedBell with
      | some b => s.armClass (s.f .PWR_CLASS_ACT - 1) b true
      | none => s)

/-- The thermal cycles of R370: a fall below 45 °C after a rise above 85 °C. -/
def State.thermalCycle (s : State) (deg : Nat) : State :=
  if 85 < deg then { s with lif := { s.lif with hot := true } }
  else if deg < 45 ∧ s.lif.hot then ({ s with lif := { s.lif with hot := false } } : State).bump .LIF_TCYC_COUNT
  else s

/-- POWER_MEASURE (R377, R368, R370, R398): the measurements of 1 ms, a store above 28.8 V read as 28.8 V, and each second the envelope, the powered time and the energy. -/
def execPowerMeasure (watts : BitVec 16) (hold : BitVec 12) (holdOk : Bool) (temps : BitVec 32) (s : State) : Out :=
  let s1 := s.setFs [(.PWR_PKG_W, watts.toNat), (.LIF_HOLDUP_V, min hold.toNat 2880), (.LIF_HOLDUP_OK, b2n holdOk), (.PWR_TEMP_COMPUTE, field temps.toNat 0 8),
    (.PWR_TEMP_PORT0, field temps.toNat 8 8), (.PWR_TEMP_PORT1, field temps.toNat 16 8), (.PWR_TEMP_PHY, field temps.toNat 24 8)]
  let s2 := s1.thermalCycle (field temps.toNat 0 8)
  let sum := s.pwr.sum + watts.toNat
  if s.pwr.samples + 1 < 1000 then .next { s2 with pwr := { s2.pwr with samples := s.pwr.samples + 1, sum := sum } }
  else
    let s3 := { s2 with pwr := { s2.pwr with samples := 0, sum := 0 } }
    let s4 := if 1000 * classWatts (s.f .PWR_CLASS_ACT) < sum then (s3.setF .PWR_STATUS_OVER 0 1).bump .PWR_CNT_OVER_COUNT else s3
    .next ((s4.bump .LIF_POH_S).bump .LIF_ENERGY_J 0 (sum / 1000))

/-! ### Thermal protection (R378, R380) -/

/-- Fields of a power cluster that a KO returns to reset: the cluster region, its cores (15, master table). -/
def clusterScope (k : Nat) (r : Reg) (fl : Fld) (i : Nat) (c : Rst) : Bool :=
  fl.resetBy c && ((match r.coreOf i with
    | some n => n / 8 == k
    | none => false) || ((r.code == Reg.CLK_RGN_STATUS.code || r.code == Reg.CLK_RGN_DROOP.code) && i == k) || r.code == Reg.CLK_XALIGN.code)

/-- A core after a reset that keeps its store contents: nothing in flight, tags clear; the porter's generations go on (R251). -/
def Core.restart (c : Core) : Core :=
  { Core.reset with store := c.store, eccBad := c.eccBad, eccOne := c.eccOne, gens := c.gens, cyc := c.cyc, elapsed := c.elapsed }

/-- Counts in flight that p does not select. -/
def State.dropFlights (s : State) (p : Nat → Bool) : State :=
  { s with evFlight := s.evFlight.filter (fun e => !p e.src && !p e.dst) }

/-- The PUTs of a transmit flow once the cores that p selects have been reset: a flow's first 15 are its own and stay, without a porter entry to
complete; the further ones waited in the porter and are abandoned with it (R245, R265). -/
def TFlow.abandon (x : TFlow) (p : Nat → Bool) : TFlow :=
  let gone := fun (q : Nat × Nat) => if p q.1 then (q.1, portCap) else q
  { x with puts := (x.puts.take 15).map gone ++ (x.puts.drop 15).filter (fun q => !p q.1), reading := x.reading.map gone }

/-- Abandon the PUTs of the cores that p selects, in every flow. -/
def State.abandonPuts (s : State) (p : Nat → Bool) : State :=
  { s with links := Map.modVals LinkUnit.reset (fun _ l => { l with tflows := Map.modVals TFlow.reset (fun _ x => x.abandon p) l.tflows }) s.links }

/-- What a core whose FENCE is set shows after a reset (R102). -/
def State.showFence (s : State) (n : Nat) : State := if s.f .CORE_CTRL_FENCE n = 1 then s.setF .CORE_STATUS_STATE n stFenced else s

/-- An unbound core enters CG (R70): with retention where CG_RET is set, else its state is lost (R384). -/
def State.enterCg (s : State) (n : Nat) : State :=
  s.modCore n (fun c => { (if s.f .PWR_CTRL_CG_RET = 1 then c else c.lost) with cg := true })

/-- The effect of a K of cluster k on state (R381, master table); its cores, bound no more, are in CG after it. -/
def State.clusterClear (s : State) (k : Nat) : State :=
  let t := ((s.resetIf (fun r fl i => clusterScope k r fl i .K)).dropFlights (fun n => n / 8 == k)).abandonPuts (fun n => n / 8 == k)
  upto 8 (fun j s => ((s.modCore (8 * k + j) Core.restart).enterCg (8 * k + j)).showFence (8 * k + j)) t

/-- Cluster k goes to KO (R384): the K's effect, and its core stores are lost. -/
def State.clusterOff (s : State) (k : Nat) : State :=
  let t := upto 8 (fun j s => s.modCore (8 * k + j) Core.clearStore) (s.clusterClear k)
  ((t.setF .PWR_CLU_OFF k 1).setF .PWR_CLU_VDD_MV k 0).setF .CLK_RGN_STATUS_LOCKED k 0

/-- THERMAL_TRIP (R40, R48, R378): the reading of cluster k; at TRIP its region halves. -/
def execThermalTrip (k : Fin 16) (deg : BitVec 8) (s : State) : Out :=
  let s1 := s.setF .PWR_CLU_DEG k deg.toNat
  .next (if deg.toNat < s.pwr.trip ∨ s.f .CLK_RGN_STATUS_HALVED k = 1 then s1
    else
      let s2 := (((s1.setF .CLK_RGN_STATUS_HALVED k 1).bump .PWR_CNT_THERM_COUNT).ldgFault 0x17 0x3 k.val).lifEvent 0x08 k.val
      let s3 := if s.f .PWR_CTRL_THERM_IRQ_EN = 1 then s2.irq 7 (.thermal k.val) else s2
      let f := s3.clk.fchg.map (fun c => if bit c.mask k.val then { c with tripped := setBit c.tripped k.val true } else c)
      { s3 with clk := { s3.clk with fchg := f } })

/-- CRITICAL_TEMP (R380): the hottest sensor; at CRIT the step stops and every cluster goes off. -/
def execCriticalTemp (deg : BitVec 8) (s : State) : Out :=
  .next (if deg.toNat < s.pwr.crit then s
    else (upto 16 (fun k s => s.clusterOff k) (s.stopStep 0x8)).setF .PWR_STATUS_CRIT 0 1)

/-- PWR_THERM_TRIPLE_CHECK: each µs the triple is taken, or the last valid one is kept (15, PWR_ registers). -/
def execPwrThermTripleCheck (s : State) : Out :=
  let t := s.f .PWR_THERM_TRIP
  let r := s.f .PWR_THERM_RELEASE
  let c := s.f .PWR_THERM_CRIT
  .next (if r < t ∧ t < c then { s with pwr := { s.pwr with trip := t, release := r, crit := c } } else s.setF .PWR_STATUS_CFG_MISMATCH 0 1)

/-! ### Resets (R381-R383, R396) -/

/-- The fuse fields load again (R2, R360; master table). -/
def State.reloadFuses (s : State) : State :=
  s.setFs [(.CHIP_ID_PART, s.fuse.part), (.CHIP_ID_STEPPING, s.fuse.stepping), (.CHIP_GRADE_NCORE_EN, s.fuse.ncore), (.CHIP_GRADE_SPEED, s.fuse.speed),
    (.CHIP_FUSE_LO_EN, s.fuse.cores % 2 ^ 64), (.CHIP_FUSE_HI_EN, s.fuse.cores / 2 ^ 64), (.CLK_TARGET_MHZ, s.fuse.mhz), (.SEC_STATUS_DEBUG, s.fuse.debug),
    (.SEC_SVN_MIN, s.fuse.svn), (.SEC_SERIAL_SERIAL, s.fuse.serial)]

/-- The straps are sampled (R266). -/
def State.sampleStraps (s : State) : State := (s.setF .CHIP_ADDR_POSITION 0 s.fuse.position).setF .CHIP_ADDR_BOARD 0 s.fuse.board

/-- Every stack enters self-refresh, which keeps its contents (R385, R388). -/
def State.sleepStacks (s : State) : State := upto 12 (fun k s => s.setStack k { s.stack k with asleep := true }) s

/-- A warm reset (R381, R356, R385): the stacks enter self-refresh;
the security module tests itself again, with an outcome that no row brings (a free value, log entry 84), and its reset resets its channels (R336);
what the master table keeps stays, and the telemetry words keep their last values but for READY (R406); halves held and captured (R15) are dropped (DEDUCED, log entry 61). -/
def State.warm (s : State) (cause : Nat) (waited : Bool) : State :=
  let s0 := upto 64 (fun c s => if s.f .MBX_BIND_RECV c = 0x20 then s.mbxRecvReset c else s) s
  let s1 := s0.resetIf (fun _ fl _ => fl.resetBy .W)
  let machine := s.topo.machine
  let s2 : State := { s1 with
    halves := ⟨[], []⟩
    cores := Map.modVals Core.reset (fun _ c => { c.restart with gens := [] }) s.cores, evFlight := []
    hbms := s.sleepStacks.hbms.map (fun p => (p.1, { Stack.reset with bad := p.2.bad, asleep := true }))
    clk := ClkUnit.reset, bel := BelUnit.reset, ldg := LdgUnit.reset
    topo := { TopoUnit.reset with machine := machine, kept := s.topo.kept }
    ctl := { CtlUnit.reset with sram := Map.keep retained s.ctl.sram, telem := Map.set 0 s.ctl.telem 4 (Map.get 0 s.ctl.telem 4 / 2 * 2) }
    hst := { HstUnit.reset with hostMem := s.hst.hostMem }
    links := [], transit := [], holding := [], opn := OpenUnit.reset, wgt := WgtUnit.reset
    sec := { s.sec with idKey := 0, drbg := 0, ram := [], body := 0, doorbell := [] }
    lif := { s.lif with queue := [], waiting := [], retryGap := false }
    pwr := PwrUnit.reset, rst := { RstUnit.reset with boot := 1 }, load := LoadUnit.reset, fwu := none }
  let fails := s2.fresh.1 % 2
  (s2.fresh.2.reloadFuses.bump .RST_CNT_WARM_COUNT).setFs [(.RST_CAUSE_CAUSE, cause), (.RST_CAUSE_NOR_WAIT, b2n waited), (.SEC_STATUS_SELFTEST_FAIL, fails),
    (.SEC_STATUS_STATE, 2 * fails)]

/-- A warm reset is asked for: it waits for a NOR operation in progress (R382). -/
def State.warmAsk (s : State) (cause : Nat) : State :=
  if s.rst.held then s
  else if s.lif.running.isSome then { s with rst := { s.rst with wait := some (s.rst.wait.getD cause) } }
  else s.warm cause false

/-- WARM_RESET (R381). -/
def execWarmReset (s : State) : Out := .next (s.warmAsk 0x2)

/-- PERST_N_ASSERT (R381): a W, or with PERST_MODE an F. -/
def execPerstNAssert (s : State) : Out := .next (if s.f .RST_CFG_PERST_MODE = 1 then s.funcReset else s.warmAsk 0x3)

/-- NOR_OP_COMPLETE (R368, R382): the operation in progress ends; a warm reset that waits for it starts. -/
def execNorOpComplete (s : State) : Out :=
  .next (match s.lif.running, s.rst.wait with
    | some _, some cause => s.norDone.warm cause true
    | some _, none => s.norDone
    | none, _ => s)

/-- Power-on reset (R381): nothing is kept but the fuses, the OTP, the NOR and what lies outside the package. -/
def State.powerOn (s : State) (nor : Mem) (free cause : Nat) : State :=
  let t : State := { State.reset with
    rdata := s.rdata, fuse := s.fuse, hst := { HstUnit.reset with hostMem := s.hst.hostMem }
    sec := { SecUnit.reset with otp := s.sec.otp }, lif := { LifUnit.reset with nor := nor }
    rst := { RstUnit.reset with held := true }, free := free, pending := s.pending }
  (t.reloadFuses.sampleStraps).setF .RST_CAUSE_CAUSE 0 cause

/-- PWRGOOD_DEASSERT (R381, R396): the NOR operation in progress still ends. -/
def execPwrgoodDeassert (s : State) : Out :=
  .next (s.powerOn (match s.lif.running with
    | some o => o.apply s.lif.nor
    | none => s.lif.nor) s.free 0x0)

/-- The bytes that a NOR operation touches. -/
def NorOp.span (o : NorOp) : Nat × Nat :=
  match o.data with
  | some bs => (o.addr, bs.length)
  | none => (o.addr / sectorBytes * sectorBytes, sectorBytes)

/-- VAUX_LOW (R396): everything stops at once; the bytes of a NOR operation in progress are left as free values. -/
def execVauxLow (s : State) : Out :=
  .next (match s.lif.running with
    | some o =>
      let p := o.span
      s.powerOn (s.lif.nor.wrBytes p.1 ((List.range p.2).map (fun i => BitVec.ofNat 8 (Config.freeNat (s.free + i))))) (s.free + p.2) 0x1
    | none => s.powerOn s.lif.nor s.free 0x1)

/-- PWRGOOD_ASSERT (R356, R364, R381, R385): straps, self-tests, the lid trace and the NOR device. -/
def execPwrgoodAssert (selftest lid : Bool) (nor : Bool) (s : State) : Out :=
  .next (if s.rst.boot ≠ 0 then s
    else
      let t := { s.sampleStraps with rst := { s.rst with held := false, boot := 1 }, sec := { s.sec with lidClosed := lid } }
      let u := t.setF .LIF_STATUS_NOR_ABSENT 0 (b2n (!nor))
      if selftest then u else (u.setF .SEC_STATUS_SELFTEST_FAIL 0 1).setF .SEC_STATUS_STATE 0 2)

/-- Whether cluster k is in K or KO. -/
def State.clusterDown (s : State) (k : Nat) : Bool := s.fb .RST_STATUS_CLUSTER 0 k || s.f .PWR_CLU_OFF k == 1

/-- Stop the step before a reset of cores while a bound core runs (R383). -/
def State.stopFirst (s : State) : State := if s.jobRuns then s.stopStep 0x1 else s

/-- A K of cluster k starts (R381, R48). -/
def State.clusterStart (s : State) (k : Nat) : State :=
  let f := s.clk.fchg.map (fun c => if c.stopped then c else { c with mask := setBit c.mask k false })
  let t := ({ s with clk := { s.clk with fchg := f, out := setBit s.clk.out k false } } : State).alignStart (2 ^ k)
  ((t.clusterClear k).setFb .RST_STATUS_CLUSTER 0 k true).bump .RST_CNT_CLUSTER_COUNT

/-- A write of RST_CLUSTER.MASK (R382, R383): a cluster already in K is ignored. -/
def State.clusterReset (s : State) (mask : Nat) : State :=
  if s.rst.held then s
  else
    let ks := (List.range 16).filter (fun k => bit mask k)
    let new := ks.filter (fun k => !s.fb .RST_STATUS_CLUSTER 0 k)
    let t := if ks.length = new.length then s else s.setF .RST_STATUS_IGNORED 0 1
    new.foldl (fun s k => s.clusterStart k) (if new = [] then t else t.stopFirst)

/-- CLUSTER_RESET (R382, R383). -/
def execClusterReset (mask : BitVec 16) (s : State) : Out := .next (s.clusterReset mask.toNat)

/-- CLUSTER_RESET_END (R39, R381): the cluster leaves K and its crossings align; where they did not, its re-admission stops and its cores get
no clock. A cluster in KO has none to lock. -/
def execClusterResetEnd (k : Fin 16) (s : State) : Out :=
  .next (if s.fb .RST_STATUS_CLUSTER 0 k.val = false then s
    else
      let t := s.setFb .RST_STATUS_CLUSTER 0 k.val false
      if bit s.clk.misaligned k then { t with clk := { t.clk with out := setBit t.clk.out k true } }
      else (t.setF .CLK_RGN_STATUS_LOCKED k (1 - s.f .PWR_CLU_OFF k)).alignEnd)

/-- The effect of a C of core n on state (R381, master table). -/
def State.coreClear (s : State) (n : Nat) : State :=
  let t := ((s.resetIf (fun r fl i => fl.resetBy .C && (r.coreOf i == some n || r.code == Reg.CLK_XALIGN.code))).dropFlights (fun m => m == n)).abandonPuts (fun m => m == n)
  (t.modCore n (fun c => { c.restart with cg := !s.bound n })).showFence n

/-- A write of RST_CORE with GO (R382, R383): ignored for a fused-off core, a core in C, or one whose cluster is in K or KO. -/
def State.coreReset (s : State) (n : Nat) : State :=
  let t := s.setF .RST_CORE_CORE 0 n
  if s.rst.held then s
  else if s.enabled n = false ∨ n ∈ s.rst.cores ∨ s.clusterDown (n / 8) then t.setF .RST_STATUS_IGNORED 0 1
  else
    let u := (t.stopFirst.coreClear n).setF .RST_STATUS_CORE 0 1
    { u with rst := { u.rst with cores := u.rst.cores ++ [n] } }

/-- CORE_RESET (R382, R383). -/
def execCoreReset (c : CoreId) (s : State) : Out := .next (s.coreReset c.val)

/-- KO_ENTRY (R384): firmware turns off a cluster with no bound core when KO_IDLE is set. -/
def execKoEntry (k : Fin 16) (s : State) : Out :=
  .next (if s.f .PWR_CTRL_KO_IDLE = 0 ∨ s.f .PWR_CLU_OFF k = 1 ∨ (List.range 8).any (fun j => s.bound (8 * k.val + j)) then s else s.clusterOff k.val)

/-! ### Start-up (R385-R387) -/

/-- Move to a point of start-up, showing the step in progress. -/
def State.bootTo (s : State) (boot phase : Nat) : State := ({ s with rst := { s.rst with boot := boot } } : State).setF .PWR_STATUS_PHASE 0 phase

/-- Firmware binds the record channel, 63, from CTL4 to the host (R286, R331). -/
def State.bindRecords (s : State) : State :=
  if s.f .MBX_CTRL_BIND_LOCK = 1 then s
  else (((s.setF .MBX_BIND_RECV 63 0x00).setF .MBX_BIND_SEND 63 0x14).setF .MBX_BIND_SMASK 63 0).setF .MBX_BIND_EN 63 1

/-- Whether the retained area stands as the copy was written: its digest then verifies. Where it does not, whether the digest verifies is a free
value, since the manual lays out neither the copy nor its place (R348, log entry 64). -/
def State.copyWhole (s : State) : Bool := Map.keep retained s.ctl.sram == s.topo.kept

/-- FIRMWARE_START (R286, R330, R348, R371, R385): the control cores run, totals and the retained configuration come back, READY
sets. -/
def execFirmwareStart (s : State) : Out :=
  .next (if s.rst.boot ≠ 2 then s
    else
      let s1 := (s.setF .CTL_STATUS_RUNNING 0 0xFF).stewardUpdate.bindRecords
      let s2 := if s.afterP then s1.recoverTotals.lifEvent 0x01 0 else s1
      let s3 := match s.topo.machine with
        | some m =>
          let t := if s.copyWhole then s2 else s2.fresh.2
          if m.group = s.group ∧ (s.copyWhole ∨ s2.fresh.1 % 2 = 1) then t.applyMachine m
          else { t with topo := { t.topo with machine := none } }
        | none => s2
      (s3.setF .HST_STATUS_READY 0 1).bootTo 3 1)

/-- CLOCK_START (R385, R39): the regions lock and the crossings align; firmware keeps an all-quiet map while no bundle is loaded
(R375). -/
def execClockStart (s : State) : Out :=
  .next (if s.rst.boot ≠ 3 then s
    else if s.rst.failed then s.setF .PWR_STATUS_PHASE 0 2
    else
      let s1 := upto 25 (fun r s => (s.setF .CLK_RGN_STATUS_LOCKED r 1).setF .CLK_RGN_STATUS_AVG_MHZ r (s.rgnMhz r)) s
      (s1.alignEnd.quietAll.setVdd (s.f .PWR_CLASS_ACT)).bootTo 4 2)

/-- HBM_TRAIN (R159, R385): after a P the stacks train and every byte of HBM and the core stores is written to zero; after a W the stacks leave
self-refresh and nothing is written. -/
def execHbmTrain (pass : BitVec 12) (s : State) : Out :=
  .next (if s.rst.boot ≠ 4 then s
    else if s.afterP then
      let s1 := upto 12 (fun k s =>
        if bit pass.toNat k then s.setF .HBM_STATUS_TRAINED k 1 else (s.setF .HBM_STATUS_FAIL k 1).setF .PWR_STATUS_DEGRADED 0 1) s
      let s2 := { s1 with hbm := [], cores := Map.modVals Core.reset (fun _ c => c.clearStore) s1.cores }
      (upto 12 (fun k s => s.setStack k { s.stack k with bad := [], asleep := false }) s2).bootTo 5 3
    else (upto 12 (fun k s => s.setStack k { s.stack k with asleep := false }) s).bootTo 5 3)

/-- LINK_TRAIN_START (R267, R385): once LOCK is set, firmware enables every link it has an expected peer for. -/
def execLinkTrainStart (s : State) : Out :=
  .next (if s.rst.boot ≠ 5 ∨ s.f .CHIP_ADDR_LOCK = 0 then s
    else (upto 64 (fun n s => if s.f .LNK_EXPECT_CHECK_EN n = 1 then s.linkEnable n else s) s).bootTo 6 4)

/-- The difference of two stamps of the layout of BEL_TS_DEP, in 2^-16 ns, by bell and phase together (R52). -/
def State.stampDiff (s : State) (a b : Nat) : Int :=
  signed 32 (a / 2 ^ 32 + 2 ^ 32 - b / 2 ^ 32 % 2 ^ 32) * (s.f .BEL_ACTIVE_US * 1000 * 2 ^ 16 : Nat) + ((a % 2 ^ 32 : Nat) : Int) - ((b % 2 ^ 32 : Nat) : Int)

/-- Set fabric time to the parent's departure time plus the delay and the time since its mark arrived; the bell unit ignores both writes once
the chip has joined (R56). -/
def State.takeTime (s : State) : State :=
  let p := s.parentLink
  let span : Nat := max (s.f .BEL_ACTIVE_US * 1000 * 2 ^ 16) 1
  let dep := s.f .BEL_TS_DEP_TS p % 2 ^ 32
  let t : Int := ((s.rst.mark * span + dep + s.f .BEL_LINKDLY_DLY p : Nat) : Int) + s.stampDiff s.stamp (s.f .BEL_TS_ARR_TS p)
  if s.f .BEL_STATUS_JOINED = 1 then s else (s.setF .BEL_NOW_BELL 0 (t.toNat / span)).setPhase (t.toNat % span * 2 ^ 16)

/-- TIME_ACQUIRE (R56, R385): a step of the acquisition; the time root joins at once. -/
def execTimeAcquire (s : State) : Out :=
  .next (if s.rst.boot ≠ 6 then s
    else
      let t := s.setF .PWR_STATUS_PHASE 0 5
      if s.f .BEL_CTRL_ROOT = 1 then t.joinFabric.bootTo 7 6
      else if s.rst.acq < 16 then t
      else if s.rst.acq = 16 then
        let u := t.takeTime
        { u with rst := { u.rst with acq := 17, good := 0 } }
      else if 64 ≤ s.rst.good then t.joinFabric.bootTo 7 6
      else t)

/-- READY_NOTICE (R386): firmware sends a notice on the channel bound to the host; its value is a free value that is not zero. -/
def execReadyNotice (s : State) : Out :=
  .next (if s.rst.boot ≠ 7 then s
    else
      let m := 0x10 + s.f .CTL_MASTER_CORE
      let t := s.bootTo 8 6
      match firstBelow 64 (fun c => s.f .MBX_BIND_EN c == 1 && s.f .MBX_BIND_RECV c == 0 && s.mbxSender m c) with
      | some c => t.fresh.2.mbxWrite m c (s.fresh.1 % (2 ^ 64 - 1) + 1)
      | none => t)

/-! ### Pins (R403, R406) -/

/-- The level of MOD_RST_N of a G-link's module: LNK_MOD.RESET drives it low; in a power-on reset the pin floats and the board pulls it low. -/
def State.modRstN (s : State) (n : Nat) : Bool := s.rst.boot != 0 && s.f .LNK_MOD_RESET n == 0

/-- The level of MOD_LPM: low while LNK_MOD.LPMODE is clear; released, or floating in a power-on reset, the pull-up holds it high. -/
def State.modLpm (s : State) (n : Nat) : Bool := s.rst.boot == 0 || s.f .LNK_MOD_LPMODE n == 1

/-! ### Shutdown (R388) -/

/-- The next enabled link from n on. -/
def State.nextEnabled (s : State) (n : Nat) : Option Nat := (List.range 64).find? (fun i => decide (n ≤ i) && s.f .LNK_CTRL_EN i == 1)

/-- Every link is down: the stacks enter self-refresh, the clusters go to KO, and the command completes in STANDBY (R388). -/
def State.standby (s : State) : State :=
  let t := upto 16 (fun k s => s.clusterOff k) ({ s with pwr := { s.pwr with down := none } } : State).sleepStacks
  (t.setF .PWR_STATUS_PHASE 0 7).ok 0x60

/-- Go on with the link after n, or finish. -/
def State.shutFrom (s : State) (n : Nat) : State :=
  match s.nextEnabled n with
  | some i => { s with pwr := { s.pwr with down := some i } }
  | none => s.standby

/-- SHUTDOWN (R388): refused while a bound core runs; the final record, then the links. -/
def execShutdown (s : State) : Out :=
  .next (if s.jobRuns then s.refuse 0x60 0x07 else (((s.markStarted 0x60 false).lifEvent 0x02 0).jnlRetry.journal).shutFrom 0)

/-- SHUTDOWN_LINK_DOWN (R388): the next link goes down once everything sent is acknowledged, or late. -/
def execShutdownLinkDown (late : Bool) (s : State) : Out :=
  .next (match s.pwr.down with
    | some n =>
      if late ∨ (s.f .LNK_SEQ_TX_ACKED n + 1) % 65536 = s.f .LNK_SEQ_TX_NEXT n then (s.linkDisable n).shutFrom (n + 1) else s
    | none => s)

end Sys2Proof.Machine
end

