-- ==== Sys2Proof/Machine/Loader.lean ====
section
/-!
DEFINITION. The loader (R4, R5, R37, R68-R70, R103, R104, R214, R270-R278, R290, R305): LOAD_BUNDLE and START_ROUND.
-/
namespace Sys2Proof.Machine

/-! ### Checks -/

/-- The candidate cores in j-major order: enabled and not fenced (R69). -/
def State.candidates (s : State) : List Nat :=
  ((List.range 8).flatMap (fun j => (List.range 16).map (fun k => 8 * k + j))).filter (fun n => s.enabled n && s.f .CORE_CTRL_FENCE n == 0)

/-- The shape constraints of the bundle (R4, R68); with an NCORE_STEP of 0, NCORE_MIN alone is a multiple of it above NCORE_MIN. -/
def State.shapeOk (s : State) (j : JobConfig) (b : Bundle) : Bool :=
  decide (b.ncoreMin ≤ j.ncore ∧ j.ncore ≤ b.ncoreMax ∧ j.ncore ≤ s.candidates.length) && (j.ncore - b.ncoreMin) % b.ncoreStep == 0
    && b.nchips.contains j.ranks.length && b.grades.contains (s.f .CHIP_GRADE_NCORE_EN) && b.speeds.contains (s.f .CHIP_GRADE_SPEED)

/-- The planning frequency lies from the floor frequency, 89.5% of the nominal clock's class target, to 99.0% of the class's target (R37). -/
def State.planFreqOk (s : State) (cls mhz : Nat) : Bool := decide (895 * s.classMhz cls ≤ 1000 * mhz ∧ 100 * mhz ≤ 99 * s.classMhz cls)

/-- The bundle as a job takes it (R276): a job whose reshape mode admits LOGICAL and whose ranks are those of an alternate plan takes that plan's
table sets, unchanged, with its ranks (log entry 78). -/
def bundleFor (b : Bundle) (j : JobConfig) : Bundle :=
  if j.reshape = 1 ∨ j.reshape = 3 then
    match b.alts.find? (fun a => a.ranks == j.ranks && a.ranks.all (fun c => b.ranks.contains c)) with
    | some a => { b with ranks := a.ranks, sets := a.sets }
    | none => b
  else b

/-- The ranks that a job fills with spares: (failed chip, spare) (R274, R277). -/
def subsOf (j : JobConfig) (b : Bundle) : List (Nat × Nat) := (b.ranks.zip j.ranks).filter (fun p => p.1 != p.2)

/-- Whether a list holds no element twice. -/
def distinct (l : List Nat) : Bool := decide l.Nodup

/-- The rank table and the spares (R5, R274, R275): what is not the bundle's table, or its alternate plan's, may differ by spare reshaping only. -/
def State.ranksOk (s : State) (j : JobConfig) (b : Bundle) : Bool :=
  distinct (j.ranks ++ j.spares) && (j.ranks ++ j.spares).contains s.chipAddr && j.ranks.length == b.ranks.length
    && (subsOf j b).all (fun p => decide (2 ≤ j.reshape) && b.spareOk && groupOf p.1 == groupOf p.2 && !b.ranks.contains p.2)

/-- The cut plan of a G-link. -/
def cutOf (b : Bundle) (chip link : Nat) : Option Nat := (b.cuts.find? (fun c => c.1 == chip * 64 + link)).map (·.2)

/-- In modes 2 and 3 every cabled G-link of a ranked chip has a cut plan (R278). -/
def State.cutsOk (s : State) (j : JobConfig) (b : Bundle) : Bool :=
  decide (j.reshape < 2) || b.ranks.all (fun c => s.cables.all (fun p => !(p.group == groupOf c && p.port / 32 == indexOf c) || (cutOf b c (32 + p.port % 32)).isSome))

/-- The image of this chip's role, which the job's first rank position of this chip names (R103). -/
def imageOf (b : Bundle) (rank : Nat) : Option Image := (b.roles[rank]?).bind (fun i => b.images[i]?)

/-- Whether the images can be loaded (R103): one to eight, each within the region it declares, every role naming one. -/
def imagesOk (b : Bundle) : Bool :=
  decide (1 ≤ b.images.length ∧ b.images.length ≤ 8) && b.images.all (fun i => decide (i.size ≤ 15 ∧ i.bytes.length ≤ (i.size + 1) * 65536))
    && b.roles.all (fun r => decide (r < b.images.length))

/-- The n-byte value at offset o of the bundle's entry of region r (R289). -/
def bRgn (b : Bundle) (r o n : Nat) : Nat := leAt b.regions (256 * r + o) n

/-- Entry i of the bundle's shard table (R288). -/
def bShard (b : Bundle) (i : Nat) : ShardEnt :=
  ⟨leAt b.shards (32 * i) 4, leAt b.shards (32 * i + 4) 1 % 32, leAt b.shards (32 * i + 8) 4, leAt b.shards (32 * i + 12) 4, leAt b.shards (32 * i + 16) 16⟩

/-- The bundle's shards. -/
def bShards (b : Bundle) : List ShardEnt := (List.range (b.shards.length / 32)).map (bShard b)

/-- The regions whose banks lie in this chip's HBM: local ones, and pools that it holds (R291). -/
def State.ownRegions (s : State) (b : Bundle) : List Nat :=
  (List.range 32).filter (fun r => let x := bRgn b r 0 1
    bit x 0 && (field x 2 2 == 0 || (field x 2 2 != 3 && b.holders.contains (r, s.chipAddr))))

/-- The spans (start, length) of the banks of region r. -/
def bSpans (b : Bundle) (r : Nat) : List (Nat × Nat) :=
  (List.range 12).flatMap (fun k =>
    let a := bRgn b r (32 + 16 * k) 8
    let n := 512 * bRgn b r (40 + 16 * k) 8
    if n = 0 then [] else if bRgn b r 8 8 = 0 then [(a, n)] else [(a, n), (a + bRgn b r 8 8, n)])

/-- Whether no two spans overlap. -/
def disjoint : List (Nat × Nat) → Bool
  | [] => true
  | p :: r => r.all (fun q => decide (p.1 + p.2 ≤ q.1 ∨ q.1 + q.2 ≤ p.1)) && disjoint r

/-- Whether every span of extent k of region r stays in stack k (R290). -/
def bExtentsOk (b : Bundle) (r : Nat) : Bool :=
  (List.range 12).all (fun k =>
    let a := bRgn b r (32 + 16 * k) 8
    let n := 512 * bRgn b r (40 + 16 * k) 8
    n == 0 || decide (k * stackBytes ≤ a ∧ a + bRgn b r 8 8 + n ≤ (k + 1) * stackBytes))

/-- The regions in host memory (R291). -/
def hostRegions (b : Bundle) : List Nat := (List.range 32).filter (fun r => let x := bRgn b r 0 1
  bit x 0 && field x 2 2 == 3)

/-- The conditions of R290; those on stacks do not apply to a region in host memory (R291). -/
def State.regionsOk (s : State) (b : Bundle) : Bool :=
  let own := s.ownRegions b
  own.all (fun r => bExtentsOk b r) && disjoint (own.flatMap (bSpans b))
    && (own ++ hostRegions b).all (fun r => sumTo 12 (fun k => bRgn b r (40 + 16 * k) 8) == bRgn b r 16 8)
    && (bShards b).all (fun e => decide (e.off + e.len ≤ bRgn b e.region 16 8))

/-- Whether the sets have bases of whole 64 KiB in HBM, in places of their own (R213). -/
def basesOk (sets : List LinkSets) : Bool :=
  sets.all (fun x => decide (x.link < 64 ∧ x.tx % 65536 = 0 ∧ x.rx % 65536 = 0 ∧ x.tx + 0x422000 ≤ hbmBytes ∧ x.rx + 0x422000 ≤ hbmBytes))

/-- Write the bytes of a set over zero. -/
def State.writeSet (s : State) (base : Nat) (bs : List (Nat × Nat)) : State :=
  let t : State := { s with hbm := bs.foldl (fun (m : Mem) (p : Nat × Nat) => if p.1 < 0x422000 then m.wr (base + p.1) (BitVec.ofNat 8 p.2) else m) (s.hbm.zero base 0x422000) }
  (t.cleanWords base 0x422000 (stackOf base)).cleanWords base 0x422000 (stackOf (base + 0x421FFF))

/-- Write both sets of each link. -/
def State.writeSets (s : State) (sets : List LinkSets) : State := sets.foldl (fun s x => (s.writeSet x.tx x.txBytes).writeSet x.rx x.rxBytes) s

/-- Whether the written sets hold what their digests say (R214). -/
def State.digestsOk (s : State) (sets : List LinkSets) : Bool := sets.all (fun x => s.setOk x.tx x.txDigest && s.setOk x.rx x.rxDigest)

/-- The receive sets, for R226. -/
def rxSets (sets : List LinkSets) : List (Nat × Nat) := sets.map (fun x => (x.link, x.rx))

/-- Why LOAD_BUNDLE is refused, none when it is not: the reason of R349 and the refusing block's code. t is the state with the bundle's sets written. -/
def State.loadRefusal (s t : State) (j : JobConfig) (b : Bundle) : Option (Nat × Nat) :=
  if s.outstanding 0x11 || s.outstanding 0x12 || s.outstanding 0x21 || s.f .PWR_STATUS_DEGRADED == 1 then some (7, 0)
  else if (List.range 128).any (fun n => s.cst n == stRun || s.cst n == stWait) then some (7, 0)
  else if !s.shapeOk j b then some (1, 0)
  else if j.grade ≠ s.f .CHIP_GRADE_NCORE_EN ∨ j.speed ≠ s.f .CHIP_GRADE_SPEED then some (2, 0)
  else if 2 < j.cls then some (0xA, 0)
  else if !s.planFreqOk j.cls b.planMhz then some (3, 0)
  else if !b.modes.contains j.inv then some (6, 0)
  else if !(s.ranksOk j b && s.cutsOk j b) then some (5, 0)
  else if !(imagesOk b && basesOk (b.sets ++ b.planSets) && t.digestsOk (b.sets ++ b.planSets) && s.regionsOk b && t.permitsFit s.routeTo (rxSets b.sets)) then some (4, 0)
  else none

/-! ### Spare reshaping (R277) -/

/-- The sets of a link. -/
def setOf (sets : List LinkSets) (n : Nat) : Option LinkSets := sets.find? (fun x => x.link == n)

/-- The cut plans of the G-links of f take the place of the bundle's own sets of the links they touch. -/
def withCuts (b : Bundle) (f : Nat) (sets : List LinkSets) : List LinkSets :=
  let ids := (List.range 32).filterMap (fun i => cutOf b f (32 + i))
  let new := (b.plans.filter (fun p => ids.contains p.id)).flatMap (fun p => p.sets.map (fun y =>
    (⟨y.1, y.2.1, [], y.2.2.1, y.2.2.2.1, [], y.2.2.2.2⟩ : LinkSets)))
  sets.map (fun x => (setOf new x.link).getD x) ++ new.filter (fun y => (setOf sets y.link).isNone)

/-- The set of an END-terminated page 0 with the runs of the built-in page, under the bell length and division that the bundle commits. -/
def emptySet (b : Bundle) : List (Nat × Nat) :=
  let word := fun (k len : Nat) => k * 2 ^ 24 + len * 2 ^ 12
  let ws := [word 3 (b.ctl * b.bellUs), word 1 (b.req * b.bellUs), word 2 (b.rpl * b.bellUs), word 7 0]
  (ws.flatMap (leBytes 4)).zipIdx.map (fun p => (0x2000 + p.2, p.1.toNat))

/-- The same pair of sets at another link's place, without flows. -/
def emptyAt (b : Bundle) (x : LinkSets) (n : Nat) : LinkSets := { x with link := n, txBytes := emptySet b, rxBytes := emptySet b }

/-- The sets of this chip after one substitution of f by v (R277, steps 1, 2, 4). The spare's link 3 keeps the sets it runs: nothing is staged for it. An
empty set takes the bases that the renaming leaves
free; where there are none it lies 16 MiB above the moved set (log entry 40). -/
def State.renameSets (s : State) (b : Bundle) (sets : List LinkSets) (f v : Nat) : List LinkSets :=
  let x := Nat.xor (indexOf f) (indexOf v)
  let cut := withCuts b f sets
  if s.group ≠ groupOf f then cut
  else if s.chipAddr = v then
    (cut.filter (fun y => y.link != 3)).map (fun y =>
      if 32 ≤ y.link then y else if y.link = Nat.xor 3 x then emptyAt b y y.link else { y with link := Nat.xor y.link x })
  else
    let o := Nat.xor (Nat.xor s.index (indexOf f)) 3
    let n := Nat.xor o x
    match setOf cut o with
    | none => cut
    | some y =>
      let free := (setOf cut n).getD { y with tx := y.tx + 0x1000000, rx := y.rx + 0x1000000 }
      { y with link := n } :: emptyAt b free o :: cut.filter (fun z => z.link != o && z.link != n)

/-- The links of the other plans' sets after the substitution, as those of the main plan (R277, steps 1, 2). -/
def State.renameLink (s : State) (f v n : Nat) : Option Nat :=
  let x := Nat.xor (indexOf f) (indexOf v)
  if s.group ≠ groupOf f ∨ 32 ≤ n then some n
  else if s.chipAddr = v then (if n = 3 ∨ n = Nat.xor 3 x then none else some (Nat.xor n x))
  else
    let o := Nat.xor (Nat.xor s.index (indexOf f)) 3
    if n = o then some (Nat.xor o x) else if n = Nat.xor o x then none else some n

/-- The 32 bytes of a receive descriptor whose permits return to f, for v (R277, step 3). -/
def swapDesc (f v : Nat) (d : Desc) : Desc :=
  if dRetChip d = f ∧ 8 ≤ dKind d then
    let d1 := setField d 108 15 v
    if dRetLink d < 32 then setField d1 176 6 (Nat.xor (dRetLink d) (Nat.xor (indexOf f) (indexOf v))) else d1
  else d

/-- Rewrite the descriptors of a receive set. -/
def State.swapSet (s : State) (f v base : Nat) : State :=
  upto 4096 (fun i s =>
    let d := s.descAt base i
    if swapDesc f v d = d then s else s.wrBytes (base + 0x402000 + 32 * i) (leBytes 32 (swapDesc f v d))) s

/-- One substitution: the sets, the bytes in HBM, and the digests firmware computes (R214, R277). -/
def State.substitute (s : State) (b : Bundle) (f v : Nat) : State × Bundle :=
  let sets := s.renameSets b b.sets f v
  let s1 := sets.foldl (fun s x => if x.txBytes = emptySet b ∧ x.rxBytes = emptySet b then (s.writeSet x.tx x.txBytes).writeSet x.rx x.rxBytes else s) s
  let s2 := (sets.map (·.rx) ++ b.planSets.map (·.rx)).foldl (fun s base => s.swapSet f v base) s1
  let dg := fun base => tlBytes (s2.rdBytes base 0x422000)
  (s2, { b with
    sets := sets.map (fun x => { x with txDigest := dg x.tx, rxDigest := dg x.rx })
    plans := b.plans.map (fun p => { p with sets := p.sets.filterMap (fun y => (s.renameLink f v y.1).map (fun n => (n, y.2.1, dg y.2.1, y.2.2.2.1, dg y.2.2.2.1))) }) })

/-! ### LOAD_BUNDLE -/

/-- Stage the bell set, the bell division and the bases of the sets; a reserved encoding leaves its field unchanged (R14). -/
def State.stage1 (s : State) (b : Bundle) : State :=
  let s1 := (s.setFs [(.BEL_ROUND_LEN_LEN_M1, b.roundLen - 1), (.BEL_ROUND_ORIGIN_BELL, b.origin)]).setLegal .BEL_LEN_US 0 b.bellUs
  let s2 := upto 64 (fun i s => s.setF .BEL_QUIET_MAP i ((b.quiet.getD i 0).toNat)) s1
  let s3 := upto 12 (fun k s => s.setLegal .HBM_CTRL_MARGIN k b.margin) s2
  b.sets.foldl (fun s x =>
    let n := x.link
    let t := (((s.setLegal .STL_CFG_REQ n b.req).setLegal .STL_CFG_RPL n b.rpl).setLegal .STL_CFG_CTL n b.ctl).setLegal .STL_CFG_AWN n b.awn
    (t.setF .STL_TXBASE_BASE n (x.tx / 65536)).setF .STL_RXBASE_BASE n (x.rx / 65536)) s3

/-- The open route table of the job's partition, at the bundle's base (R271, R237). -/
def State.stageRoutes (s : State) (b : Bundle) : State :=
  let base := s.routeBase b.route
  let chips := s.topo.partition.filter (fun d => d != s.chipAddr)
  (s.writeRoutes base (chips.map (fun d => (d, routeByte (s.routeTo d))))).setF .OPN_ROUTE_BASE_BASE 0 base

/-- The load goes on once its checks have passed: tables written and staged; the commit is agreed or armed next (R103, R279). -/
def State.loadTables (s : State) (j : JobConfig) (b : Bundle) (bell : Nat) : State :=
  let r := (subsOf j b).foldl (fun (p : State × Bundle) q => p.1.substitute p.2 q.1 q.2) (s, b)
  let t := r.1.takeJob (some j) (some r.2)
  ((({ t with load := { t.load with loading := some bell, before := (s.load.job, s.load.bundle) } } : State).stage1 r.2).stageRoutes r.2)

/-- The class change of a load, when the job names another class (R375): none where no bell admits it. -/
def State.loadClass (s : State) (cls : Nat) : Option State :=
  if cls = s.f .PWR_CLASS_ACT then some s else s.admittedBell.map (fun c => s.armClass cls c false)

/-- LOAD_BUNDLE (R103): the checks, the class change (R375), the tables, and the commit agreed or armed at the named bell; a load whose arms are
refused takes no effect (R349). -/
def execLoadBundle (job : JobConfig) (bundle : Bundle) (bell : BitVec 64) (s : State) : Out :=
  let b := bundleFor bundle job
  let t := s.writeSets (b.sets ++ b.planSets)
  .next (match s.loadRefusal t job b with
    | some (r, sub) =>
      let u := s.refuse 0x10 r sub
      if r = 4 ∧ !s.regionsOk b then u.setF .WGT_STATUS_CFG_MISMATCH 0 1 else u
    | none =>
      match t.loadClass job.cls with
      | none => s.refuse 0x10 7 2
      | some c =>
        let u := c.loadTables job b bell.toNat
        if bell = 0 then u.agreeStart loadPlan
        else
          let st := (u.armPlan loadPlan bell.toNat).2
          if st = 0 then u.planDirect loadPlan bell.toNat else s.refuse 0x10 9 st)

/-! ### At the commit bell -/

/-- A cluster that was off powers on: a K follows (R384). -/
def State.clusterWake (s : State) (k : Nat) : State :=
  if s.f .PWR_CLU_OFF k = 0 then s
  else
    let t := (s.setF .PWR_CLU_OFF k 0).clusterClear k
    (t.setF .PWR_CLU_VDD_MV k (s.vddOf (s.f .PWR_CLASS_ACT) k)).setF .CLK_RGN_STATUS_LOCKED k 1

/-- The state of a core that the loader binds: LOADED, but a core in FAULT or FENCED whose fault record stands stays there (R101). A FENCED core
that reaches the binding has its FENCE clear (R69). -/
def State.boundState (s : State) (n : Nat) : Nat :=
  if s.f .CORE_FAULT_VALID n = 1 ∧ (s.cst n = stFault ∨ s.cst n = stFenced) then s.cst n else stLoaded

/-- The state of a core that a load leaves without its binding: IDLE, but a core in FAULT whose record stands, or in FENCED, stays there (R101,
R102). -/
def State.unboundState (s : State) (n : Nat) : Nat :=
  if s.cst n = stFenced ∨ (s.cst n = stFault ∧ s.f .CORE_FAULT_VALID n = 1) then s.cst n else stIdle

/-- Bind core n as logical core l with an image: it leaves CG, and its state becomes LOADED (R69, R70, R103, R124, R125). A field that a table of
the bundle or of the job gives a reserved value keeps the value it had (R14). -/
def State.bindCore (s : State) (j : JobConfig) (b : Bundle) (img : Image) (role rank n l : Nat) : State :=
  let s1 := (s.clusterWake (n / 8)).modCore n (fun c => c.put (storeBytes - (img.size + 1) * 65536) img.bytes)
  let s2 := (((s1.setF .CORE_PROG_SIZE n img.size).setF .CORE_PROG_ENTRY n img.entry).setF .CORE_BIND_LOGICAL n l).setF .CORE_BIND_IMAGE n role
  let s3 := ((s2.setF .CORE_SHAPE_NCORE n j.ncore).setF .CORE_SHAPE_NCHIP n j.ranks.length).setF .CORE_SHAPE_MYCHIP n rank
  let s4 := ((s3.setF .CORE_ARG_ARG n j.arg).setF .MXE_CTRL_INV n (b2n j.inv)).setF .VEC_SEED_SEED n j.seed
  let s5 := (s4.setF .MXE_CTRL_ZGATE_EN n (b2n b.zgate)).setF .MXE_CTRL_NILGATE_EN n (b2n b.nilgate)
  let s6 := (s5.setLegal .PRT_CFG_OPEN_TMO n b.openTmo).setF .PRT_WATCH_CFG_LIMIT n b.watch
  let s7 := upto 8 (fun i s => (s.setLegal .PMC_SEL_EVENT (8 * n + i) (field (j.pmcSel.getD i 0) 0 8)).setF .PMC_SEL_EN (8 * n + i) (field (j.pmcSel.getD i 0) 8 1))
    (s6.setF .PMC_USER_EN_EN n (b2n j.pmcUser))
  let s8 := ((s7.coreClear n).modCore n (fun c => { c with cg := false })).setF .CORE_BIND_BOUND n 1
  let s9 := (s8.setF .MXE_STATUS_INV_ACTIVE n (b2n j.inv)).setF .CORE_STEP_STEP n j.startStep
  s9.setF .CORE_STATUS_STATE n (s.boundState n)

/-- Whether a request that waits for HBM slots belongs to a flow. -/
def HbmAct.ofFlow : HbmAct → Bool
  | .stage _ _ _ => true
  | .land _ => true
  | _ => false

/-- The flows of every link return to their load values (R222, R223), the transit store and the holding area empty, each frame held there being
counted (R225). What the flows still ask of HBM goes (log entry 76). The feeds of the weight trees count from 0 with the flows' slots (R294), and
the credit of every buffer section equals its size again (R239). -/
def State.clearFlows (s : State) : State :=
  let t := s.heldDrop (fun _ => true)
  { t with
    links := Map.modVals LinkUnit.reset (fun _ l => { l with
      tflows := Map.modVals TFlow.reset (fun _ x => { TFlow.reset with desc := x.desc, refused := x.refused, loaded := x.loaded, permits := if x.loaded then loadPermits x.desc else 0 }) l.tflows
      rflows := Map.modVals RFlow.reset (fun _ x => { RFlow.reset with desc := x.desc, refused := x.refused, loaded := x.loaded }) l.rflows
      permits := [], used := [] }) t.links
    hbms := Map.modVals Stack.reset (fun _ k => { k with queue := k.queue.filter (fun q => !q.act.ofFlow) }) t.hbms
    wgt := { t.wgt with feeds := [] }
    transit := [] }

/-- The owner of an HBM slot by the plan (R171): 1 a core, 2 a port, 3 the crier, 4 the scrub, 5 the host. -/
def ownerOf (kind x : Nat) : SlotOwner :=
  match kind with
  | 1 => .core x
  | 2 => .port x
  | 3 => .crier
  | 4 => .scrub
  | 5 => .host
  | _ => .none

/-- The HBM plan takes effect (R171): an owner for each slot of a bell, 50 to the microsecond. -/
def State.setHbmPlan (s : State) (plan : List (Nat × Nat × Nat × Nat)) : State :=
  let s1 := upto 12 (fun k s => s.setStack k { s.stack k with owners := [] }) s
  plan.foldl (fun s p => if p.1 < 12 ∧ p.2.1 < 50 * 64 then
      s.setStack p.1 { s.stack p.1 with owners := Map.set .none (s.stack p.1).owners p.2.1 (ownerOf p.2.2.1 p.2.2.2) } else s) s1

/-- The link section (R201, R240, R273): every link whose peer lies outside the partition is disabled. -/
def State.setLinks (s : State) (ls : List LinkCfg) : State :=
  let s1 := ls.foldl (fun s c => if c.link < 64 then
      let t := (s.setLegal .LNK_GRACE_UNITS c.link c.grace).setF .LNK_CFG_ENC_EN c.link (if c.link < 32 then 0 else b2n c.enc)
      (t.setLegal .OPN_RBUF_REQ c.link c.req).setLegal .OPN_RBUF_RPL c.link c.rpl
    else s) s
  upto 64 (fun n s =>
    let inside := ((s.expectOf n).map (fun p => s.topo.partition.contains p.1)).getD false
    let want := inside && ((ls.find? (fun c => c.link == n)).map (·.en)).getD true
    if want then (if s.f .LNK_CTRL_EN n = 1 then s else s.linkEnable n) else if s.f .LNK_CTRL_EN n = 1 then s.linkDisable n else s) s1

/-- The state of the shards and banks of one region under the new tables (R305): keep is whether the region's entry is unchanged, old the
shard entries of the tables before. -/
def State.keepRegion (s : State) (old : State) (r : Nat) (keep : Bool) : State :=
  let es := s.shardsOf r
  let os := old.shardsOf r
  let same := fun (e : ShardEnt) => os.findIdx? (fun o => o == e)
  let base := (s.absentBank r 0).absentBank r 1
  if !keep then
    (((base.setBank r 0 bkFree).setBank r 1 bkFree).setF .WGT_RGN_HAS_ACT r 0).setF .WGT_RGN_GEN r 0 |>.setF .WGT_RGN_DRAIN r 0
  else
    let t := es.zipIdx.foldl (fun s p => match same p.1 with
      | some i => (s.setShard r 0 p.2 (old.shard r 0 i)).setShard r 1 p.2 (old.shard r 1 i)
      | none => s) base
    let whole := es.all (fun e => (same e).isSome)
    [0, 1].foldl (fun s b =>
      if !whole then (if s.bank r b = bkActive then s.setF .WGT_RGN_HAS_ACT r 0 else s).setBank r b bkFree
      else if s.bank r b = bkDraining then (s.setBank r b bkLoaded).setF .WGT_RGN_DRAIN r 0 else s) t

/-- Whether the entry of region r keeps VALID, DELTA and extents (R305). -/
def State.sameRegion (s : State) (b : Bundle) (r : Nat) : Bool :=
  s.f .WGT_RGN_CFG_VALID r == 1 && bit (bRgn b r 0 1) 0 && s.rgnDelta r == bRgn b r 8 8
    && (List.range 12).all (fun k => s.rgnExtent r k == (bRgn b r (32 + 16 * k) 8, bRgn b r (40 + 16 * k) 8))

/-- Whether the bytes of shard e of a bank match its digest, read as the scrub reads (R305). What a shard in host memory holds the host alone
knows: that is a free value (log entry 78). -/
def State.verifyShard (s : State) (r b : Nat) (e : ShardEnt) : Bool × State :=
  if s.f .WGT_RGN_CFG_TIER r = 3 then (s.fresh.1 % 2 == 1, s.fresh.2)
  else
    let x := s.scrubRead r b e.off e.len 0
    (gmul (Nat.xor x.1 (32 * e.len)) tlH == e.digest, x.2)

/-- The verify option (R305): the shards of a bank whose bytes match their digests become LOADED, with a SHARD entry each (R299), and with its last
shard the bank; a bank with only some of them LOADED is LOADING (R299). -/
def State.verifyBank (s : State) (r b : Nat) : State :=
  let es := s.shardsOf r
  let t := es.zipIdx.foldl (fun s p =>
    let x := s.verifyShard r b p.1
    if x.1 && (x.2.shard r b p.2).st != 2 then x.2.loadedShard r b p.2 p.1 else x.2) s
  let idle := t.bank r b = bkFree ∨ t.bank r b = bkLoading ∨ t.bank r b = bkBad
  if es.isEmpty ∨ ¬idle then t
  else if (List.range es.length).all (fun i => (t.shard r b i).st == 2) then t.setBank r b bkLoaded
  else if t.bank r b = bkFree ∧ (List.range es.length).any (fun i => (t.shard r b i).st == 2) then t.setBank r b bkLoading
  else t

/-- The weight manager takes the bundle's tables (R288, R289, R305). -/
def State.loadWeights (s : State) (j : JobConfig) (b : Bundle) : State :=
  let s1 := (s.setF .WGT_TABLE_BASE_BASE 0 (b.tableBase / 65536)).setF .CRI_TREE_BASE_BASE 0 (b.treeBase / 65536)
  let s2 := ((s1.wrBytes b.tableBase b.regions).wrBytes (b.tableBase + 0x2000) b.shards).wrBytes b.treeBase b.trees
  let s3 := upto 32 (fun r s =>
    let x := bRgn b r 0 1
    let t := ((s.setF .WGT_RGN_CFG_VALID r (field x 0 1)).setF .WGT_RGN_CFG_MUTABLE r (field x 1 1)).setF .WGT_RGN_CFG_TIER r (field x 2 2)
    (t.setF .WGT_RGN_CFG_PIPE r (bRgn b r 1 1)).setF .WGT_RGN_CFG_SHARDS r (((bShards b).filter (fun e => e.region == r)).length)) s2
  let s4 := upto 32 (fun r t => t.keepRegion s r (s.sameRegion b r)) s3
  let s5 := s4.setF .WGT_CORE_OFF_GRANULE 0 (b.coreOff / 512)
  j.verify.foldl (fun s p => s.verifyBank (p.1 % 32) (b2n p.2)) s5

/-- What the sections of the job configuration write outside the cores. -/
def State.setJob (s : State) (j : JobConfig) (b : Bundle) (rank : Option Nat) : State :=
  let s1 := s.setFs [(.CHIP_SHAPE_NCHIP, j.ranks.length), (.CHIP_SHAPE_MYCHIP, rank.getD 0), (.CHIP_SHAPE_SPARE, b2n rank.isNone), (.CHIP_SHAPE_RESHAPE, j.reshape),
    (.LDG_STEP_STEP, j.startStep), (.OPN_THROTTLE_ON, j.thrOn), (.OPN_THROTTLE_OFF, j.thrOff), (.BEL_CTRL_ROOT, b2n (j.root == s.chipAddr)),
    (.TAL_CTRL_EN, b2n j.tally), (.TAL_SHEET_BASE_BASE, j.sheetBase / 65536), (.TAL_SHEET_CFG_HOST, b2n j.sheetHost),
    (.PWR_CTRL_CG_RET, field j.powerCtrl 0 1), (.PWR_CTRL_CG_WAIT, field j.powerCtrl 1 1), (.PWR_CTRL_KO_IDLE, field j.powerCtrl 2 1), (.PWR_CTRL_THERM_IRQ_EN, field j.powerCtrl 3 1),
    (.PWR_CLASS_PLAN_MHZ, b.planMhz), (.PWR_CLASS_LOW, ([0, 1, 2].find? (fun c => decide (100 * b.planMhz ≤ 99 * s.classMhz c))).getD 2)]
  let s1 := s1.setLegal .TAL_SHEET_CFG_LOG2 0 j.sheetLog2
  let s2 := if s1.f .BEL_PARENT_PARENT = j.parent ∧ s1.f .BEL_PARENT_ALT = j.alt ∧ s1.f .BEL_PARENT_ALT_EN = b2n j.altEn then s1 else s1.setParent j.parent j.alt (b2n j.altEn)
  let s3 := s2.wrBytes b.rankBase (j.ranks.flatMap (leBytes 2))
  { s3 with opn := { s3.opn with openMap := j.openMap }, ldg := { s3.ldg with tallies := [] } }

/-- The loader writes every bank word of core n, after everything else it writes (R302). -/
def State.bankWords (s : State) (n : Nat) : State := upto 32 (fun r s => s.bankWord n r) s

/-- A bound core that leaves a core reset re-enters LOADED through the loader, which writes its bank words and CORE_STEP (R103, R302; log entry 79);
a core that R101 or R102 holds where it is stays there. -/
def State.reenter (s : State) (n : Nat) : State :=
  match s.load.job with
  | some j =>
    if s.load.loaded && s.bound n && s.cst n == stIdle then
      ((s.setF .CORE_STEP_STEP n j.startStep).setF .CORE_STATUS_STATE n stLoaded).bankWords n
    else s
  | none => s

/-- CORE_RESET_END (R381): the oldest core in C leaves it. -/
def execCoreResetEnd (s : State) : Out :=
  let r := s.rst.cores.drop 1
  let t := ({ s with rst := { s.rst with cores := r } } : State).setF .RST_STATUS_CORE 0 (b2n (!r.isEmpty))
  .next (s.rst.cores.head?.elim t t.reenter)

/-- The load ends at its commit bell: the previous binding goes, the cores are bound and LOADED, the others are in CG (R69, R70, R103). A spare
binds no core. -/
def State.finishLoad (s : State) : State :=
  match s.load.loading, s.load.job, s.load.bundle with
  | some _, some j, some b =>
    let rank := j.ranks.findIdx? (fun c => c == s.chipAddr)
    let s0 := upto 128 (fun n s => if s.bound n then (s.setF .CORE_BIND_BOUND n 0).setF .CORE_STATUS_STATE n (s.unboundState n) else s) s
    let s1 := (s0.clearFlows.setJob j b rank).setHbmPlan b.hbmPlan
    let s2 := match rank with
      | some r =>
        (match imageOf b r with
          | some img => ((s1.candidates.take j.ncore).zipIdx).foldl (fun (s : State) (p : Nat × Nat) => s.bindCore j b img (b.roles.getD r 0) r p.1 p.2) s1
          | none => s1)
      | none => s1
    let s3 := (((List.range 128).filter (fun n => s2.enabled n && !s2.bound n && !(s2.core n).cg)).foldl (fun s n => s.enterCg n) s2
      |>.loadWeights j b).setLinks j.links
    let s4 := s3.boundCores.foldl (fun s n => s.bankWords n) s3
    { s4 with load := { s4.load with loaded := true, loading := none } }
  | _, _, _ => s

/-- Whether the agreement on the load takes effect in this bell. -/
def State.loadDue (s : State) : Bool := s.topo.agreements.any (fun a => a.plan == loadPlan && a.armed && a.bell == s.now)

/-- At the pulse: a load whose commits have all taken effect ends; one whose commits were refused is dropped. -/
def State.loadBell (s : State) : State :=
  if s.loadDue = false then s
  else if s.planResult loadPlan = 0 then s.finishLoad
  else s.dropLoad

/-! ### START_ROUND (R104) -/

/-- Whether a local region is VALID without an ACTIVE bank. -/
def State.inactiveRegion (s : State) : Bool :=
  (List.range 32).any (fun r => s.f .WGT_RGN_CFG_VALID r == 1 && s.f .WGT_RGN_CFG_TIER r == 0 && (s.bankIn r bkActive).isNone)

/-- START_ROUND (R104): refused in STATE while a load is outstanding, a bank is missing or no core is LOADED. -/
def execStartRound (bell : BitVec 64) (s : State) : Out :=
  .next (if s.outstanding 0x10 || s.inactiveRegion || !s.boundCores.any (fun n => s.cst n == stLoaded) then s.refuse 0x11 7
    else if bell ≠ 0 ∧ bell.toNat < s.now + 64 then s.refuse 0x11 0xA
    else
      let t := (s.setF .CHIP_HALT_STOPPED 0 0).setF .CHIP_HALT_CAUSE 0 0
      if bell = 0 then t.agreeStart startPlan else t.planDirect startPlan bell.toNat)

/-- A core that is LOADED starts with the pulse of its start bell (R63, R104); with HOLD set it stops at once in HELD (R411). -/
def State.startCore (s : State) (n : Nat) : State :=
  let t := ((s.setF .CORE_PC_PC n (s.f .CORE_PROG_ENTRY n)).setF .CORE_STATUS_STATE n (if s.f .CORE_CTRL_HOLD n = 1 then stHeld else stRun)).setF .CORE_STATUS_WAIT_KIND n 0
  let u := upto 16 (fun e s => s.setF .CORE_EVT_COUNT (16 * n + e) 0) t
  u.modCore n (fun c => { c with
    sregs := Map.set 0 [] 1 (BitVec.ofNat 64 (s.f .CORE_ARG_ARG n)), vregs := [], pregs := [], loops := [], waiting := [], startBell := none })

/-- Start the cores whose bell has come. -/
def State.startDue (s : State) : State :=
  s.boundCores.foldl (fun s n => if s.cst n = stLoaded ∧ (s.core n).startBell = some s.now then s.startCore n else s) s

end Sys2Proof.Machine
end

