-- ==== Sys2Proof/Machine/Memory.lean ====
section
/-!
DEFINITION. Streams (R176-R181), the fill port's errors (R168), and the HBM controllers' temperature checks (R173, R174).
-/
namespace Sys2Proof.Machine

/-! ### SLD and SST -/

/-- Streams a core holds (R177). -/
abbrev streamCap := 8

/-- The slot bits of a stream (06). -/
def encStream (op : Nat) (even : Bool) (ev : BitVec 4) (rt rn rr rl : BitVec 5) (ps : Bool) : Nat :=
  op + b2n ps * 2 ^ 8 + rl.toNat * 2 ^ 9 + rr.toNat * 2 ^ 14 + rn.toNat * 2 ^ 19 + rt.toNat * 2 ^ 24 + ev.toNat * 2 ^ 29 + b2n even * 2 ^ 33

/-- Whether rows of n bytes, the first at a and the last at b, all lie in [lo, hi). -/
def rowsIn (a b : Int) (n : Nat) (lo hi : Int) : Bool := decide (lo ≤ min a b ∧ max a b + n ≤ hi)

/-- Whether each row lies in HBM or wholly in the host memory window. -/
def rowsOwn (x : Stream) : Bool :=
  (List.range x.rows).all (fun r =>
    let a := (x.far : Int) + r * x.stride
    rowsIn a a x.rowBytes 0 hbmBytes || rowsIn a a x.rowBytes 0xD0000000000 0xE0000000000)

/-- Whether the far rows pass the check of R176. -/
def farOk (x : Stream) : Bool :=
  let a : Int := x.far
  let b := a + (x.rows - 1 : Nat) * x.stride
  rowsIn a b x.rowBytes 0 hbmBytes || (x.side == .own && (rowsIn a b x.rowBytes 0xD0000000000 0xE0000000000 || rowsOwn x))

/-- The stream an instruction names (06, operand table). -/
def streamOf (s : State) (c : Nat) (load even : Bool) (ev : BitVec 4) (rt rn rr rl : BitVec 5) (ps : Bool) : Stream :=
  let far := s.sr c rr
  let n := s.sr c rn
  let pos := far / 2 ^ 44 % 4
  { slot := 0, load := load, local_ := s.sr c rl, far := far % 2 ^ 44, rowBytes := n % 2 ^ 32, rows := n / 2 ^ 32 % 2 ^ 16 + 1,
    stride := signed 64 (s.sr c rt), ps := ps, ev := if even then some ev.toNat else none,
    side := if pos = s.f .CHIP_ADDR_POSITION then .own else .peer pos, done := [], asked := 0, pieces := [], miss := false, left := [] }

/-- An ADDR fault (R179). -/
def FaultRec.badAddr (detail a : Nat) : FaultRec := ⟨0x12, detail, a⟩

/-- The faults of a stream (R176). A row size or stride that is no multiple of 64, or a row size of 0, is MISALIGN (log entry 34). -/
def streamFaults (s : State) (c bits : Nat) (x : Stream) (rr rn : Nat) : List FaultRec :=
  let foot := x.rowBytes * x.rows
  when_ (x.ps && !x.load) (.illegal bits)
    ++ when_ (if x.load then s.badWrite c x.local_ foot else leavesStore x.local_ foot) (.range x.local_)
    ++ when_ (decide (x.local_ % 64 ≠ 0 ∨ (x.ps = true ∧ (x.local_ % 512 ≠ 0 ∨ x.rowBytes % 512 ≠ 0)))) (.misalign x.local_)
    ++ when_ (decide (rr % 64 ≠ 0 ∨ x.rowBytes % 64 ≠ 0 ∨ x.rowBytes = 0 ∨ x.stride % 64 ≠ 0)) (.misalign rr)
    ++ when_ (decide (2 ^ 46 ≤ rr ∨ 2 ^ 48 ≤ rn)) (.badAddr 2 rr)
    ++ when_ (decide (foot ≤ storeBytes) && !farOk x) (.badAddr 1 rr)

/-- Start a stream in a free slot of the eight (R177). -/
def State.streamIssue (s : State) (c : Nat) (x : Stream) : State :=
  match firstBelow streamCap (fun j => !(s.core c).streams.any (fun y => y.slot == j)) with
  | none => s
  | some j => (s.modCore c (fun k => { k with streams := k.streams ++ [{ x with slot := j }] })).sendPieces c

/-- SLD or SST (R176, R177). -/
def semStream (opc : Nat) (load : Bool) (c : CoreId) (even : Bool) (ev : BitVec 4) (rt rn rr rl : BitVec 5) (ps : Bool) (s : State) : Sem :=
  let x := streamOf s c load even ev rt rn rr rl ps
  { faults := streamFaults s c (encStream opc even ev rt rn rr rl ps) x (s.sr c rr) (s.sr c rn),
    need := [keyS rt, keyS rn, keyS rr, keyS rl], wait := if streamCap ≤ (s.core c).streams.length then 4 else 0,
    run := fun s => s.streamIssue c x }

/-- SLD. -/
def semSld (c : CoreId) (even : Bool) (ev : BitVec 4) (rt rn rr rl : BitVec 5) (ps : Bool) := semStream 0x60 true c even ev rt rn rr rl ps

/-- SST. -/
def semSst (c : CoreId) (even : Bool) (ev : BitVec 4) (rt rn rr rl : BitVec 5) (ps : Bool) := semStream 0x61 false c even ev rt rn rr rl ps

/-- SLD, as a packet of one slot. -/
def execSld (c : CoreId) (even : Bool) (ev : BitVec 4) (rt rn rr rl : BitVec 5) (ps : Bool) (s : State) : Out :=
  one c 2 (.sld c even ev rt rn rr rl ps) (semSld c even ev rt rn rr rl ps s) s

/-- SST, as a packet of one slot. -/
def execSst (c : CoreId) (even : Bool) (ev : BitVec 4) (rt rn rr rl : BitVec 5) (ps : Bool) (s : State) : Out :=
  one c 2 (.sst c even ev rt rn rr rl ps) (semSst c even ev rt rn rr rl ps s) s

/-! ### The host memory window (R181) -/

/-- Whether PCIe accesses to host memory are made: bus mastering on and READY set. -/
def State.hostOn (s : State) : Bool := s.hst.busMaster && s.f .HST_STATUS_READY == 1

/-- The next piece of a stream's window bytes: the stream offset and length, at most 4,096 bytes within a row. -/
def Stream.hostPiece (x : Stream) : Option (Nat × Nat) :=
  let us := (x.unitsIn 12).drop (Map.get 0 x.done 12 / 64)
  match us with
  | [] => none
  | u :: _ => some (64 * u, min 4096 (x.rowBytes - 64 * u % x.rowBytes))

/-- Count n bytes of a stream's window as moved; they stay unwritten when miss is set. -/
def State.hostMoved (s : State) (c : Nat) (x : Stream) (n : Nat) (miss : Bool) : State :=
  (s.modStream c x.slot (fun y => { y with done := Map.set 0 y.done 12 (Map.get 0 y.done 12 + n), miss := y.miss || miss })).streamCount c n

/-- PCIE_READ_COMPLETION (R181): the read of the oldest SLD of core c that waits on the window. -/
def execPcieReadCompletion (c : CoreId) (data : List Byte) (err : Bool) (s : State) : Out :=
  match (s.core c).streams.find? (fun x => x.side == .own && x.load && x.hostPiece.isSome) with
  | none => .next s
  | some x =>
    match x.hostPiece with
    | none => .next s
    | some (o, n) =>
      if err ∨ s.hostOn = false then .next (s.hostMoved c x n true)
      else .next ((s.streamWrite c x o ((List.range n).map (byteAt data))).hostMoved c x n false)

/-- Write one window unit of an SST to host memory. -/
def State.hostUnit (s : State) (c : Nat) (x : Stream) (u : Nat) : State :=
  let r := s.fillRead c (x.local_ + 64 * u) 64
  r.2.wrFar true (s.f .HST_HOSTWIN_BASE * 2 ^ 30 + (x.farAt (64 * u) - 0xD0000000000)) r.1

/-- The window bytes of the oldest stream, as its completion finds them: an SST's writes are made; without bus mastering or READY they
stay unwritten (R181). -/
def State.hostFlush (s : State) (c : Nat) (x : Stream) : State :=
  let us := (x.unitsIn 12).drop (Map.get 0 x.done 12 / 64)
  if us = [] then s
  else if s.hostOn = false then s.hostMoved c x (64 * us.length) true
  else if x.load then s
  else (us.foldl (fun s u => s.hostUnit c x u) s).hostMoved c x (64 * us.length) false

/-- STREAM_COMPLETE (R178, R180, R181): the oldest stream of core c, once it has moved every byte. -/
def execStreamComplete (c : CoreId) (s : State) : Out :=
  match (s.core c).streams with
  | [] => .next s
  | x :: _ =>
    let t := if x.side = .own then s.hostFlush c x else s
    match (t.core c).streams with
    | y :: _ => .next (if y.whole then t.streamDone c y else t)
    | [] => .next t

/-! ### The fill port (R168) -/

/-- At a packet boundary of core c: STORE_ECC with SLOT 3 for an error that a fill-port read has found (R168). -/
def State.takeFillErr (s : State) (c : Nat) : State :=
  match (s.core c).fillErr with
  | some a => (s.modCore c (fun k => { k with fillErr := none })).coreFault c 0x0F 3 (bankOf a) a
  | none => s

/-- FILL_PORT_ECC (R168): a fill-port read finds an uncorrectable error. A core in RUN or WAIT is at a packet boundary; any other meets the error
at its next one. The word stays uncorrectable until it is written, so that the core's own reads of it fault too. -/
def execFillPortEcc (c : CoreId) (addr : BitVec 23) (s : State) : Out :=
  let t := s.modCore c (fun k => { k with eccBad := Map.set false k.eccBad (addr.toNat / 8) true, fillErr := k.fillErr.or (some addr.toNat) })
  .next (if s.cst c = stRun ∨ s.cst c = stWait then t.takeFillErr c else t)

/-! ### Temperature (R173, R174) -/

/-- HBM_TEMP_CHECK (R173, R174): the pair is checked, then the temperature against it. -/
def execHbmTempCheck (st : StackId) (deg : BitVec 8) (s : State) : Out :=
  let k := st.val
  let on := s.f .HBM_TEMP_HOT_ON k
  let off := s.f .HBM_TEMP_HOT_OFF k
  let s1 := s.setF .HBM_TEMP_DEG k deg.toNat
  let s2 := if off < on then s1.setStack k { s1.stack k with hotOn := on, hotOff := off } else s1.setF .HBM_STATUS_CFG_MISMATCH k 1
  let x := s2.stack k
  let was := s2.f .HBM_STATUS_HOT k = 1
  let hot := s2.f .HBM_CTRL_HOT_FORCE k = 1 ∨ x.hotOn ≤ deg.toNat ∨ (was ∧ x.hotOff < deg.toNat)
  let s3 := s2.setF .HBM_STATUS_HOT k (b2n (decide hot))
  .next (if hot then s3.bump .HBM_HOT_US_US k else s3)

end Sys2Proof.Machine
end

