-- ==== Sys2Proof/Machine/Scalar.lean ====
section
/-!
DEFINITION. The scalar slot (R75-R86): one meaning for each instruction, over the shared forms below.
-/
namespace Sys2Proof.Machine

/-- A scalar result written to rd (R63, R75). -/
def semResult (c : CoreId) (rd : BitVec 5) (v lat : Nat) (need : List Nat) : Sem :=
  { dsts := [(keyS rd, lat)], need := need, run := fun s => s.setSr c rd v }

/-- Format R: s[rd] := f s[rs1] s[rs2]. -/
def semR (f : Nat → Nat → Nat) (lat : Nat) (c : CoreId) (rd rs1 rs2 : BitVec 5) (s : State) : Sem :=
  semResult c rd (f (s.sr c rs1) (s.sr c rs2)) lat [keyS rs1, keyS rs2]

/-- Format I: s[rd] := f s[rs1] (sext imm). -/
def semI (f : Nat → Nat → Nat) (c : CoreId) (rd rs1 : BitVec 5) (imm : BitVec 22) (s : State) : Sem :=
  semResult c rd (f (s.sr c rs1) (sext imm)) 1 [keyS rs1]

/-- Set if less than, signed. -/
def slt (a b : Nat) : Nat := b2n (decide (signed 64 a < signed 64 b))

/-- Set if less than, unsigned. -/
def sltu (a b : Nat) : Nat := b2n (decide (a < b))

/-- Logical shift left by the low six bits. -/
def sll (a b : Nat) : Nat := a * 2 ^ (b % 64)

/-- Logical shift right. -/
def srl (a b : Nat) : Nat := a / 2 ^ (b % 64)

/-- Arithmetic shift right: the floor of the signed value over a power of two. -/
def sra (a b : Nat) : Nat := unsign 64 (signed 64 a / ((2 : Int) ^ (b % 64)))

/-- Signed minimum. -/
def smin (a b : Nat) : Nat := if signed 64 a < signed 64 b then a else b

/-- Signed maximum. -/
def smax (a b : Nat) : Nat := if signed 64 a < signed 64 b then b else a

/-- LIX: (a << 22) or a zero-extended immediate (R75). -/
def lix (a : Nat) (imm : BitVec 22) : Nat := Nat.lor (a * 2 ^ 22 % 2 ^ 64) imm.toNat

/-- Checks of a data access of n bytes at local address a (R75). -/
def accessFaults (a n : Nat) : List FaultRec :=
  when_ (leavesStore a n) (.range a) ++ when_ (decide (a % n ≠ 0)) (.misalign a)

/-- Checks of a load: the access, then an uncorrectable word (R168). -/
def loadFaults (s : State) (c a n : Nat) : List FaultRec :=
  accessFaults a n ++ (if leavesStore a n then [] else ((s.core c).eccHit a n).toList.map .ecc)

/-- A load of n bytes at s[rs1] + sext(imm). -/
def semLoad (n : Nat) (c : CoreId) (rd rs1 : BitVec 5) (imm : BitVec 22) (s : State) : Sem :=
  let a := add64 (s.sr c rs1) (sext imm)
  { faults := loadFaults s c a n, dsts := [(keyS rd, 4)], need := [keyS rs1], grans := [a / 512],
    run := fun s => (s.storeRead c a n).setSr c rd ((s.core c).store.rdLe a n) }

/-- A store of the low n bytes of s[rd] at s[rs1] + sext(imm); the program region is closed to it (R74). -/
def semStore (n : Nat) (c : CoreId) (rd rs1 : BitVec 5) (imm : BitVec 22) (s : State) : Sem :=
  let a := add64 (s.sr c rs1) (sext imm)
  let v := s.sr c rd
  { faults := when_ (s.badWrite c a n) (.range a) ++ when_ (decide (a % n ≠ 0)) (.misalign a),
    need := [keyS rs1, keyS rd], grans := [a / 512],
    run := fun s => s.modCore c (fun k => k.wrStore a (leBytes n v)) }

/-- Checks of a taken branch or jump to packet t of core c (R76). -/
def targetFaults (s : State) (c : Nat) (t : Int) : List FaultRec :=
  when_ (decide (t < 0 ∨ (s.progPackets c : Int) ≤ t)) ⟨0x0A, unsign 32 t, 0⟩

/-- A branch: when p holds on s[rs1] and s[rs2] the PC moves by off packets (R76). -/
def semBranch (p : Nat → Nat → Bool) (c : CoreId) (rs1 rs2 : BitVec 5) (off : BitVec 22) (s : State) : Sem :=
  let t : Int := (s.f .CORE_PC_PC c : Int) + off.toInt
  let taken := p (s.sr c rs1) (s.sr c rs2)
  { faults := if taken then targetFaults s c t else [], need := [keyS rs1, keyS rs2], branch := true,
    ctl := if taken then .jump t.toNat else .seq }

def semNop : Sem := {}
def semAdd := semR (fun a b => a + b) 1
def semSub := semR (fun a b => a + (2 ^ 64 - b)) 1
def semAnd := semR Nat.land 1
def semOr := semR Nat.lor 1
def semXor := semR Nat.xor 1
def semSll := semR sll 1
def semSrl := semR srl 1
def semSra := semR sra 1
def semSlt := semR slt 1
def semSltu := semR sltu 1
def semMin := semR smin 1
def semMax := semR smax 1
def semMul := semR (fun a b => a * b) 3
def semMulhu := semR (fun a b => a * b / 2 ^ 64) 3
def semAddi := semI (fun a b => a + b)
def semAndi := semI Nat.land
def semOri := semI Nat.lor
def semXori := semI Nat.xor
def semSlli := semI sll
def semSrli := semI srl
def semSrai := semI sra
def semSlti := semI slt
def semLix (c : CoreId) (rd rs1 : BitVec 5) (imm : BitVec 22) (s : State) : Sem :=
  semResult c rd (lix (s.sr c rs1) imm) 1 [keyS rs1]
def semLd := semLoad 8
def semLw := semLoad 4
def semSt := semStore 8
def semSw := semStore 4
def semBeq := semBranch (fun a b => a == b)
def semBne := semBranch (fun a b => a != b)
def semBlt := semBranch (fun a b => decide (signed 64 a < signed 64 b))
def semBge := semBranch (fun a b => !decide (signed 64 a < signed 64 b))
def semBltu := semBranch (fun a b => decide (a < b))
def semBgeu := semBranch (fun a b => !decide (a < b))

/-- JAL (R76): links PC + 1, jumps by imm. -/
def semJal (c : CoreId) (rd : BitVec 5) (imm : BitVec 22) (s : State) : Sem :=
  let pc := s.f .CORE_PC_PC c
  let t : Int := (pc : Int) + imm.toInt
  { faults := targetFaults s c t, dsts := [(keyS rd, 1)], branch := true, ctl := .jump t.toNat,
    run := fun s => s.setSr c rd (pc + 1) }

/-- JR (R76): jumps to s[rs1] + imm, a 64-bit sum. -/
def semJr (c : CoreId) (rs1 : BitVec 5) (imm : BitVec 22) (s : State) : Sem :=
  let t := add64 (s.sr c rs1) (sext imm)
  { faults := targetFaults s c t, need := [keyS rs1], branch := true, ctl := .jump t }

/-- LOOP (R78): the checks of the offset, of the region, of nesting and of depth, then the loop. -/
def semLoop (c : CoreId) (rs1 : BitVec 5) (off : BitVec 22) (s : State) : Sem :=
  let pc := s.f .CORE_PC_PC c
  let last : Int := (pc : Int) + off.toInt
  let n := s.sr c rs1
  let loops := (s.core c).loops
  let nest := match loops with
    | [] => false
    | l :: _ => decide ((l.last : Int) < last)
  { faults := when_ (decide (off.toInt ≤ 0) || nest) (.illegal (encI 0x38 0 rs1 off))
      ++ when_ (decide (n ≠ 0 ∧ 4 ≤ loops.length)) ⟨0x09, 0, 0⟩
      ++ when_ (decide ((s.progPackets c : Int) ≤ last)) ⟨0x0A, unsign 32 last, 0⟩,
    need := [keyS rs1], ctl := .loop n last.toNat }

/-- TRAP (R97). -/
def semTrap (imm : BitVec 22) : Sem := { faults := [⟨0x0C, imm.toNat % 2 ^ 16, 0⟩] }

/-- HALT (R79). -/
def semHalt : Sem := { ctl := .halt }

/-- The value of shape register k of core c (R66). -/
def shapeReg (s : State) (c k : Nat) : Nat :=
  match k with
  | 0 => s.f .CORE_SHAPE_NCORE c
  | 1 => s.f .CORE_BIND_LOGICAL c
  | 2 => s.f .CORE_SHAPE_NCHIP c
  | 3 => s.f .CORE_SHAPE_MYCHIP c
  | 4 => s.f .CORE_STEP_STEP c
  | _ => (s.core c).bell

/-- RDSH (R66); imm 6, 7 or with high bits is ILLEGAL. -/
def semRdsh (c : CoreId) (rd : BitVec 5) (imm : BitVec 22) (s : State) : Sem :=
  { faults := when_ (decide (5 < imm.toNat)) (.illegal (encI 0x40 rd 0 imm)), dsts := [(keyS rd, 1)],
    run := fun t => t.setSr c rd (shapeReg s c imm.toNat) }

/-- WAITE (R65, R80): waits until the counter holds n, then subtracts n. -/
def semWaite (c : CoreId) (e : BitVec 4) (rs1 : BitVec 5) (imm : BitVec 22) (s : State) : Sem :=
  let n := add64 (s.sr c rs1) (sext imm)
  let i := 16 * c.val + e.toNat
  { faults := when_ (decide (n = 0 ∨ 0xFFFF < n)) ⟨0x05, n % 2 ^ 32, 0⟩, need := [keyS rs1],
    wait := if n ≤ s.f .CORE_EVT_COUNT i then 0 else 1,
    run := fun s => s.setF .CORE_EVT_COUNT i (s.f .CORE_EVT_COUNT i - n) }

/-- EVSEND (R81): a count for the core with logical number s[rs1] leaves. -/
def semEvsend (c : CoreId) (e : BitVec 4) (rs1 : BitVec 5) (s : State) : Sem :=
  let l := s.sr c rs1
  { faults := when_ (decide (s.f .CORE_SHAPE_NCORE c ≤ l)) ⟨0x0D, l % 2 ^ 32, 0⟩, need := [keyS rs1],
    run := fun s => match s.physical l with
      | some d => { s with evFlight := s.evFlight ++ [⟨c, d, e.toNat⟩] }
      | none => s }

/-- EVREAD (03, scalar slot table). -/
def semEvread (c : CoreId) (rd : BitVec 5) (e : BitVec 4) (s : State) : Sem :=
  semResult c rd (s.f .CORE_EVT_COUNT (16 * c.val + e.toNat)) 2 []

/-- The granule checks of WAITP and PCLR (R82, R84): local address a, granule count n as signed. -/
def granuleFaults (s : State) (c a : Nat) (n : Int) : List FaultRec :=
  when_ (decide (0 < n) && s.badWrite c a (n.toNat * 512)) (.range a) ++ when_ (decide (a % 512 ≠ 0)) (.misalign a)
    ++ when_ (decide (n ≤ 0)) ⟨0x05, unsign 32 n, 0⟩

/-- Whether n granules from granule g of core c all have their tags set. -/
def Core.present (k : Core) (g n : Nat) : Bool := (List.range n).all (fun i => bit (k.tag (g + i)) 0)

/-- WAITP (R82). -/
def semWaitp (c : CoreId) (rs1 : BitVec 5) (imm : BitVec 22) (s : State) : Sem :=
  let a := s.sr c rs1
  { faults := granuleFaults s c a imm.toInt, need := [keyS rs1],
    wait := if (s.core c).present (a / 512) imm.toInt.toNat then 0 else 2 }

/-- BELLWAIT (R85). When the pulse of the named bell releases it, `released` is set and no late bell counts. -/
def semBellwait (released : Bool) (c : CoreId) (rs1 : BitVec 5) (imm : BitVec 22) (s : State) : Sem :=
  let b := add64 (s.sr c rs1) (sext imm)
  { need := [keyS rs1], wait := if (s.core c).bell < b then 3 else 0,
    run := fun s =>
      let t := s.modCore c (fun k => { k with lastWait := b })
      if released then t else (t.bump .CORE_LATE_BELLS c).pmc c 0x10 }

/-- STEPINC (R86). -/
def semStepinc (c : CoreId) : Sem :=
  { run := fun s => (s.setF .CORE_STEP_STEP c (s.f .CORE_STEP_STEP c + 1)).stepCheck }

/-- NOP, as a packet of one slot. -/
def execNop (c : CoreId) (s : State) : Out := one c 0 (.nop c) (semNop) s

/-- ADD, as a packet of one slot. -/
def execAdd (c : CoreId) (rd rs1 rs2 : BitVec 5) (s : State) : Out := one c 0 (.add c rd rs1 rs2) (semAdd c rd rs1 rs2 s) s

/-- SUB, as a packet of one slot. -/
def execSub (c : CoreId) (rd rs1 rs2 : BitVec 5) (s : State) : Out := one c 0 (.sub c rd rs1 rs2) (semSub c rd rs1 rs2 s) s

/-- AND, as a packet of one slot. -/
def execAnd (c : CoreId) (rd rs1 rs2 : BitVec 5) (s : State) : Out := one c 0 (.and c rd rs1 rs2) (semAnd c rd rs1 rs2 s) s

/-- OR, as a packet of one slot. -/
def execOr (c : CoreId) (rd rs1 rs2 : BitVec 5) (s : State) : Out := one c 0 (.or c rd rs1 rs2) (semOr c rd rs1 rs2 s) s

/-- XOR, as a packet of one slot. -/
def execXor (c : CoreId) (rd rs1 rs2 : BitVec 5) (s : State) : Out := one c 0 (.xor c rd rs1 rs2) (semXor c rd rs1 rs2 s) s

/-- SLL, as a packet of one slot. -/
def execSll (c : CoreId) (rd rs1 rs2 : BitVec 5) (s : State) : Out := one c 0 (.sll c rd rs1 rs2) (semSll c rd rs1 rs2 s) s

/-- SRL, as a packet of one slot. -/
def execSrl (c : CoreId) (rd rs1 rs2 : BitVec 5) (s : State) : Out := one c 0 (.srl c rd rs1 rs2) (semSrl c rd rs1 rs2 s) s

/-- SRA, as a packet of one slot. -/
def execSra (c : CoreId) (rd rs1 rs2 : BitVec 5) (s : State) : Out := one c 0 (.sra c rd rs1 rs2) (semSra c rd rs1 rs2 s) s

/-- SLT, as a packet of one slot. -/
def execSlt (c : CoreId) (rd rs1 rs2 : BitVec 5) (s : State) : Out := one c 0 (.slt c rd rs1 rs2) (semSlt c rd rs1 rs2 s) s

/-- SLTU, as a packet of one slot. -/
def execSltu (c : CoreId) (rd rs1 rs2 : BitVec 5) (s : State) : Out := one c 0 (.sltu c rd rs1 rs2) (semSltu c rd rs1 rs2 s) s

/-- MIN, as a packet of one slot. -/
def execMin (c : CoreId) (rd rs1 rs2 : BitVec 5) (s : State) : Out := one c 0 (.min c rd rs1 rs2) (semMin c rd rs1 rs2 s) s

/-- MAX, as a packet of one slot. -/
def execMax (c : CoreId) (rd rs1 rs2 : BitVec 5) (s : State) : Out := one c 0 (.max c rd rs1 rs2) (semMax c rd rs1 rs2 s) s

/-- MUL, as a packet of one slot. -/
def execMul (c : CoreId) (rd rs1 rs2 : BitVec 5) (s : State) : Out := one c 0 (.mul c rd rs1 rs2) (semMul c rd rs1 rs2 s) s

/-- MULHU, as a packet of one slot. -/
def execMulhu (c : CoreId) (rd rs1 rs2 : BitVec 5) (s : State) : Out := one c 0 (.mulhu c rd rs1 rs2) (semMulhu c rd rs1 rs2 s) s

/-- ADDI, as a packet of one slot. -/
def execAddi (c : CoreId) (rd rs1 : BitVec 5) (imm : BitVec 22) (s : State) : Out := one c 0 (.addi c rd rs1 imm) (semAddi c rd rs1 imm s) s

/-- ANDI, as a packet of one slot. -/
def execAndi (c : CoreId) (rd rs1 : BitVec 5) (imm : BitVec 22) (s : State) : Out := one c 0 (.andi c rd rs1 imm) (semAndi c rd rs1 imm s) s

/-- ORI, as a packet of one slot. -/
def execOri (c : CoreId) (rd rs1 : BitVec 5) (imm : BitVec 22) (s : State) : Out := one c 0 (.ori c rd rs1 imm) (semOri c rd rs1 imm s) s

/-- XORI, as a packet of one slot. -/
def execXori (c : CoreId) (rd rs1 : BitVec 5) (imm : BitVec 22) (s : State) : Out := one c 0 (.xori c rd rs1 imm) (semXori c rd rs1 imm s) s

/-- SLLI, as a packet of one slot. -/
def execSlli (c : CoreId) (rd rs1 : BitVec 5) (imm : BitVec 22) (s : State) : Out := one c 0 (.slli c rd rs1 imm) (semSlli c rd rs1 imm s) s

/-- SRLI, as a packet of one slot. -/
def execSrli (c : CoreId) (rd rs1 : BitVec 5) (imm : BitVec 22) (s : State) : Out := one c 0 (.srli c rd rs1 imm) (semSrli c rd rs1 imm s) s

/-- SRAI, as a packet of one slot. -/
def execSrai (c : CoreId) (rd rs1 : BitVec 5) (imm : BitVec 22) (s : State) : Out := one c 0 (.srai c rd rs1 imm) (semSrai c rd rs1 imm s) s

/-- SLTI, as a packet of one slot. -/
def execSlti (c : CoreId) (rd rs1 : BitVec 5) (imm : BitVec 22) (s : State) : Out := one c 0 (.slti c rd rs1 imm) (semSlti c rd rs1 imm s) s

/-- LIX, as a packet of one slot. -/
def execLix (c : CoreId) (rd rs1 : BitVec 5) (imm : BitVec 22) (s : State) : Out := one c 0 (.lix c rd rs1 imm) (semLix c rd rs1 imm s) s

/-- LD, as a packet of one slot. -/
def execLd (c : CoreId) (rd rs1 : BitVec 5) (imm : BitVec 22) (s : State) : Out := one c 0 (.ld c rd rs1 imm) (semLd c rd rs1 imm s) s

/-- LW, as a packet of one slot. -/
def execLw (c : CoreId) (rd rs1 : BitVec 5) (imm : BitVec 22) (s : State) : Out := one c 0 (.lw c rd rs1 imm) (semLw c rd rs1 imm s) s

/-- ST, as a packet of one slot. -/
def execSt (c : CoreId) (rd rs1 : BitVec 5) (imm : BitVec 22) (s : State) : Out := one c 0 (.st c rd rs1 imm) (semSt c rd rs1 imm s) s

/-- SW, as a packet of one slot. -/
def execSw (c : CoreId) (rd rs1 : BitVec 5) (imm : BitVec 22) (s : State) : Out := one c 0 (.sw c rd rs1 imm) (semSw c rd rs1 imm s) s

/-- BEQ, as a packet of one slot. -/
def execBeq (c : CoreId) (rs1 rs2 : BitVec 5) (off : BitVec 22) (s : State) : Out := one c 0 (.beq c rs1 rs2 off) (semBeq c rs1 rs2 off s) s

/-- BNE, as a packet of one slot. -/
def execBne (c : CoreId) (rs1 rs2 : BitVec 5) (off : BitVec 22) (s : State) : Out := one c 0 (.bne c rs1 rs2 off) (semBne c rs1 rs2 off s) s

/-- BLT, as a packet of one slot. -/
def execBlt (c : CoreId) (rs1 rs2 : BitVec 5) (off : BitVec 22) (s : State) : Out := one c 0 (.blt c rs1 rs2 off) (semBlt c rs1 rs2 off s) s

/-- BGE, as a packet of one slot. -/
def execBge (c : CoreId) (rs1 rs2 : BitVec 5) (off : BitVec 22) (s : State) : Out := one c 0 (.bge c rs1 rs2 off) (semBge c rs1 rs2 off s) s

/-- BLTU, as a packet of one slot. -/
def execBltu (c : CoreId) (rs1 rs2 : BitVec 5) (off : BitVec 22) (s : State) : Out := one c 0 (.bltu c rs1 rs2 off) (semBltu c rs1 rs2 off s) s

/-- BGEU, as a packet of one slot. -/
def execBgeu (c : CoreId) (rs1 rs2 : BitVec 5) (off : BitVec 22) (s : State) : Out := one c 0 (.bgeu c rs1 rs2 off) (semBgeu c rs1 rs2 off s) s

/-- JAL, as a packet of one slot. -/
def execJal (c : CoreId) (rd : BitVec 5) (imm : BitVec 22) (s : State) : Out := one c 0 (.jal c rd imm) (semJal c rd imm s) s

/-- JR, as a packet of one slot. -/
def execJr (c : CoreId) (rs1 : BitVec 5) (imm : BitVec 22) (s : State) : Out := one c 0 (.jr c rs1 imm) (semJr c rs1 imm s) s

/-- LOOP, as a packet of one slot. -/
def execLoop (c : CoreId) (rs1 : BitVec 5) (off : BitVec 22) (s : State) : Out := one c 0 (.loop c rs1 off) (semLoop c rs1 off s) s

/-- TRAP, as a packet of one slot. -/
def execTrap (c : CoreId) (imm : BitVec 22) (s : State) : Out := one c 0 (.trap c imm) (semTrap imm) s

/-- HALT, as a packet of one slot. -/
def execHalt (c : CoreId) (s : State) : Out := one c 0 (.halt c) (semHalt) s

/-- RDSH, as a packet of one slot. -/
def execRdsh (c : CoreId) (rd : BitVec 5) (imm : BitVec 22) (s : State) : Out := one c 0 (.rdsh c rd imm) (semRdsh c rd imm s) s

/-- WAITE, as a packet of one slot. -/
def execWaite (c : CoreId) (e : BitVec 4) (rs1 : BitVec 5) (imm : BitVec 22) (s : State) : Out := one c 0 (.waite c e rs1 imm) (semWaite c e rs1 imm s) s

/-- EVSEND, as a packet of one slot. -/
def execEvsend (c : CoreId) (e : BitVec 4) (rs1 : BitVec 5) (s : State) : Out := one c 0 (.evsend c e rs1) (semEvsend c e rs1 s) s

/-- EVREAD, as a packet of one slot. -/
def execEvread (c : CoreId) (rd : BitVec 5) (e : BitVec 4) (s : State) : Out := one c 0 (.evread c rd e) (semEvread c rd e s) s

/-- WAITP, as a packet of one slot. -/
def execWaitp (c : CoreId) (rs1 : BitVec 5) (imm : BitVec 22) (s : State) : Out := one c 0 (.waitp c rs1 imm) (semWaitp c rs1 imm s) s

/-- BELLWAIT, as a packet of one slot. -/
def execBellwait (c : CoreId) (rs1 : BitVec 5) (imm : BitVec 22) (s : State) : Out := one c 0 (.bellwait c rs1 imm) (semBellwait false c rs1 imm s) s

/-- STEPINC, as a packet of one slot. -/
def execStepinc (c : CoreId) (s : State) : Out := one c 0 (.stepinc c) (semStepinc c) s

end Sys2Proof.Machine
end

