-- ==== Sys2Proof/Machine/Porter.lean ====
section
/-!
DEFINITION. PCLR and RELEASE (R83, R84), the porter instructions (R89-R92, R244-R249) and the rows of their completion.
-/
namespace Sys2Proof.Machine

/-! ### PCLR and RELEASE -/

/-- PCLR (R84): frames held for a cleared granule are written (R225). -/
def semPclr (c : CoreId) (rs1 : BitVec 5) (imm : BitVec 22) (s : State) : Sem :=
  let a := s.sr c rs1
  { faults := granuleFaults s c a imm.toInt, need := [keyS rs1],
    run := fun s => s.clearTags c (a / 512) imm.toInt.toNat }

/-- The logical number of core c when it is bound. -/
def State.logical (s : State) (c : Nat) : Option Nat := if s.bound c then some (s.f .CORE_BIND_LOGICAL c) else none

/-- A flow handle's link and flow (R83); none when bits [63:18] are not zero. -/
def handleOf (h : Nat) : Option (Nat × Nat) := if h < 2 ^ 18 then some (h / 2 ^ 12, h % 2 ^ 12) else none

/-- Whether core c may release the flow a handle names, or GET on it (R83, R244). -/
def State.ownsRx (s : State) (c h : Nat) : Bool :=
  match handleOf h, s.logical c with
  | some (n, f), some l => s.boundRx l n f
  | _, _ => false

/-- Whether core c may PUT (kind 1) or ACC (kind 2) on the flow a handle names, by its descriptor in the set in force (R244). -/
def State.ownsTx (s : State) (c h kind : Nat) : Bool :=
  match handleOf h, s.logical c with
  | some (n, f), some l =>
    match s.txDesc n f with
    | some d => dKind d == kind && !dTrig d && dCore d == l
    | none => false
  | _, _ => false

/-- A FLOW fault on a handle (R97). -/
def FaultRec.flow (h : Nat) : FaultRec := ⟨0x06, h % 2 ^ 32, 0⟩

/-- RELEASE (R83). -/
def semRelease (c : CoreId) (rs1 : BitVec 5) (s : State) : Sem :=
  let h := s.sr c rs1
  { faults := when_ (!s.ownsRx c h) (.flow h), need := [keyS rs1],
    run := fun s => s.release c (h / 2 ^ 12) (h % 2 ^ 12) }

/-! ### PUT, GET, ACC, ATOM -/

/-- Whether an open operation on a chip may be issued: its own chip, or a valid route and the chip in the job's open map (R89, R90,
R237; log entry 33). -/
def State.openTo (s : State) (chip : Nat) : Bool := chip == s.chipAddr || ((s.routeOf chip).isSome && s.opn.openMap.contains chip)

/-- The size of an ATOM's DT (R90). -/
def atomSize (dt : Nat) : Nat := if dt = 3 then 8 else 4

/-- The operation of a porter instruction: its entry before it is placed (R89-R92). -/
def portOf (s : State) (c : Nat) (kind : PortKind) (dt : BitVec 4) (even : Bool) (ev : BitVec 4) (rn rr rl : BitVec 5) (b : Bool) : PortOp :=
  let rem := s.sr c rr
  let atom := kind = .atomAdd ∨ kind = .atomMax ∨ kind = .atomCas
  { gen := 0, kind := kind, dt := dt.toNat, booked := !b, link := rem / 2 ^ 12 % 64, flow := rem % 2 ^ 12,
    chip := rem / 2 ^ 44 % 2 ^ 15, remote := rem % 2 ^ 44, local_ := s.sr c (if atom then rn else rl),
    len := if atom then atomSize dt.toNat else s.sr c rn, val := s.sr c rl, val2 := s.sr c (rl + 1),
    discard := decide (atom ∧ rn = 0), ev := if even then some ev.toNat else none, issued := 0, due := 0, sent := none,
    readDone := false, locDone := false }

/-- The faults of an open operation (R90, R249). -/
def openFaults (s : State) (c rem : Nat) (o : PortOp) : List FaultRec :=
  let atom := o.kind = .atomAdd ∨ o.kind = .atomMax ∨ o.kind = .atomCas
  let land := o.kind = .get ∨ atom
  when_ (decide (¬atom ∧ (o.len % 4 ≠ 0 ∨ o.len < 4 ∨ 8192 < o.len ∨ (o.kind = .acc ∧ o.dt = 4 ∧ o.len % 12 ≠ 0)))) ⟨0x08, o.len % 2 ^ 32, 0⟩
    ++ when_ (decide (o.local_ % 4 ≠ 0) && !o.discard) (.misalign o.local_)
    ++ when_ (decide (o.remote % (if atom then o.len else 4) ≠ 0)) (.misalign rem)
    ++ when_ (!o.discard && (if land then s.badWrite c o.local_ o.len else leavesStore o.local_ o.len)) (.range o.local_)
    ++ when_ (decide (2 ^ 59 ≤ rem) || !s.openTo o.chip) ⟨0x07, 0, rem⟩

/-- The faults of a booked operation (R90, R244): the handle's, and those of an ATOM's address for the old value, which is as for B = 1. -/
def bookedFaults (s : State) (c h : Nat) (o : PortOp) : List FaultRec :=
  let old := (o.kind == .atomAdd || o.kind == .atomMax || o.kind == .atomCas) && !o.discard
  when_ (!(match o.kind with
    | .put => s.ownsTx c h kPut
    | .acc => s.ownsTx c h kAcc
    | .get => s.ownsRx c h
    | _ => false)) (.flow h)
    ++ when_ (old && decide (o.local_ % 4 ≠ 0)) (.misalign o.local_) ++ when_ (old && s.badWrite c o.local_ o.len) (.range o.local_)

/-- Whether DT and SUB are listed for an operation, and its registers as the table requires (03; R90). -/
def portListed (kind : PortKind) (dt : BitVec 4) (sub : BitVec 3) (rn rl : BitVec 5) (b : Bool) : Bool :=
  match kind with
  | .put => dt == 0 && sub == 0 && (b || (rn == 0 && rl == 0))
  | .get => dt == 0 && sub == 0 && (b || (rn == 0 && rl == 0))
  | .acc => (dt == 0 || dt == 1 || dt == 2 || dt == 4) && sub == 0 && (b || (rn == 0 && rl == 0))
  | .atomCas => (dt == 0 || dt == 2 || dt == 3) && decide (sub.toNat ≤ 2) && rl != 31
  | _ => (dt == 0 || dt == 2 || dt == 3) && decide (sub.toNat ≤ 2)

/-- Place an operation in the porter, and start it: an open one leaves when its queue takes it; a PUT or ACC waits in its flow; a GET
whose slot holds a whole vector reaches its completion four cycles after its issue (R91, R245, R247). -/
def State.portIssue (s : State) (c : Nat) (o : PortOp) : State :=
  match firstBelow portCap (fun i => ((s.core c).port i).isNone) with
  | none => s
  | some i =>
    let s1 := (s.bump .PRT_CNT_OPS_COUNT c).pmc c 0x0E
    let k := (s1.core c).newGen i
    let x := s1.rflow o.link o.flow
    let have_ := o.booked && o.kind == .get && bit x.whole x.rel
    let p := { o with gen := Map.get 0 k.gens i, issued := k.issued, due := if have_ then k.issued + 4 else 0, readDone := have_ }
    let s2 := s1.setCore c (k.setPort i (some p))
    if o.booked = false then s2.sendOps c
    else if o.kind = .get then s2
    else s2.setTflow o.link o.flow { s2.tflow o.link o.flow with puts := (s2.tflow o.link o.flow).puts ++ [(c, i)] }

/-- A porter instruction (R89-R92). -/
def semPort (opc : Nat) (kind : PortKind) (c : CoreId) (dt : BitVec 4) (sub : BitVec 3) (even : Bool) (ev : BitVec 4)
    (rn rr rl : BitVec 5) (b : Bool) (s : State) : Sem :=
  let o := portOf s c kind dt even ev rn rr rl b
  { faults := when_ (!portListed kind dt sub rn rl b) (.illegal (encPorter opc dt sub even ev rn rr rl b))
      ++ (if b then openFaults s c (s.sr c rr) o else bookedFaults s c (s.sr c rr) o),
    need := [keyS rn, keyS rr, keyS rl] ++ when_ (decide (kind = .atomCas)) (keyS (rl + 1)),
    wait := if portCap ≤ (s.core c).inflight then 4 else 0,
    run := fun s => s.portIssue c o }

/-- PUT. -/
def semPut (c : CoreId) (dt : BitVec 4) (sub : BitVec 3) (even : Bool) (ev : BitVec 4) (rn rr rl : BitVec 5) (b : Bool) :=
  semPort 0x40 .put c dt sub even ev rn rr rl b

/-- GET. -/
def semGet (c : CoreId) (dt : BitVec 4) (sub : BitVec 3) (even : Bool) (ev : BitVec 4) (rn rr rl : BitVec 5) (b : Bool) :=
  semPort 0x41 .get c dt sub even ev rn rr rl b

/-- ACC. -/
def semAcc (c : CoreId) (dt : BitVec 4) (sub : BitVec 3) (even : Bool) (ev : BitVec 4) (rn rr rl : BitVec 5) (b : Bool) :=
  semPort 0x42 .acc c dt sub even ev rn rr rl b

/-- ATOM: SUB 0 ADD, 1 MAX, 2 CAS; any other is unlisted. -/
def semAtom (c : CoreId) (dt : BitVec 4) (sub : BitVec 3) (even : Bool) (ev : BitVec 4) (rn rr rl : BitVec 5) (b : Bool) :=
  semPort 0x43 (if sub = 2 then .atomCas else if sub = 1 then .atomMax else .atomAdd) c dt sub even ev rn rr rl b

/-- PCLR, as a packet of one slot. -/
def execPclr (c : CoreId) (rs1 : BitVec 5) (imm : BitVec 22) (s : State) : Out := one c 0 (.pclr c rs1 imm) (semPclr c rs1 imm s) s

/-- RELEASE, as a packet of one slot. -/
def execRelease (c : CoreId) (rs1 : BitVec 5) (s : State) : Out := one c 0 (.release c rs1) (semRelease c rs1 s) s

/-- PUT, as a packet of one slot. -/
def execPut (c : CoreId) (dt : BitVec 4) (sub : BitVec 3) (even : Bool) (ev : BitVec 4) (rn rr rl : BitVec 5) (b : Bool) (s : State) : Out :=
  one c 2 (.put c dt sub even ev rn rr rl b) (semPut c dt sub even ev rn rr rl b s) s

/-- GET, as a packet of one slot. -/
def execGet (c : CoreId) (dt : BitVec 4) (sub : BitVec 3) (even : Bool) (ev : BitVec 4) (rn rr rl : BitVec 5) (b : Bool) (s : State) : Out :=
  one c 2 (.get c dt sub even ev rn rr rl b) (semGet c dt sub even ev rn rr rl b s) s

/-- ACC, as a packet of one slot. -/
def execAcc (c : CoreId) (dt : BitVec 4) (sub : BitVec 3) (even : Bool) (ev : BitVec 4) (rn rr rl : BitVec 5) (b : Bool) (s : State) : Out :=
  one c 2 (.acc c dt sub even ev rn rr rl b) (semAcc c dt sub even ev rn rr rl b s) s

/-- ATOM, as a packet of one slot. -/
def execAtom (c : CoreId) (dt : BitVec 4) (sub : BitVec 3) (even : Bool) (ev : BitVec 4) (rn rr rl : BitVec 5) (b : Bool) (s : State) : Out :=
  one c 2 (.atom c dt sub even ev rn rr rl b) (semAtom c dt sub even ev rn rr rl b s) s

/-- PORTER_LOCAL_COMPLETE (R92): the oldest operation of core c that has reached its local completion. -/
def execPorterLocalComplete (c : CoreId) (s : State) : Out :=
  match (s.core c).ops.find? (fun x => x.2.readDone && !x.2.locDone && decide (x.2.due ≤ (s.core c).elapsed)) with
  | some x => .next (s.opLocal c x.1 x.2)
  | none => .next s

/-! ### The open market -/

/-- The oldest packet of a class that has reached this chip, and the state without it. -/
def State.takeArrived (s : State) (cls : Nat) : Option (OpenPkt × State) :=
  (s.opn.arrived.find? (fun p => p.cls == cls)).map (fun p => (p, { s with opn := { s.opn with arrived := s.opn.arrived.erase p } }))

/-- OPEN_REQUEST_ARRIVAL (R250, R254). -/
def execOpenRequestArrival (s : State) : Out :=
  match s.takeArrived clsReq with
  | some (p, t) => .next (t.serveRequest p)
  | none => .next s

/-- OPEN_REPLY_ARRIVAL (R251). -/
def execOpenReplyArrival (s : State) : Out :=
  match s.takeArrived clsRpl with
  | some (p, t) => .next ((t.returnCredit p).reply p)
  | none => .next s

/-- OPEN_TIMEOUT (R252). -/
def execOpenTimeout (c : CoreId) (s : State) : Out := .next (s.timeout c)

/-- OPEN_PACKET_START (R239): what the porters hold back for the queue may follow (R241). -/
def execOpenPacketStart (n : LinkId) (cls : Fin 3) (s : State) : Out :=
  .next (s.startPacket n cls).pumpAll

/-- Start or end throttling of one queue by its depth (R241). -/
def State.throttle (s : State) (n cls : Nat) : State :=
  let b := s.queueBytes n cls
  let on := bit (s.link n).throttled cls
  let put := fun (t : State) (v : Bool) => t.modLink n (fun l => { l with throttled := setBit l.throttled cls v })
  if !on && decide (s.opn.thrOn * 1024 ≤ b) then (put s true).bump .OPN_CNT_THROTTLE_COUNT
  else if on && decide (b ≤ s.opn.thrOff * 1024) then put s false
  else s

/-- THROTTLE_CHECK (R241): the pair is checked, then every queue. -/
def execThrottleCheck (s : State) : Out :=
  let a := s.f .OPN_THROTTLE_ON
  let b := s.f .OPN_THROTTLE_OFF
  let s1 := if b < a then { s with opn := { s.opn with thrOn := a, thrOff := b } } else s.setF .OPN_STATUS_CFG_MISMATCH 0 1
  let s2 := upto 64 (fun n s => upto 3 (fun c s => s.throttle n c) s) s1
  let s3 := s2.setF .OPN_STATUS_THROTTLING 0 (b2n ((List.range 64).any (fun n => (s2.link n).throttled != 0)))
  .next s3.pumpAll

end Sys2Proof.Machine
end

