-- ==== Sys2Proof/Machine/Trans.lean ====
section
/-!
DEFINITION. The transcendental functions (R152): the exact value rounded once, found as the reference algorithm of R152 does,
by bounds at 64, 128 and 256 bits. A bound pair is two integers over a power of two; p below is the working scale, and each
routine takes outward rounding that covers its truncations.
-/
namespace Sys2Proof.Machine

/-- Bounds lo * 2^e and hi * 2^e of a positive value. -/
structure Bnd where
  lo : Nat
  hi : Nat
  e : Int
  deriving DecidableEq, Repr

/-- The product of two positive bounds. -/
def Bnd.mul (a b : Bnd) : Bnd := ⟨a.lo * b.lo, a.hi * b.hi, a.e + b.e⟩

/-- The quotient of two positive bounds, with p + 256 fraction bits. -/
def Bnd.div (p : Nat) (a b : Bnd) : Bnd :=
  ⟨a.lo * 2 ^ (p + 256) / b.hi, ceilDiv (a.hi * 2 ^ (p + 256)) b.lo, a.e - b.e - (p + 256 : Nat)⟩

/-- Sum of the Taylor terms y^n / n! of e^y from term n with value t, y < 2^p / 256 at scale p. -/
def expTerms (p y : Nat) : Nat → Nat → Nat → Nat
  | 0, _, _ => 0
  | k + 1, n, t => t + expTerms p y k (n + 1) (t * y / (2 ^ p * (n + 1)))

/-- Square a bound at scale p, j times. -/
def sqTimes (p : Nat) : Nat → Nat × Nat → Nat × Nat
  | 0, b => b
  | j + 1, b => sqTimes p j (b.1 * b.1 / 2 ^ p, ceilDiv (b.2 * b.2) (2 ^ p))

/-- The floor of m * 2^e at scale p. -/
def fixed (p m : Nat) (e : Int) : Nat :=
  let k := e + (p : Int)
  if 0 ≤ k then m * 2 ^ k.toNat else m / 2 ^ (-k).toNat

/-- Bounds of e^x for 0 ≤ x = m * 2^e < 256: e^(x / 2^16), squared 16 times. -/
def expPos (p m : Nat) (e : Int) : Bnd :=
  let y := fixed p m (e - 16)
  let l := expTerms p y 48 0 (2 ^ p)
  let b := sqTimes p 16 (l, l + 128)
  ⟨b.1, b.2, -(p : Int)⟩

/-- Bounds of e^(-x) for such an x. -/
def expNeg (p m : Nat) (e : Int) : Bnd := Bnd.div p ⟨1, 1, 0⟩ (expPos p m e)

/-- Terms z^(2n+1) / (2n+1), with z2 = z^2 at scale p. -/
def atanhTerms (p z2 : Nat) : Nat → Nat → Nat → Nat
  | 0, _, _ => 0
  | k + 1, n, t => t / (2 * n + 1) + atanhTerms p z2 k (n + 1) (t * z2 / 2 ^ p)

/-- A lower bound of atanh(a / b) at scale p, for 0 ≤ a / b ≤ 1/3; the value lies within 4 k + 8 units above it, k the terms. -/
def atanhLo (p a b : Nat) : Nat :=
  let z := a * 2 ^ p / b
  atanhTerms p (z * z / 2 ^ p) p 0 z

/-- Units that cover the truncations of `atanhLo` at scale p. -/
def atanhErr (p : Nat) : Nat := 4 * p + 8

/-- Bounds of ln x for x = m * 2^e > 0, as signed integers at scale p. -/
def lnBounds (p m : Nat) (e : Int) : Int × Int :=
  let k0 := (Nat.log2 m : Int)
  -- x = f * 2^k with f = m / 2^j in [3/4, 3/2)
  let up := decide (m * 2 ≥ 3 * 2 ^ (Nat.log2 m))
  let j := if up then Nat.log2 m + 1 else Nat.log2 m
  let k : Int := e + k0 + (if up then 1 else 0)
  let d := 2 ^ j
  let ln2 := (2 * atanhLo p 1 3 : Nat)
  let er := 2 * atanhErr p
  -- ln f = 2 atanh ((m - d) / (m + d))
  let f : Int × Int :=
    if d ≤ m then
      let l := 2 * atanhLo p (m - d) (m + d)
      ((l : Int), (l + er : Nat))
    else
      let l := 2 * atanhLo p (d - m) (m + d)
      (-((l + er : Nat) : Int), -(l : Int))
  if 0 ≤ k then (f.1 + k * ln2, f.2 + k * (ln2 + er : Nat)) else (f.1 + k * (ln2 + er : Nat), f.2 + k * ln2)

/-- Alternating terms of atan(1/q) at scale p, from term n; the sign alternates with the parity of n. -/
def atanTerms (q : Nat) : Nat → Nat → Nat → Int
  | 0, _, _ => 0
  | k + 1, n, t =>
    (if n % 2 = 0 then ((t / (2 * n + 1) : Nat) : Int) else -((t / (2 * n + 1) : Nat) : Int))
      + atanTerms q k (n + 1) (t / (q * q))

/-- Bounds of π at scale p (Machin's formula). -/
def piBounds (p : Nat) : Bnd :=
  let a := 16 * atanTerms 5 p 0 (2 ^ p / 5) - 4 * atanTerms 239 p 0 (2 ^ p / 239)
  let er := 40 * p + 64
  ⟨a.toNat - er, a.toNat + er, -(p : Int)⟩

/-- Terms of Σ 2^n x^(2n) / (2n+1)!! with x2 the square of x at scale p, from term n with value t. -/
def erfTerms (p x2 : Nat) : Nat → Nat → Nat → Nat
  | 0, _, _ => 0
  | k + 1, n, t => t + erfTerms p x2 k (n + 1) (t * (2 * x2) / (2 ^ p * (2 * n + 3)))

/-- Bounds of erf x for 0 < x = m * 2^e < 8: (2 / √π) e^(-x²) x Σ 2^n x^(2n) / (2n+1)!!. -/
def erfPos (p m : Nat) (e : Int) : Bnd :=
  let x2 := fixed p (m * m) (2 * e)
  let n := 2 * p + 256
  let sl := erfTerms p x2 n 0 (2 ^ p)
  let sh := erfTerms p (x2 + 1) n 0 (2 ^ p) + n + 8
  let sh' := sh + sh * n / 2 ^ (p - 8)
  let pb := piBounds p
  let rl := isqrt (pb.lo * 2 ^ p)
  let rh := isqrt (pb.hi * 2 ^ p) + 1
  Bnd.div p (Bnd.mul (Bnd.mul ⟨2 * m, 2 * m, e⟩ ⟨sl, sh', -(p : Int)⟩) (expNeg p (m * m) (2 * e))) ⟨rl, rh, -(p : Int)⟩

/-- Round both ends of a bound; some code when they agree. -/
def agree (f : Fmt) (neg : Bool) (b : Bnd) : Option Nat :=
  let l := f.rne (.fin neg b.lo b.e)
  let h := f.rne (.fin neg b.hi b.e)
  if l = h then some l else none

/-- The loop of R152: the bounds at 64, 128 and 256 bits. By R152 it ends by p = 256. -/
def refLoop (f : Fmt) (neg : Bool) (b : Nat → Bnd) : Nat :=
  ((agree f neg (b 128)).orElse fun _ => (agree f neg (b 192)).orElse fun _ => agree f neg (b 320)).getD
    (f.rne (.fin neg (b 320).lo (b 320).e))

/-- Bounds just below 1: 1 - 2^-100 to 1. -/
def nearOne : Bnd := ⟨2 ^ 100 - 1, 2 ^ 100, -100⟩

/-- Whether m * 2^e ≥ 2^k. -/
def atLeast (m : Nat) (e k : Int) : Bool := m != 0 && decide (k ≤ (Nat.log2 m : Int) + e)

/-- VEXP (R152). -/
def vExp (f : Fmt) : FVal → Nat
  | .nan => f.nanCode
  | .inf false => f.rne (.inf false)
  | .inf true => 0
  | .fin neg m e =>
    if m = 0 then f.rne (.pow2 0)
    else if atLeast m e 7 then (if neg then f.rne (.fin false 1 (-200)) else f.rne (.fin false 1 200))
    else refLoop f false (fun p => if neg then expNeg p m e else expPos p m e)

/-- VLOG (R152). -/
def vLog (f : Fmt) : FVal → Nat
  | .nan => f.nanCode
  | .inf false => f.rne (.inf false)
  | .inf true => f.nanCode
  | .fin neg m e =>
    if m = 0 then f.rne (.inf true)
    else if neg then f.nanCode
    else if FVal.eq (.fin false m e) (.pow2 0) then 0
    else
      let neg' := decide ((lnBounds 320 m e).2 < 0)
      refLoop f neg' (fun p =>
        let b := lnBounds p m e
        if neg' then ⟨b.2.natAbs, b.1.natAbs, -(p : Int)⟩ else ⟨b.1.toNat, b.2.toNat, -(p : Int)⟩)

/-- VRSQRT (R152). -/
def vRsqrt (f : Fmt) : FVal → Nat
  | .nan => f.nanCode
  | .inf false => 0
  | .inf true => f.nanCode
  | .fin neg m e =>
    if m = 0 then f.rne (.inf neg)
    else if neg then f.nanCode
    else
      let h := if e % 2 = 0 then e else e - 1
      let m' := if e % 2 = 0 then m else 2 * m
      refLoop f false (fun p =>
        let r := isqrt (2 ^ (2 * (p + Nat.log2 m')) / m')
        ⟨r, if r * r * m' = 2 ^ (2 * (p + Nat.log2 m')) then r else r + 1, -(h / 2) - (p + Nat.log2 m' : Nat)⟩)

/-- VTANH (R152): (E - 1) / (E + 1) with E = e^(2x); below 2^-13 between x - x^3 and x. -/
def vTanh (f : Fmt) : FVal → Nat
  | .nan => f.nanCode
  | .inf neg => f.rne (.fin neg 1 0)
  | .fin neg m e =>
    if m = 0 then f.signBit neg
    else if atLeast m e 6 then refLoop f neg (fun _ => nearOne)
    else if !atLeast m e (-13) then
      -- x - x^3 and x over 2^(3 e): m * 2^(-2 e) - m^3
      let k := (-(2 * e)).toNat
      refLoop f neg (fun _ => ⟨m * 2 ^ k - m * m * m, m * 2 ^ k, 3 * e⟩)
    else refLoop f neg (fun p =>
      let b := expPos p m (e + 1)
      Bnd.div p ⟨b.lo - 2 ^ p, b.hi - 2 ^ p, b.e⟩ ⟨b.lo + 2 ^ p, b.hi + 2 ^ p, b.e⟩)

/-- VERF (R152). -/
def vErf (f : Fmt) : FVal → Nat
  | .nan => f.nanCode
  | .inf neg => f.rne (.fin neg 1 0)
  | .fin neg m e =>
    if m = 0 then f.signBit neg
    else if atLeast m e 3 then refLoop f neg (fun _ => nearOne)
    else refLoop f neg (fun p => erfPos p m e)

/-- VSIGM (R152): 1 / (1 + e^-x), and e^x / (1 + e^x) below zero. -/
def vSigm (f : Fmt) : FVal → Nat
  | .nan => f.nanCode
  | .inf true => 0
  | .inf false => f.rne (.pow2 0)
  | .fin neg m e =>
    if m = 0 then f.rne (.pow2 (-1))
    else if atLeast m e 7 then (if neg then f.rne (.fin false 1 (-200)) else refLoop f false (fun _ => nearOne))
    else refLoop f false (fun p =>
      let b := expNeg p m e
      let one := 2 ^ (-b.e).toNat
      if neg then Bnd.div p b ⟨b.lo + one, b.hi + one, b.e⟩
      else Bnd.div p ⟨1, 1, 0⟩ ⟨b.lo + one, b.hi + one, b.e⟩)

end Sys2Proof.Machine
end

