-- ==== Sys2Proof/Machine/Vector.lean ====
section
/-!
DEFINITION. The vector slot (05, R144-R156): element-wise operations under a governing predicate, conversions, reductions, memory
operations, transcendentals, predicates and the seeded generator; and PACK and UNPACK (03, R87, R88).
-/
namespace Sys2Proof.Machine

/-- Element width of a type code (05, "The vector unit"). -/
def tyW (ty : BitVec 3) : Nat := if ty = 1 ∨ ty = 2 then 16 else 32

/-- Elements per register of a type code. -/
def tyN (ty : BitVec 3) : Nat := if ty = 1 ∨ ty = 2 then 512 else 256

/-- The format code of a type code: FP32, BF16, FP16, INT32. -/
def tyCode (ty : BitVec 3) : Nat := if ty = 0 then 0x8 else if ty = 1 then 0x6 else if ty = 2 then 0x7 else 0x9

/-- The element format of a type code. -/
def tyElem (ty : BitVec 3) : Elem :=
  if ty = 0 then .flt fp32 else if ty = 1 then .flt ⟨8, 7, 127, .ieee⟩ else if ty = 2 then .flt ⟨5, 10, 15, .ieee⟩ else .int 32

/-- TY 4-7 are reserved. -/
def badTy (ty : BitVec 3) : Bool := decide (4 ≤ ty.toNat)

/-- The elements of a register, as type ty. -/
def elems (v : VReg) (ty : BitVec 3) : List Nat := (List.range (tyN ty)).map (elem v (tyW ty))

/-- Whether element i of width w is governed by pg (R64, R145). -/
def governed (pg : PReg) (w i : Nat) : Bool := pg.toNat.testBit (if w = 16 then i / 2 else i)

/-- Merge results into the old register: an ungoverned element is unchanged (R145). -/
def mergeElems (pg : PReg) (ty : BitVec 3) (old : VReg) (new : List Nat) : VReg :=
  packElems (tyW ty) ((List.range (tyN ty)).map (fun i =>
    if governed pg (tyW ty) i then new.getD i 0 else elem old (tyW ty) i))

/-- Scoreboard of a V instruction: its sources, the unit, and its occupancy (R144). -/
def vNeed (keys : List Nat) : List Nat := keyVUnit :: keys

/-- The old vd is a source where elements that pg does not govern keep their value (R93, R145). -/
def merges (pg : BitVec 3) (vd : BitVec 5) : List Nat := when_ (pg ≠ 0) (keyV vd) ++ [keyP pg]

/-- What element-wise operations find on governed elements. -/
def laneFlags (pg : PReg) (ty : BitVec 3) (fs : List VFlags) : VFlags :=
  ((List.range (tyN ty)).map (fun i => if governed pg (tyW ty) i then fs.getD i .none else .none)).foldl VFlags.or .none

/-- An element operation on the codes of va, vb and the old vd. -/
abbrev LaneOp := Nat → Nat → Nat → Nat × VFlags

/-- A floating-point operation on values, or its integer counterpart modulo 2^32 (R146). -/
def laneArith (ty : BitVec 3) (fop : FVal → FVal → FVal → FVal) (uses : List FVal → List FVal)
    (iop : Int → Int → Int → Int) : LaneOp := fun a b d =>
  match tyElem ty with
  | .flt f =>
    let r := fop (f.decode a) (f.decode b) (f.decode d)
    (f.rne r, invalidOf (uses [f.decode a, f.decode b, f.decode d]) r)
  | .int w => (unsign w (iop (signed w a) (signed w b) (signed w d)), .none)

/-- An element-wise operation of format VR (R145, R146); src are its sources besides va. -/
def semLanes (op : LaneOp) (opc lat occ : Nat) (src : List (BitVec 5)) (c : CoreId) (ty pg : BitVec 3) (vb va vd : BitVec 5) (bad : Bool) (s : State) : Sem :=
  let p := s.pr c pg
  let ra := elems (s.vr c va) ty
  let rb := elems (s.vr c vb) ty
  let rd := elems (s.vr c vd) ty
  let rs := List.zipWith (fun ab d => op ab.1 ab.2 d) (ra.zip rb) rd
  { faults := when_ (badTy ty || bad) (.illegal (encVR opc 0 ty pg vb va vd)),
    dsts := [(keyV vd, lat)], need := vNeed (keyV va :: src.map keyV ++ merges pg vd), sets := [(keyVUnit, occ)],
    run := fun t => (t.setVr c vd (mergeElems p ty (s.vr c vd) (rs.map (·.1)))).setVFlags c (laneFlags p ty (rs.map (·.2))) }

/-- Operands of a two-operand operation. -/
def use2 (l : List FVal) : List FVal := l.take 2
/-- Operand of a one-operand operation. -/
def use1 (l : List FVal) : List FVal := l.take 1

def opMov : LaneOp := fun a _ _ => (a, .none)
def opAdd (ty : BitVec 3) : LaneOp := laneArith ty (fun a b _ => a.add b) use2 (fun a b _ => a + b)
def opSub (ty : BitVec 3) : LaneOp := laneArith ty (fun a b _ => a.add b.neg) use2 (fun a b _ => a - b)
def opMul (ty : BitVec 3) : LaneOp := laneArith ty (fun a b _ => a.mul b) use2 (fun a b _ => a * b)
def opFma (ty : BitVec 3) : LaneOp := laneArith ty (fun a b d => (a.mul b).add d) id (fun a b d => a * b + d)
/-- The lesser value, NaN when an operand is NaN (05, VMIN). -/
def fmin (a b : FVal) : FVal := if a.isNan || b.isNan then .nan else a.min2 b
/-- The greater value, NaN when an operand is NaN (05, VMAX). -/
def fmax (a b : FVal) : FVal := if a.isNan || b.isNan then .nan else a.max2 b
def opMin (ty : BitVec 3) : LaneOp := laneArith ty (fun a b _ => fmin a b) use2 (fun a b _ => min a b)
def opMax (ty : BitVec 3) : LaneOp := laneArith ty (fun a b _ => fmax a b) use2 (fun a b _ => max a b)
def opAbs (ty : BitVec 3) : LaneOp := laneArith ty (fun a _ _ => a.abs) use1 (fun a _ _ => (a.natAbs : Int))
def opNeg (ty : BitVec 3) : LaneOp := laneArith ty (fun a _ _ => a.neg) use1 (fun a _ _ => -a)
/-- Division; the spec states no INT32 quotient by 0 (log entry 23). -/
def opDiv (ty : BitVec 3) : LaneOp := laneArith ty (fun a b _ => a.div b) use2 (fun a b _ => if b = 0 then Config.intQuotient a else rneQuot a b)
/-- The square root; the spec states none of a negative INT32 (log entry 23). -/
def opSqrt (ty : BitVec 3) : LaneOp := laneArith ty (fun a _ _ => a.sqrt) use1 (fun a _ _ => if a < 0 then Config.intRoot a else rneRoot a.toNat)
/-- A bitwise operation. -/
def opBits (f : Nat → Nat → Nat) : LaneOp := fun a b _ => (f a b, .none)
/-- A shift by vb[4:0] (05). -/
def opShl : LaneOp := fun a b _ => (a * 2 ^ (b % 32) % 2 ^ 32, .none)
def opShr : LaneOp := fun a b _ => (a / 2 ^ (b % 32), .none)
def opSra : LaneOp := fun a b _ => (unsign 32 (signed 32 a / ((2 : Int) ^ (b % 32))), .none)
/-- A transcendental function (R152). -/
def opTrans (f : Fmt → FVal → Nat) (ty : BitVec 3) : LaneOp := fun a _ _ =>
  match tyElem ty with
  | .flt t => (f t (t.decode a), invalidOf [t.decode a] (t.decode (f t (t.decode a))))
  | .int _ => (0, .none)

def semVmov (c : CoreId) (ty pg : BitVec 3) (va vd : BitVec 5) := semLanes opMov 0x00 2 1 [] c ty pg 0 va vd false
def semVadd (c : CoreId) (ty pg : BitVec 3) (vb va vd : BitVec 5) := semLanes (opAdd ty) 0x01 4 1 [vb] c ty pg vb va vd false
def semVsub (c : CoreId) (ty pg : BitVec 3) (vb va vd : BitVec 5) := semLanes (opSub ty) 0x02 4 1 [vb] c ty pg vb va vd false
def semVmul (c : CoreId) (ty pg : BitVec 3) (vb va vd : BitVec 5) := semLanes (opMul ty) 0x03 4 1 [vb] c ty pg vb va vd false
def semVfma (c : CoreId) (ty pg : BitVec 3) (vb va vd : BitVec 5) := semLanes (opFma ty) 0x04 4 1 [vb, vd] c ty pg vb va vd false
def semVmin (c : CoreId) (ty pg : BitVec 3) (vb va vd : BitVec 5) := semLanes (opMin ty) 0x05 2 1 [vb] c ty pg vb va vd false
def semVmax (c : CoreId) (ty pg : BitVec 3) (vb va vd : BitVec 5) := semLanes (opMax ty) 0x06 2 1 [vb] c ty pg vb va vd false
def semVabs (c : CoreId) (ty pg : BitVec 3) (va vd : BitVec 5) := semLanes (opAbs ty) 0x07 2 1 [] c ty pg 0 va vd false
def semVneg (c : CoreId) (ty pg : BitVec 3) (va vd : BitVec 5) := semLanes (opNeg ty) 0x08 2 1 [] c ty pg 0 va vd false
def semVdiv (c : CoreId) (ty pg : BitVec 3) (vb va vd : BitVec 5) := semLanes (opDiv ty) 0x09 14 2 [vb] c ty pg vb va vd false
def semVsqrt (c : CoreId) (ty pg : BitVec 3) (va vd : BitVec 5) := semLanes (opSqrt ty) 0x0A 14 2 [] c ty pg 0 va vd false
def semVand (c : CoreId) (ty pg : BitVec 3) (vb va vd : BitVec 5) := semLanes (opBits Nat.land) 0x18 2 1 [vb] c ty pg vb va vd false
def semVor (c : CoreId) (ty pg : BitVec 3) (vb va vd : BitVec 5) := semLanes (opBits Nat.lor) 0x19 2 1 [vb] c ty pg vb va vd false
def semVxor (c : CoreId) (ty pg : BitVec 3) (vb va vd : BitVec 5) := semLanes (opBits Nat.xor) 0x1A 2 1 [vb] c ty pg vb va vd false
def semVshl (c : CoreId) (ty pg : BitVec 3) (vb va vd : BitVec 5) := semLanes opShl 0x1B 2 1 [vb] c ty pg vb va vd (ty ≠ 3)
def semVshr (c : CoreId) (ty pg : BitVec 3) (vb va vd : BitVec 5) := semLanes opShr 0x1C 2 1 [vb] c ty pg vb va vd (ty ≠ 3)
def semVsra (c : CoreId) (ty pg : BitVec 3) (vb va vd : BitVec 5) := semLanes opSra 0x1D 2 1 [vb] c ty pg vb va vd (ty ≠ 3)
def semVexp (c : CoreId) (ty pg : BitVec 3) (va vd : BitVec 5) := semLanes (opTrans vExp ty) 0x40 16 2 [] c ty pg 0 va vd (ty = 3)
def semVlog (c : CoreId) (ty pg : BitVec 3) (va vd : BitVec 5) := semLanes (opTrans vLog ty) 0x41 16 2 [] c ty pg 0 va vd (ty = 3)
def semVrsqrt (c : CoreId) (ty pg : BitVec 3) (va vd : BitVec 5) := semLanes (opTrans vRsqrt ty) 0x42 16 2 [] c ty pg 0 va vd (ty = 3)
def semVtanh (c : CoreId) (ty pg : BitVec 3) (va vd : BitVec 5) := semLanes (opTrans vTanh ty) 0x43 16 2 [] c ty pg 0 va vd (ty = 3)
def semVerf (c : CoreId) (ty pg : BitVec 3) (va vd : BitVec 5) := semLanes (opTrans vErf ty) 0x44 16 2 [] c ty pg 0 va vd (ty = 3)
def semVsigm (c : CoreId) (ty pg : BitVec 3) (va vd : BitVec 5) := semLanes (opTrans vSigm ty) 0x45 16 2 [] c ty pg 0 va vd (ty = 3)

/-- VBCAST: every element is the low bits of a scalar register (05). -/
def semVbcast (c : CoreId) (ty pg : BitVec 3) (ra vd : BitVec 5) (s : State) : Sem :=
  let v := s.sr c ra % 2 ^ tyW ty
  { faults := when_ (badTy ty) (.illegal (encVR 0x0B 0 ty pg 0 ra vd)), dsts := [(keyV vd, 2)],
    need := vNeed (keyS ra :: merges pg vd), sets := [(keyVUnit, 1)],
    run := fun t => t.setVr c vd (mergeElems (s.pr c pg) ty (s.vr c vd) (List.replicate (tyN ty) v)) }

/-- VSEL: PG picks va or vb; the merge rule does not apply (05). -/
def semVsel (c : CoreId) (ty pg : BitVec 3) (vb va vd : BitVec 5) (s : State) : Sem :=
  let p := s.pr c pg
  { faults := when_ (badTy ty) (.illegal (encVR 0x13 0 ty pg vb va vd)), dsts := [(keyV vd, 2)],
    need := vNeed [keyV va, keyV vb, keyP pg], sets := [(keyVUnit, 1)],
    run := fun t => t.setVr c vd (mergeElems p ty (s.vr c vb) (elems (s.vr c va) ty)) }

/-- A comparison of two codes: NaN compares unordered (R131). -/
def laneCmp (ty : BitVec 3) (fop : FVal → FVal → Bool) (iop : Int → Int → Bool) (a b : Nat) : Bool :=
  match tyElem ty with
  | .flt f => fop (f.decode a) (f.decode b)
  | .int w => iop (signed w a) (signed w b)

/-- The bit of lane i of a compare: with 16-bit elements, that on which both elements agree, else a free bit (log entry 24). -/
def cmpBit (s : State) (cmp : Nat → Nat → Bool) (ty : BitVec 3) (a b : VReg) (i : Nat) : Bool :=
  if tyW ty = 32 then cmp (elem a 32 i) (elem b 32 i)
  else
    let x := cmp (elem a 16 (2 * i)) (elem b 16 (2 * i))
    let y := cmp (elem a 16 (2 * i + 1)) (elem b 16 (2 * i + 1))
    if x = y then x else Config.freeNat (s.free + i) % 2 == 1

/-- A vector compare into predicate VD[2:0]; an ungoverned bit clears (R145). -/
def semCmp (cmp : Nat → Nat → Bool) (opc : Nat) (c : CoreId) (ty pg : BitVec 3) (vb va vd : BitVec 5) (s : State) : Sem :=
  let p := s.pr c pg
  let pd : BitVec 3 := vd.setWidth 3
  { faults := when_ (badTy ty || decide (8 ≤ vd.toNat)) (.illegal (encVR opc 0 ty pg vb va vd)),
    dsts := [(keyP pd, 2)], need := vNeed [keyV va, keyV vb, keyP pg], sets := [(keyVUnit, 1)],
    run := fun t => { t.setPr c pd (packBits ((List.range 256).map (fun i =>
        p.toNat.testBit i && cmpBit s cmp ty (s.vr c va) (s.vr c vb) i))) with
      free := if tyW ty = 16 then t.free + 256 else t.free } }

def semVcmpeq (c : CoreId) (ty pg : BitVec 3) (vb va vd : BitVec 5) :=
  semCmp (laneCmp ty FVal.eq (fun a b => a == b)) 0x10 c ty pg vb va vd
def semVcmplt (c : CoreId) (ty pg : BitVec 3) (vb va vd : BitVec 5) :=
  semCmp (laneCmp ty FVal.lt (fun a b => decide (a < b))) 0x11 c ty pg vb va vd
def semVcmple (c : CoreId) (ty pg : BitVec 3) (vb va vd : BitVec 5) :=
  semCmp (laneCmp ty (fun a b => a.lt b || a.eq b) (fun a b => decide (a ≤ b))) 0x12 c ty pg vb va vd

/-- A value times the scale in byte ⌊i / 32⌋ of vb; inverted, divided by it (R147, R149). -/
def scaled (sc inv : Bool) (vb : VReg) (i : Nat) (v : FVal) : FVal :=
  if sc then
    let e := elem vb 8 (i / 32)
    if e = 0xFF then .nan else v.mul (.pow2 (if inv then 127 - (e : Int) else (e : Int) - 127))
  else v

/-- The rounding mode of VCVT for element i (R147, R156). -/
def cvtRm (s : State) (c : Nat) (rm rt i : Nat) : Rm :=
  if rm = 1 then .sr (sg8 (s.f .VEC_SEED_SEED c) (s.sr c (BitVec.ofNat 5 rt) % 2 ^ 32) (s.f .CORE_STEP_STEP c)
      (add64 (s.sr c (BitVec.ofNat 5 (rt + 1))) i) % 2 ^ 32)
  else if rm = 2 then .rz else .rne

/-- VCVT (R147). -/
def semVcvt (c : CoreId) (x : BitVec 11) (ty pg : BitVec 3) (vb va vd : BitVec 5) (s : State) : Sem :=
  let code := field x.toNat 0 4
  let sc := bit x.toNat 4
  let rm := field x.toNat 5 2
  let rt := field x.toNat 7 4
  let t := (elemOf code).getD (.int 8)
  let rs := (List.range 256).map (fun i =>
    t.conv (cvtRm s c rm rt i) (scaled sc true (s.vr c vb) i ((tyElem ty).decode (elem (s.vr c va) (tyW ty) i))))
  { faults := when_ (badTy ty || pg ≠ 0 || elemOf code = none || code = tyCode ty || rm = 3 || (rm ≠ 1 && rt ≠ 0))
      (.illegal (encVR 0x20 x.toNat ty pg vb va vd)),
    dsts := [(keyV vd, 4)],
    need := vNeed ([keyV va] ++ when_ sc (keyV vb) ++ (if rm = 1 then [rt, rt + 1] else [])),
    sets := [(keyVUnit, 1)],
    run := fun u => (u.setVr c vd (packElems t.bits (rs.map (·.code)))).setVFlags c ((rs.map Conv.flags).foldl VFlags.or .none) }

/-- The exponent of the largest value of a narrow target (R148). -/
def emaxOf : Nat → Option Nat
  | 0 => some 8
  | 1 => some 15
  | 2 => some 2
  | 3 => some 4
  | 4 => some 2
  | _ => none

/-- The MX scale of one block (R148). -/
def mxScale (emax : Nat) (vs : List FVal) : Nat :=
  if vs.any (fun v => match v with
    | .fin .. => false
    | _ => true) then 0xFF
  else
    match vs.foldl (fun a v => if a.lt v.abs then v.abs else a) (.fin false 0 0) with
    | .fin _ m e => if m = 0 then 127 else (max 0 (min 254 ((Nat.log2 m : Int) + e - emax + 127))).toNat
    | _ => 0xFF

/-- VMXSC (R148). -/
def semVmxsc (c : CoreId) (x : BitVec 11) (ty pg : BitVec 3) (vb va vd : BitVec 5) (s : State) : Sem :=
  let em := emaxOf (field x.toNat 0 4)
  let vs := (elems (s.vr c va) ty).map (tyElem ty).decode
  let scales := (List.range (tyN ty / 32)).map (fun b => mxScale (em.getD 0) ((vs.drop (32 * b)).take 32))
  { faults := when_ (badTy ty || pg ≠ 0 || em = none || 16 ≤ x.toNat) (.illegal (encVR 0x21 x.toNat ty pg vb va vd)),
    dsts := [(keyV vd, 4)], need := vNeed [keyV va], sets := [(keyVUnit, 1)],
    run := fun t => t.setVr c vd (packElems 8 scales) }

/-- VWID (R149): elements past the 256 written keep their value (log entry 25). -/
def semVwid (c : CoreId) (x : BitVec 11) (ty pg : BitVec 3) (vb va vd : BitVec 5) (s : State) : Sem :=
  let code := field x.toNat 0 4
  let sc := bit x.toNat 4
  let src := (elemOf code).getD (.int 8)
  let rs := (List.range 256).map (fun i =>
    (tyElem ty).conv .rne (scaled sc false (s.vr c vb) i (src.decode (elem (s.vr c va) src.bits i))))
  { faults := when_ (badTy ty || pg ≠ 0 || elemOf code = none || 32 ≤ x.toNat) (.illegal (encVR 0x22 x.toNat ty pg vb va vd)),
    dsts := [(keyV vd, 4)], need := vNeed ([keyV va] ++ when_ sc (keyV vb)), sets := [(keyVUnit, 1)],
    run := fun t => (t.setVr c vd (packElems (tyW ty) (rs.map (·.code) ++ ((elems (s.vr c vd) ty).drop 256)))).setVFlags c
      ((rs.map Conv.flags).foldl VFlags.or .none) }

/-- One level of a pairwise tree (R150). -/
def treeLevel (op : Nat → Nat → Nat × VFlags) : List (Nat × VFlags) → List (Nat × VFlags)
  | a :: b :: r => ((op a.1 b.1).1, (a.2.or b.2).or (op a.1 b.1).2) :: treeLevel op r
  | l => l

/-- The fixed pairwise tree over all elements (R150). -/
def tree (op : Nat → Nat → Nat × VFlags) (levels : Nat) (es : List Nat) : Nat × VFlags :=
  (upto levels (fun _ l => treeLevel op l) (es.map (fun e => (e, VFlags.none)))).headD (0, .none)

/-- A reduction (R150). -/
def semTree (op : LaneOp) (opc : Nat) (c : CoreId) (ty pg : BitVec 3) (va vd : BitVec 5) (s : State) : Sem :=
  let r := tree (fun a b => op a b 0) 9 (elems (s.vr c va) ty)
  { faults := when_ (badTy ty || pg ≠ 0) (.illegal (encVR opc 0 ty pg 0 va vd)), dsts := [(keyV vd, 10)],
    need := vNeed [keyV va], sets := [(keyVUnit, 1)],
    run := fun t => (t.setVr c vd (packElems (tyW ty) [r.1])).setVFlags c r.2 }

def semVrsum (c : CoreId) (ty pg : BitVec 3) (va vd : BitVec 5) := semTree (opAdd ty) 0x28 c ty pg va vd
def semVrmax (c : CoreId) (ty pg : BitVec 3) (va vd : BitVec 5) := semTree (opMax ty) 0x29 c ty pg va vd

/-- The address of a VM access: s[RS] + IMM14 * 64 (05). -/
def vmAddr (s : State) (c : Nat) (imm : BitVec 14) (rs : BitVec 5) : Nat := add64 (s.sr c rs) (unsign 64 (imm.toInt * 64))

/-- The granules of [a, a + n). -/
def granulesOf (a n : Nat) : List Nat := (List.range ((a + n - 1) / 512 - a / 512 + 1)).map (fun i => a / 512 + i)

/-- VLD (R151). -/
def semVld (c : CoreId) (imm : BitVec 14) (pg : BitVec 3) (rs vd : BitVec 5) (s : State) : Sem :=
  let a := vmAddr s c imm rs
  let p := s.pr c pg
  { faults := when_ (leavesStore a 1024) (.range a) ++ when_ (decide (a % 64 ≠ 0)) (.misalign a)
      ++ (if leavesStore a 1024 then [] else ((s.core c).eccHit a 1024).toList.map .ecc),
    dsts := [(keyV vd, 6)], need := vNeed (keyS rs :: merges pg vd), sets := [(keyVUnit, 1)], grans := granulesOf a 1024,
    run := fun t => (t.storeRead c a 1024).setVr c vd (mergeElems p 0 (s.vr c vd) ((List.range 256).map (fun i => (t.core c).store.rdLe (a + 4 * i) 4))) }

/-- VST (R151, R74, R145): an ungoverned lane's bytes are unwritten. -/
def semVst (c : CoreId) (imm : BitVec 14) (pg : BitVec 3) (rs vs : BitVec 5) (s : State) : Sem :=
  let a := vmAddr s c imm rs
  let p := s.pr c pg
  let v := s.vr c vs
  { faults := when_ (s.badWrite c a 1024) (.range a) ++ when_ (decide (a % 64 ≠ 0)) (.misalign a),
    need := vNeed [keyS rs, keyV vs, keyP pg], sets := [(keyVUnit, 1)], grans := granulesOf a 1024,
    run := fun t => t.modCore c (fun k => upto 256 (fun i k =>
      if p.toNat.testBit i then k.wrStore (a + 4 * i) (leBytes 4 (elem v 32 i)) else k) k) }

/-- The word addresses of VGATH and VSCAT: s[RS] + 4 v[VI][i] (05). -/
def gatherAddr (s : State) (c : Nat) (vi rs : BitVec 5) (i : Nat) : Nat := add64 (s.sr c rs) (4 * elem (s.vr c vi) 32 i)

/-- VGATH (R151). -/
def semVgath (c : CoreId) (pg : BitVec 3) (vi rs vd : BitVec 5) (s : State) : Sem :=
  let p := s.pr c pg
  let as := (List.range 256).filter (fun i => p.toNat.testBit i) |>.map (gatherAddr s c vi rs)
  { faults := (as.filter (fun a => leavesStore a 4)).map .range ++ when_ (decide (s.sr c rs % 4 ≠ 0)) (.misalign (s.sr c rs))
      ++ (as.filterMap (fun a => (s.core c).eccHit a 4)).map .ecc,
    dsts := [(keyV vd, 12)], need := vNeed (keyS rs :: keyV vi :: merges pg vd), sets := [(keyVUnit, 8)],
    run := fun t => ((as.foldl (fun s a => s.storeRead c a 4) t).setVr c vd (mergeElems p 0 (s.vr c vd)
      ((List.range 256).map (fun i => (t.core c).store.rdLe (gatherAddr s c vi rs i) 4)))).pmc c 0x14 }

/-- VSCAT (R151, R74): the highest lane's value stands where several name one word. -/
def semVscat (c : CoreId) (pg : BitVec 3) (vi rs vs : BitVec 5) (s : State) : Sem :=
  let p := s.pr c pg
  let v := s.vr c vs
  let as := (List.range 256).filter (fun i => p.toNat.testBit i) |>.map (gatherAddr s c vi rs)
  { faults := (as.filter (fun a => s.badWrite c a 4)).map .range ++ when_ (decide (s.sr c rs % 4 ≠ 0)) (.misalign (s.sr c rs)),
    need := vNeed [keyS rs, keyV vi, keyV vs, keyP pg], sets := [(keyVUnit, 8)],
    run := fun t => (t.modCore c (fun k => upto 256 (fun i k =>
      if p.toNat.testBit i then k.wrStore (gatherAddr s c vi rs i) (leBytes 4 (elem v 32 i)) else k) k)).pmc c 0x14 }

/-- A predicate operation; the high field bits must be zero (05). -/
def semPred (f : Nat → Nat → Nat) (opc : Nat) (c : CoreId) (pg : BitVec 3) (vb va vd : BitVec 5) (s : State) : Sem :=
  let g := (s.pr c pg).toNat
  let d : BitVec 3 := vd.setWidth 3
  let r := f (s.pr c (va.setWidth 3)).toNat (s.pr c (vb.setWidth 3)).toNat
  let old := (s.pr c d).toNat
  { faults := when_ (decide (8 ≤ va.toNat ∨ 8 ≤ vb.toNat ∨ 8 ≤ vd.toNat)) (.illegal (encVR opc 0 0 pg vb va vd)),
    dsts := [(keyP d, 2)], need := vNeed [keyP (va.setWidth 3), keyP (vb.setWidth 3), keyP d, keyP pg], sets := [(keyVUnit, 1)],
    run := fun t => t.setPr c d (BitVec.ofNat 256 (Nat.lor (Nat.land r g) (Nat.land old (Nat.xor (2 ^ 256 - 1) g)))) }

def semPand (c : CoreId) (pg : BitVec 3) (vb va vd : BitVec 5) := semPred Nat.land 0x50 c pg vb va vd
def semPor (c : CoreId) (pg : BitVec 3) (vb va vd : BitVec 5) := semPred Nat.lor 0x51 c pg vb va vd
def semPxor (c : CoreId) (pg : BitVec 3) (vb va vd : BitVec 5) := semPred Nat.xor 0x52 c pg vb va vd
def semPnot (c : CoreId) (pg : BitVec 3) (va vd : BitVec 5) := semPred (fun a _ => Nat.xor (2 ^ 256 - 1) a) 0x53 c pg 0 va vd

/-- RAND (R155, R154). -/
def semRand (c : CoreId) (x : BitVec 11) (ty pg : BitVec 3) (rt ri vd : BitVec 5) (s : State) : Sem :=
  let w := field x.toNat 0 2
  let es := (List.range 256).map (fun i => field (sg8 (s.f .VEC_SEED_SEED c) (s.sr c rt % 2 ^ 32) (s.f .CORE_STEP_STEP c)
    (add64 (s.sr c ri) i)) (32 * w) 32)
  { faults := when_ (decide (ty ≠ 3 ∨ 4 ≤ x.toNat)) (.illegal (encVR 0x60 x.toNat ty pg rt ri vd)),
    dsts := [(keyV vd, 10)], need := vNeed (keyS rt :: keyS ri :: merges pg vd), sets := [(keyVUnit, 1)],
    run := fun t => t.setVr c vd (mergeElems (s.pr c pg) 0 (s.vr c vd) es) }

/-- The set bits of a predicate in rising order. -/
def setLanes (p : PReg) : List Nat := (List.range 256).filter (fun i => p.toNat.testBit i)

/-- PACK (R87, R88). -/
def semPack (c : CoreId) (sc sf : BitVec 5) (pd pm : BitVec 3) (vs vd : BitVec 5) (s : State) : Sem :=
  let room := (max 0 (signed 64 (s.sr c sc) - signed 64 (s.sr c sf))).toNat
  let ls := setLanes (s.pr c pm)
  let kept := ls.take room
  let spill := ls.drop room
  let v := s.vr c vs
  { dsts := [(keyV vd, 6), (keyP pd, 6), (keyS sf, 6)], need := vNeed [keyV vs, keyP pm, keyS sf, keyS sc], sets := [(keyVUnit, 2)],
    run := fun t =>
      let t1 := (t.setVr c vd (packElems 32 (kept.map (elem v 32) ++ List.replicate (256 - kept.length) 0xFFFFFFFF))).setPr c pd
        (packBits ((List.range 256).map (fun i => spill.contains i)))
      ((t1.setSr c sf (s.sr c sf + kept.length)).bump .CORE_PACK_OVF_STEP_OVF c spill.length).bump .CORE_PACK_OVF_TOTAL c spill.length }

/-- UNPACK (R87, R88): the k-th governed lane takes element k of vs. -/
def semUnpack (c : CoreId) (sf : BitVec 5) (pm : BitVec 3) (vs vd : BitVec 5) (s : State) : Sem :=
  let p := s.pr c pm
  let ls := setLanes p
  let v := s.vr c vs
  { dsts := [(keyV vd, 6), (keyS sf, 6)], need := vNeed [keyV vs, keyP pm, keyS sf], sets := [(keyVUnit, 2)],
    run := fun t => (t.setVr c vd (packElems 32 ((List.range 256).map (fun i =>
        if p.toNat.testBit i then elem v 32 (ls.filter (fun j => j < i)).length else 0)))).setSr c sf (s.sr c sf + ls.length) }

/-- VADD, as a packet of one slot. -/
def execVadd (c : CoreId) (ty pg : BitVec 3) (vb va vd : BitVec 5) (s : State) : Out := one c 1 (.vadd c ty pg vb va vd) (semVadd c ty pg vb va vd s) s

/-- VSUB, as a packet of one slot. -/
def execVsub (c : CoreId) (ty pg : BitVec 3) (vb va vd : BitVec 5) (s : State) : Out := one c 1 (.vsub c ty pg vb va vd) (semVsub c ty pg vb va vd s) s

/-- VMUL, as a packet of one slot. -/
def execVmul (c : CoreId) (ty pg : BitVec 3) (vb va vd : BitVec 5) (s : State) : Out := one c 1 (.vmul c ty pg vb va vd) (semVmul c ty pg vb va vd s) s

/-- VFMA, as a packet of one slot. -/
def execVfma (c : CoreId) (ty pg : BitVec 3) (vb va vd : BitVec 5) (s : State) : Out := one c 1 (.vfma c ty pg vb va vd) (semVfma c ty pg vb va vd s) s

/-- VMIN, as a packet of one slot. -/
def execVmin (c : CoreId) (ty pg : BitVec 3) (vb va vd : BitVec 5) (s : State) : Out := one c 1 (.vmin c ty pg vb va vd) (semVmin c ty pg vb va vd s) s

/-- VMAX, as a packet of one slot. -/
def execVmax (c : CoreId) (ty pg : BitVec 3) (vb va vd : BitVec 5) (s : State) : Out := one c 1 (.vmax c ty pg vb va vd) (semVmax c ty pg vb va vd s) s

/-- VDIV, as a packet of one slot. -/
def execVdiv (c : CoreId) (ty pg : BitVec 3) (vb va vd : BitVec 5) (s : State) : Out := one c 1 (.vdiv c ty pg vb va vd) (semVdiv c ty pg vb va vd s) s

/-- VCMPEQ, as a packet of one slot. -/
def execVcmpeq (c : CoreId) (ty pg : BitVec 3) (vb va vd : BitVec 5) (s : State) : Out := one c 1 (.vcmpeq c ty pg vb va vd) (semVcmpeq c ty pg vb va vd s) s

/-- VCMPLT, as a packet of one slot. -/
def execVcmplt (c : CoreId) (ty pg : BitVec 3) (vb va vd : BitVec 5) (s : State) : Out := one c 1 (.vcmplt c ty pg vb va vd) (semVcmplt c ty pg vb va vd s) s

/-- VCMPLE, as a packet of one slot. -/
def execVcmple (c : CoreId) (ty pg : BitVec 3) (vb va vd : BitVec 5) (s : State) : Out := one c 1 (.vcmple c ty pg vb va vd) (semVcmple c ty pg vb va vd s) s

/-- VSEL, as a packet of one slot. -/
def execVsel (c : CoreId) (ty pg : BitVec 3) (vb va vd : BitVec 5) (s : State) : Out := one c 1 (.vsel c ty pg vb va vd) (semVsel c ty pg vb va vd s) s

/-- VAND, as a packet of one slot. -/
def execVand (c : CoreId) (ty pg : BitVec 3) (vb va vd : BitVec 5) (s : State) : Out := one c 1 (.vand c ty pg vb va vd) (semVand c ty pg vb va vd s) s

/-- VOR, as a packet of one slot. -/
def execVor (c : CoreId) (ty pg : BitVec 3) (vb va vd : BitVec 5) (s : State) : Out := one c 1 (.vor c ty pg vb va vd) (semVor c ty pg vb va vd s) s

/-- VXOR, as a packet of one slot. -/
def execVxor (c : CoreId) (ty pg : BitVec 3) (vb va vd : BitVec 5) (s : State) : Out := one c 1 (.vxor c ty pg vb va vd) (semVxor c ty pg vb va vd s) s

/-- VSHL, as a packet of one slot. -/
def execVshl (c : CoreId) (ty pg : BitVec 3) (vb va vd : BitVec 5) (s : State) : Out := one c 1 (.vshl c ty pg vb va vd) (semVshl c ty pg vb va vd s) s

/-- VSHR, as a packet of one slot. -/
def execVshr (c : CoreId) (ty pg : BitVec 3) (vb va vd : BitVec 5) (s : State) : Out := one c 1 (.vshr c ty pg vb va vd) (semVshr c ty pg vb va vd s) s

/-- VSRA, as a packet of one slot. -/
def execVsra (c : CoreId) (ty pg : BitVec 3) (vb va vd : BitVec 5) (s : State) : Out := one c 1 (.vsra c ty pg vb va vd) (semVsra c ty pg vb va vd s) s

/-- VMOV, as a packet of one slot. -/
def execVmov (c : CoreId) (ty pg : BitVec 3) (va vd : BitVec 5) (s : State) : Out := one c 1 (.vmov c ty pg va vd) (semVmov c ty pg va vd s) s

/-- VABS, as a packet of one slot. -/
def execVabs (c : CoreId) (ty pg : BitVec 3) (va vd : BitVec 5) (s : State) : Out := one c 1 (.vabs c ty pg va vd) (semVabs c ty pg va vd s) s

/-- VNEG, as a packet of one slot. -/
def execVneg (c : CoreId) (ty pg : BitVec 3) (va vd : BitVec 5) (s : State) : Out := one c 1 (.vneg c ty pg va vd) (semVneg c ty pg va vd s) s

/-- VSQRT, as a packet of one slot. -/
def execVsqrt (c : CoreId) (ty pg : BitVec 3) (va vd : BitVec 5) (s : State) : Out := one c 1 (.vsqrt c ty pg va vd) (semVsqrt c ty pg va vd s) s

/-- VRSUM, as a packet of one slot. -/
def execVrsum (c : CoreId) (ty pg : BitVec 3) (va vd : BitVec 5) (s : State) : Out := one c 1 (.vrsum c ty pg va vd) (semVrsum c ty pg va vd s) s

/-- VRMAX, as a packet of one slot. -/
def execVrmax (c : CoreId) (ty pg : BitVec 3) (va vd : BitVec 5) (s : State) : Out := one c 1 (.vrmax c ty pg va vd) (semVrmax c ty pg va vd s) s

/-- VEXP, as a packet of one slot. -/
def execVexp (c : CoreId) (ty pg : BitVec 3) (va vd : BitVec 5) (s : State) : Out := one c 1 (.vexp c ty pg va vd) (semVexp c ty pg va vd s) s

/-- VLOG, as a packet of one slot. -/
def execVlog (c : CoreId) (ty pg : BitVec 3) (va vd : BitVec 5) (s : State) : Out := one c 1 (.vlog c ty pg va vd) (semVlog c ty pg va vd s) s

/-- VRSQRT, as a packet of one slot. -/
def execVrsqrt (c : CoreId) (ty pg : BitVec 3) (va vd : BitVec 5) (s : State) : Out := one c 1 (.vrsqrt c ty pg va vd) (semVrsqrt c ty pg va vd s) s

/-- VTANH, as a packet of one slot. -/
def execVtanh (c : CoreId) (ty pg : BitVec 3) (va vd : BitVec 5) (s : State) : Out := one c 1 (.vtanh c ty pg va vd) (semVtanh c ty pg va vd s) s

/-- VERF, as a packet of one slot. -/
def execVerf (c : CoreId) (ty pg : BitVec 3) (va vd : BitVec 5) (s : State) : Out := one c 1 (.verf c ty pg va vd) (semVerf c ty pg va vd s) s

/-- VSIGM, as a packet of one slot. -/
def execVsigm (c : CoreId) (ty pg : BitVec 3) (va vd : BitVec 5) (s : State) : Out := one c 1 (.vsigm c ty pg va vd) (semVsigm c ty pg va vd s) s

/-- VBCAST, as a packet of one slot. -/
def execVbcast (c : CoreId) (ty pg : BitVec 3) (ra vd : BitVec 5) (s : State) : Out := one c 1 (.vbcast c ty pg ra vd) (semVbcast c ty pg ra vd s) s

/-- VCVT, as a packet of one slot. -/
def execVcvt (c : CoreId) (x : BitVec 11) (ty pg : BitVec 3) (vb va vd : BitVec 5) (s : State) : Out := one c 1 (.vcvt c x ty pg vb va vd) (semVcvt c x ty pg vb va vd s) s

/-- VMXSC, as a packet of one slot. -/
def execVmxsc (c : CoreId) (x : BitVec 11) (ty pg : BitVec 3) (vb va vd : BitVec 5) (s : State) : Out := one c 1 (.vmxsc c x ty pg vb va vd) (semVmxsc c x ty pg vb va vd s) s

/-- VWID, as a packet of one slot. -/
def execVwid (c : CoreId) (x : BitVec 11) (ty pg : BitVec 3) (vb va vd : BitVec 5) (s : State) : Out := one c 1 (.vwid c x ty pg vb va vd) (semVwid c x ty pg vb va vd s) s

/-- VLD, as a packet of one slot. -/
def execVld (c : CoreId) (imm : BitVec 14) (pg : BitVec 3) (rs vd : BitVec 5) (s : State) : Out := one c 1 (.vld c imm pg rs vd) (semVld c imm pg rs vd s) s

/-- VST, as a packet of one slot. -/
def execVst (c : CoreId) (imm : BitVec 14) (pg : BitVec 3) (rs vd : BitVec 5) (s : State) : Out := one c 1 (.vst c imm pg rs vd) (semVst c imm pg rs vd s) s

/-- VGATH, as a packet of one slot. -/
def execVgath (c : CoreId) (pg : BitVec 3) (vi rs vd : BitVec 5) (s : State) : Out := one c 1 (.vgath c pg vi rs vd) (semVgath c pg vi rs vd s) s

/-- VSCAT, as a packet of one slot. -/
def execVscat (c : CoreId) (pg : BitVec 3) (vi rs vd : BitVec 5) (s : State) : Out := one c 1 (.vscat c pg vi rs vd) (semVscat c pg vi rs vd s) s

/-- PAND, as a packet of one slot. -/
def execPand (c : CoreId) (pg : BitVec 3) (vb va vd : BitVec 5) (s : State) : Out := one c 1 (.pand c pg vb va vd) (semPand c pg vb va vd s) s

/-- POR, as a packet of one slot. -/
def execPor (c : CoreId) (pg : BitVec 3) (vb va vd : BitVec 5) (s : State) : Out := one c 1 (.por c pg vb va vd) (semPor c pg vb va vd s) s

/-- PXOR, as a packet of one slot. -/
def execPxor (c : CoreId) (pg : BitVec 3) (vb va vd : BitVec 5) (s : State) : Out := one c 1 (.pxor c pg vb va vd) (semPxor c pg vb va vd s) s

/-- PNOT, as a packet of one slot. -/
def execPnot (c : CoreId) (pg : BitVec 3) (va vd : BitVec 5) (s : State) : Out := one c 1 (.pnot c pg va vd) (semPnot c pg va vd s) s

/-- RAND, as a packet of one slot. -/
def execRand (c : CoreId) (x : BitVec 11) (ty pg : BitVec 3) (rt ri vd : BitVec 5) (s : State) : Out := one c 1 (.rand c x ty pg rt ri vd) (semRand c x ty pg rt ri vd s) s

/-- PACK, as a packet of one slot. -/
def execPack (c : CoreId) (sc sf : BitVec 5) (pd pm : BitVec 3) (vs vd : BitVec 5) (s : State) : Out := one c 1 (.pack c sc sf pd pm vs vd) (semPack c sc sf pd pm vs vd s) s

/-- UNPACK, as a packet of one slot. -/
def execUnpack (c : CoreId) (sf : BitVec 5) (pm : BitVec 3) (vs vd : BitVec 5) (s : State) : Out := one c 1 (.unpack c sf pm vs vd) (semUnpack c sf pm vs vd s) s

end Sys2Proof.Machine
end

