-- ==== Sys2Proof/Machine/Packet.lean ====
section
/-!
DEFINITION. Packets (R71-R73, R80, R82, R85, R97, R99, R411): the encodings of every core instruction, the decoding of a 128-bit packet,
a core's fetch and issue of the packet at its PC, and the events that end or bound a wait.
-/
namespace Sys2Proof.Machine

/-- The meaning of a core instruction in its slot; `released` tells a BELLWAIT that the pulse of its bell has come (R85). -/
def slotOf (released : Bool) (i : Instr) (s : State) : Option Slot :=
  match i with
  | .nop _ => some ⟨0, i, semNop⟩
  | .add c rd rs1 rs2 => some ⟨0, i, (semAdd c rd rs1 rs2 s)⟩
  | .sub c rd rs1 rs2 => some ⟨0, i, (semSub c rd rs1 rs2 s)⟩
  | .and c rd rs1 rs2 => some ⟨0, i, (semAnd c rd rs1 rs2 s)⟩
  | .or c rd rs1 rs2 => some ⟨0, i, (semOr c rd rs1 rs2 s)⟩
  | .xor c rd rs1 rs2 => some ⟨0, i, (semXor c rd rs1 rs2 s)⟩
  | .sll c rd rs1 rs2 => some ⟨0, i, (semSll c rd rs1 rs2 s)⟩
  | .srl c rd rs1 rs2 => some ⟨0, i, (semSrl c rd rs1 rs2 s)⟩
  | .sra c rd rs1 rs2 => some ⟨0, i, (semSra c rd rs1 rs2 s)⟩
  | .slt c rd rs1 rs2 => some ⟨0, i, (semSlt c rd rs1 rs2 s)⟩
  | .sltu c rd rs1 rs2 => some ⟨0, i, (semSltu c rd rs1 rs2 s)⟩
  | .min c rd rs1 rs2 => some ⟨0, i, (semMin c rd rs1 rs2 s)⟩
  | .max c rd rs1 rs2 => some ⟨0, i, (semMax c rd rs1 rs2 s)⟩
  | .mul c rd rs1 rs2 => some ⟨0, i, (semMul c rd rs1 rs2 s)⟩
  | .mulhu c rd rs1 rs2 => some ⟨0, i, (semMulhu c rd rs1 rs2 s)⟩
  | .addi c rd rs1 imm => some ⟨0, i, (semAddi c rd rs1 imm s)⟩
  | .andi c rd rs1 imm => some ⟨0, i, (semAndi c rd rs1 imm s)⟩
  | .ori c rd rs1 imm => some ⟨0, i, (semOri c rd rs1 imm s)⟩
  | .xori c rd rs1 imm => some ⟨0, i, (semXori c rd rs1 imm s)⟩
  | .slli c rd rs1 imm => some ⟨0, i, (semSlli c rd rs1 imm s)⟩
  | .srli c rd rs1 imm => some ⟨0, i, (semSrli c rd rs1 imm s)⟩
  | .srai c rd rs1 imm => some ⟨0, i, (semSrai c rd rs1 imm s)⟩
  | .slti c rd rs1 imm => some ⟨0, i, (semSlti c rd rs1 imm s)⟩
  | .lix c rd rs1 imm => some ⟨0, i, (semLix c rd rs1 imm s)⟩
  | .ld c rd rs1 imm => some ⟨0, i, (semLd c rd rs1 imm s)⟩
  | .lw c rd rs1 imm => some ⟨0, i, (semLw c rd rs1 imm s)⟩
  | .st c rd rs1 imm => some ⟨0, i, (semSt c rd rs1 imm s)⟩
  | .sw c rd rs1 imm => some ⟨0, i, (semSw c rd rs1 imm s)⟩
  | .beq c rs1 rs2 off => some ⟨0, i, (semBeq c rs1 rs2 off s)⟩
  | .bne c rs1 rs2 off => some ⟨0, i, (semBne c rs1 rs2 off s)⟩
  | .blt c rs1 rs2 off => some ⟨0, i, (semBlt c rs1 rs2 off s)⟩
  | .bge c rs1 rs2 off => some ⟨0, i, (semBge c rs1 rs2 off s)⟩
  | .bltu c rs1 rs2 off => some ⟨0, i, (semBltu c rs1 rs2 off s)⟩
  | .bgeu c rs1 rs2 off => some ⟨0, i, (semBgeu c rs1 rs2 off s)⟩
  | .jal c rd imm => some ⟨0, i, (semJal c rd imm s)⟩
  | .jr c rs1 imm => some ⟨0, i, (semJr c rs1 imm s)⟩
  | .loop c rs1 off => some ⟨0, i, (semLoop c rs1 off s)⟩
  | .trap _ imm => some ⟨0, i, (semTrap imm)⟩
  | .halt _ => some ⟨0, i, (semHalt)⟩
  | .rdsh c rd imm => some ⟨0, i, (semRdsh c rd imm s)⟩
  | .waite c e rs1 imm => some ⟨0, i, (semWaite c e rs1 imm s)⟩
  | .evsend c e rs1 => some ⟨0, i, (semEvsend c e rs1 s)⟩
  | .evread c rd e => some ⟨0, i, (semEvread c rd e s)⟩
  | .waitp c rs1 imm => some ⟨0, i, (semWaitp c rs1 imm s)⟩
  | .release c rs1 => some ⟨0, i, (semRelease c rs1 s)⟩
  | .pclr c rs1 imm => some ⟨0, i, (semPclr c rs1 imm s)⟩
  | .bellwait c rs1 imm => some ⟨0, i, (semBellwait released c rs1 imm s)⟩
  | .stepinc c => some ⟨0, i, (semStepinc c)⟩
  | .pack c sc sf pd pm vs vd => some ⟨1, i, (semPack c sc sf pd pm vs vd s)⟩
  | .unpack c sf pm vs vd => some ⟨1, i, (semUnpack c sf pm vs vd s)⟩
  | .put c dt sub even ev rn rr rl b => some ⟨2, i, (semPut c dt sub even ev rn rr rl b s)⟩
  | .get c dt sub even ev rn rr rl b => some ⟨2, i, (semGet c dt sub even ev rn rr rl b s)⟩
  | .acc c dt sub even ev rn rr rl b => some ⟨2, i, (semAcc c dt sub even ev rn rr rl b s)⟩
  | .atom c dt sub even ev rn rr rl b => some ⟨2, i, (semAtom c dt sub even ev rn rr rl b s)⟩
  | .mxcfg c rx rq rs sp as ws af wf => some ⟨2, i, (semMxcfg c rx rq rs sp as ws af wf s)⟩
  | .mxlw c we rk rw => some ⟨2, i, (semMxlw c we rk rw s)⟩
  | .mxrun c msk clr nb ab ne we rc ra => some ⟨2, i, (semMxrun c msk clr nb ab ne we rc ra s)⟩
  | .mxdrain c ev even clr f a rs rd => some ⟨2, i, (semMxdrain c ev even clr f a rs rd s)⟩
  | .mxmask c mode nb ab rf => some ⟨2, i, (semMxmask c mode nb ab rf s)⟩
  | .vmov c ty pg va vd => some ⟨1, i, (semVmov c ty pg va vd s)⟩
  | .vadd c ty pg vb va vd => some ⟨1, i, (semVadd c ty pg vb va vd s)⟩
  | .vsub c ty pg vb va vd => some ⟨1, i, (semVsub c ty pg vb va vd s)⟩
  | .vmul c ty pg vb va vd => some ⟨1, i, (semVmul c ty pg vb va vd s)⟩
  | .vfma c ty pg vb va vd => some ⟨1, i, (semVfma c ty pg vb va vd s)⟩
  | .vmin c ty pg vb va vd => some ⟨1, i, (semVmin c ty pg vb va vd s)⟩
  | .vmax c ty pg vb va vd => some ⟨1, i, (semVmax c ty pg vb va vd s)⟩
  | .vabs c ty pg va vd => some ⟨1, i, (semVabs c ty pg va vd s)⟩
  | .vneg c ty pg va vd => some ⟨1, i, (semVneg c ty pg va vd s)⟩
  | .vdiv c ty pg vb va vd => some ⟨1, i, (semVdiv c ty pg vb va vd s)⟩
  | .vsqrt c ty pg va vd => some ⟨1, i, (semVsqrt c ty pg va vd s)⟩
  | .vbcast c ty pg ra vd => some ⟨1, i, (semVbcast c ty pg ra vd s)⟩
  | .vcmpeq c ty pg vb va vd => some ⟨1, i, (semVcmpeq c ty pg vb va vd s)⟩
  | .vcmplt c ty pg vb va vd => some ⟨1, i, (semVcmplt c ty pg vb va vd s)⟩
  | .vcmple c ty pg vb va vd => some ⟨1, i, (semVcmple c ty pg vb va vd s)⟩
  | .vsel c ty pg vb va vd => some ⟨1, i, (semVsel c ty pg vb va vd s)⟩
  | .vand c ty pg vb va vd => some ⟨1, i, (semVand c ty pg vb va vd s)⟩
  | .vor c ty pg vb va vd => some ⟨1, i, (semVor c ty pg vb va vd s)⟩
  | .vxor c ty pg vb va vd => some ⟨1, i, (semVxor c ty pg vb va vd s)⟩
  | .vshl c ty pg vb va vd => some ⟨1, i, (semVshl c ty pg vb va vd s)⟩
  | .vshr c ty pg vb va vd => some ⟨1, i, (semVshr c ty pg vb va vd s)⟩
  | .vsra c ty pg vb va vd => some ⟨1, i, (semVsra c ty pg vb va vd s)⟩
  | .vcvt c x ty pg vb va vd => some ⟨1, i, (semVcvt c x ty pg vb va vd s)⟩
  | .vmxsc c x ty pg vb va vd => some ⟨1, i, (semVmxsc c x ty pg vb va vd s)⟩
  | .vwid c x ty pg vb va vd => some ⟨1, i, (semVwid c x ty pg vb va vd s)⟩
  | .vrsum c ty pg va vd => some ⟨1, i, (semVrsum c ty pg va vd s)⟩
  | .vrmax c ty pg va vd => some ⟨1, i, (semVrmax c ty pg va vd s)⟩
  | .vld c imm pg rs vd => some ⟨1, i, (semVld c imm pg rs vd s)⟩
  | .vst c imm pg rs vd => some ⟨1, i, (semVst c imm pg rs vd s)⟩
  | .vgath c pg vi rs vd => some ⟨1, i, (semVgath c pg vi rs vd s)⟩
  | .vscat c pg vi rs vd => some ⟨1, i, (semVscat c pg vi rs vd s)⟩
  | .vexp c ty pg va vd => some ⟨1, i, (semVexp c ty pg va vd s)⟩
  | .vlog c ty pg va vd => some ⟨1, i, (semVlog c ty pg va vd s)⟩
  | .vrsqrt c ty pg va vd => some ⟨1, i, (semVrsqrt c ty pg va vd s)⟩
  | .vtanh c ty pg va vd => some ⟨1, i, (semVtanh c ty pg va vd s)⟩
  | .verf c ty pg va vd => some ⟨1, i, (semVerf c ty pg va vd s)⟩
  | .vsigm c ty pg va vd => some ⟨1, i, (semVsigm c ty pg va vd s)⟩
  | .pand c pg vb va vd => some ⟨1, i, (semPand c pg vb va vd s)⟩
  | .por c pg vb va vd => some ⟨1, i, (semPor c pg vb va vd s)⟩
  | .pxor c pg vb va vd => some ⟨1, i, (semPxor c pg vb va vd s)⟩
  | .pnot c pg va vd => some ⟨1, i, (semPnot c pg va vd s)⟩
  | .rand c x ty pg rt ri vd => some ⟨1, i, (semRand c x ty pg rt ri vd s)⟩
  | .tally c rk rt rn rs => some ⟨1, i, (semTally c rk rt rn rs s)⟩
  | .temit c rt => some ⟨1, i, (semTemit c rt s)⟩
  | .pmcrd c sel rd => some ⟨1, i, (semPmcrd c sel rd s)⟩
  | .sld c even ev rt rn rr rl ps => some ⟨2, i, (semSld c even ev rt rn rr rl ps s)⟩
  | .sst c even ev rt rn rr rl ps => some ⟨2, i, (semSst c even ev rt rn rr rl ps s)⟩
  | _ => none

/-! ### Encodings (03, 04, 05, 06, 12) -/

/-- A 5-bit field at bit lo. -/
abbrev f5 (w lo : Nat) : BitVec 5 := BitVec.ofNat 5 (field w lo 5)

/-- An n-bit field at bit lo. -/
abbrev fN (n w lo : Nat) : BitVec n := BitVec.ofNat n (field w lo n)

/-- A row of an opcode table: the opcode in [7:0], the mask of the reserved bits, and the instruction of the slot's other bits. -/
structure OpRow where
  op : Nat
  res : Nat
  make : CoreId → Nat → Instr

/-- Rows of `sTable`. -/
def sTable0 : List OpRow :=
  [⟨0x00, 0xFFFFFFFF00, fun c _ => Instr.nop c⟩,
   ⟨0x01, 0xFFFF800000, fun c w => Instr.add c (f5 w 8) (f5 w 13) (f5 w 18)⟩,
   ⟨0x02, 0xFFFF800000, fun c w => Instr.sub c (f5 w 8) (f5 w 13) (f5 w 18)⟩,
   ⟨0x03, 0xFFFF800000, fun c w => Instr.and c (f5 w 8) (f5 w 13) (f5 w 18)⟩,
   ⟨0x04, 0xFFFF800000, fun c w => Instr.or c (f5 w 8) (f5 w 13) (f5 w 18)⟩,
   ⟨0x05, 0xFFFF800000, fun c w => Instr.xor c (f5 w 8) (f5 w 13) (f5 w 18)⟩,
   ⟨0x06, 0xFFFF800000, fun c w => Instr.sll c (f5 w 8) (f5 w 13) (f5 w 18)⟩,
   ⟨0x07, 0xFFFF800000, fun c w => Instr.srl c (f5 w 8) (f5 w 13) (f5 w 18)⟩,
   ⟨0x08, 0xFFFF800000, fun c w => Instr.sra c (f5 w 8) (f5 w 13) (f5 w 18)⟩,
   ⟨0x09, 0xFFFF800000, fun c w => Instr.slt c (f5 w 8) (f5 w 13) (f5 w 18)⟩,
   ⟨0x0A, 0xFFFF800000, fun c w => Instr.sltu c (f5 w 8) (f5 w 13) (f5 w 18)⟩,
   ⟨0x0B, 0xFFFF800000, fun c w => Instr.min c (f5 w 8) (f5 w 13) (f5 w 18)⟩,
   ⟨0x0C, 0xFFFF800000, fun c w => Instr.max c (f5 w 8) (f5 w 13) (f5 w 18)⟩,
   ⟨0x0D, 0xFFFF800000, fun c w => Instr.mul c (f5 w 8) (f5 w 13) (f5 w 18)⟩,
   ⟨0x0E, 0xFFFF800000, fun c w => Instr.mulhu c (f5 w 8) (f5 w 13) (f5 w 18)⟩,
   ⟨0x11, 0, fun c w => Instr.addi c (f5 w 8) (f5 w 13) (fN 22 w 18)⟩,
   ⟨0x13, 0, fun c w => Instr.andi c (f5 w 8) (f5 w 13) (fN 22 w 18)⟩,
   ⟨0x14, 0, fun c w => Instr.ori c (f5 w 8) (f5 w 13) (fN 22 w 18)⟩,
   ⟨0x15, 0, fun c w => Instr.xori c (f5 w 8) (f5 w 13) (fN 22 w 18)⟩,
   ⟨0x16, 0, fun c w => Instr.slli c (f5 w 8) (f5 w 13) (fN 22 w 18)⟩]

/-- Rows of `sTable`. -/
def sTable1 : List OpRow :=
  [⟨0x17, 0, fun c w => Instr.srli c (f5 w 8) (f5 w 13) (fN 22 w 18)⟩,
   ⟨0x18, 0, fun c w => Instr.srai c (f5 w 8) (f5 w 13) (fN 22 w 18)⟩,
   ⟨0x19, 0, fun c w => Instr.slti c (f5 w 8) (f5 w 13) (fN 22 w 18)⟩,
   ⟨0x1F, 0, fun c w => Instr.lix c (f5 w 8) (f5 w 13) (fN 22 w 18)⟩,
   ⟨0x20, 0, fun c w => Instr.ld c (f5 w 8) (f5 w 13) (fN 22 w 18)⟩,
   ⟨0x21, 0, fun c w => Instr.lw c (f5 w 8) (f5 w 13) (fN 22 w 18)⟩,
   ⟨0x24, 0, fun c w => Instr.st c (f5 w 8) (f5 w 13) (fN 22 w 18)⟩,
   ⟨0x25, 0, fun c w => Instr.sw c (f5 w 8) (f5 w 13) (fN 22 w 18)⟩,
   ⟨0x30, 0, fun c w => Instr.beq c (f5 w 8) (f5 w 13) (fN 22 w 18)⟩,
   ⟨0x31, 0, fun c w => Instr.bne c (f5 w 8) (f5 w 13) (fN 22 w 18)⟩,
   ⟨0x32, 0, fun c w => Instr.blt c (f5 w 8) (f5 w 13) (fN 22 w 18)⟩,
   ⟨0x33, 0, fun c w => Instr.bge c (f5 w 8) (f5 w 13) (fN 22 w 18)⟩,
   ⟨0x34, 0, fun c w => Instr.bltu c (f5 w 8) (f5 w 13) (fN 22 w 18)⟩,
   ⟨0x35, 0, fun c w => Instr.bgeu c (f5 w 8) (f5 w 13) (fN 22 w 18)⟩,
   ⟨0x36, 0, fun c w => Instr.jal c (f5 w 8) (fN 22 w 18)⟩,
   ⟨0x37, 0, fun c w => Instr.jr c (f5 w 13) (fN 22 w 18)⟩,
   ⟨0x38, 0, fun c w => Instr.loop c (f5 w 13) (fN 22 w 18)⟩,
   ⟨0x3E, 0, fun c w => Instr.trap c (fN 22 w 18)⟩,
   ⟨0x3F, 0xFFFFFFFF00, fun c _ => Instr.halt c⟩,
   ⟨0x40, 0, fun c w => Instr.rdsh c (f5 w 8) (fN 22 w 18)⟩]

/-- Rows of `sTable`. -/
def sTable2 : List OpRow :=
  [⟨0x50, 0x1000, fun c w => Instr.waite c (fN 4 w 8) (f5 w 13) (fN 22 w 18)⟩,
   ⟨0x51, 0x1000, fun c w => Instr.evsend c (fN 4 w 8) (f5 w 13)⟩,
   ⟨0x52, 0xFFFFFE0000, fun c w => Instr.evread c (f5 w 8) (fN 4 w 13)⟩,
   ⟨0x54, 0x1000, fun c w => Instr.waitp c (f5 w 13) (fN 22 w 18)⟩,
   ⟨0x55, 0x1000, fun c w => Instr.release c (f5 w 13)⟩,
   ⟨0x56, 0x1000, fun c w => Instr.pclr c (f5 w 13) (fN 22 w 18)⟩,
   ⟨0x58, 0x1000, fun c w => Instr.bellwait c (f5 w 13) (fN 22 w 18)⟩,
   ⟨0x5A, 0xFFFFFFFF00, fun c _ => Instr.stepinc c⟩]

/-- The scalar slot (03, "Scalar slot"). -/
def sTable : List OpRow :=
  sTable0 ++ sTable1 ++ sTable2

/-- Rows of `vTable`. -/
def vTable0 : List OpRow :=
  [⟨0x00, 0xFFE0000000, fun c w => Instr.vmov c (fN 3 w 26) (fN 3 w 23) (f5 w 13) (f5 w 8)⟩,
   ⟨0x01, 0xFFE0000000, fun c w => Instr.vadd c (fN 3 w 26) (fN 3 w 23) (f5 w 18) (f5 w 13) (f5 w 8)⟩,
   ⟨0x02, 0xFFE0000000, fun c w => Instr.vsub c (fN 3 w 26) (fN 3 w 23) (f5 w 18) (f5 w 13) (f5 w 8)⟩,
   ⟨0x03, 0xFFE0000000, fun c w => Instr.vmul c (fN 3 w 26) (fN 3 w 23) (f5 w 18) (f5 w 13) (f5 w 8)⟩,
   ⟨0x04, 0xFFE0000000, fun c w => Instr.vfma c (fN 3 w 26) (fN 3 w 23) (f5 w 18) (f5 w 13) (f5 w 8)⟩,
   ⟨0x05, 0xFFE0000000, fun c w => Instr.vmin c (fN 3 w 26) (fN 3 w 23) (f5 w 18) (f5 w 13) (f5 w 8)⟩,
   ⟨0x06, 0xFFE0000000, fun c w => Instr.vmax c (fN 3 w 26) (fN 3 w 23) (f5 w 18) (f5 w 13) (f5 w 8)⟩,
   ⟨0x07, 0xFFE0000000, fun c w => Instr.vabs c (fN 3 w 26) (fN 3 w 23) (f5 w 13) (f5 w 8)⟩,
   ⟨0x08, 0xFFE0000000, fun c w => Instr.vneg c (fN 3 w 26) (fN 3 w 23) (f5 w 13) (f5 w 8)⟩,
   ⟨0x09, 0xFFE0000000, fun c w => Instr.vdiv c (fN 3 w 26) (fN 3 w 23) (f5 w 18) (f5 w 13) (f5 w 8)⟩,
   ⟨0x0A, 0xFFE0000000, fun c w => Instr.vsqrt c (fN 3 w 26) (fN 3 w 23) (f5 w 13) (f5 w 8)⟩,
   ⟨0x0B, 0xFFE0000000, fun c w => Instr.vbcast c (fN 3 w 26) (fN 3 w 23) (f5 w 13) (f5 w 8)⟩,
   ⟨0x10, 0xFFE0000000, fun c w => Instr.vcmpeq c (fN 3 w 26) (fN 3 w 23) (f5 w 18) (f5 w 13) (f5 w 8)⟩,
   ⟨0x11, 0xFFE0000000, fun c w => Instr.vcmplt c (fN 3 w 26) (fN 3 w 23) (f5 w 18) (f5 w 13) (f5 w 8)⟩,
   ⟨0x12, 0xFFE0000000, fun c w => Instr.vcmple c (fN 3 w 26) (fN 3 w 23) (f5 w 18) (f5 w 13) (f5 w 8)⟩,
   ⟨0x13, 0xFFE0000000, fun c w => Instr.vsel c (fN 3 w 26) (fN 3 w 23) (f5 w 18) (f5 w 13) (f5 w 8)⟩,
   ⟨0x18, 0xFFE0000000, fun c w => Instr.vand c (fN 3 w 26) (fN 3 w 23) (f5 w 18) (f5 w 13) (f5 w 8)⟩,
   ⟨0x19, 0xFFE0000000, fun c w => Instr.vor c (fN 3 w 26) (fN 3 w 23) (f5 w 18) (f5 w 13) (f5 w 8)⟩,
   ⟨0x1A, 0xFFE0000000, fun c w => Instr.vxor c (fN 3 w 26) (fN 3 w 23) (f5 w 18) (f5 w 13) (f5 w 8)⟩,
   ⟨0x1B, 0xFFE0000000, fun c w => Instr.vshl c (fN 3 w 26) (fN 3 w 23) (f5 w 18) (f5 w 13) (f5 w 8)⟩]

/-- Rows of `vTable`. -/
def vTable1 : List OpRow :=
  [⟨0x1C, 0xFFE0000000, fun c w => Instr.vshr c (fN 3 w 26) (fN 3 w 23) (f5 w 18) (f5 w 13) (f5 w 8)⟩,
   ⟨0x1D, 0xFFE0000000, fun c w => Instr.vsra c (fN 3 w 26) (fN 3 w 23) (f5 w 18) (f5 w 13) (f5 w 8)⟩,
   ⟨0x20, 0, fun c w => Instr.vcvt c (fN 11 w 29) (fN 3 w 26) (fN 3 w 23) (f5 w 18) (f5 w 13) (f5 w 8)⟩,
   ⟨0x21, 0, fun c w => Instr.vmxsc c (fN 11 w 29) (fN 3 w 26) (fN 3 w 23) (f5 w 18) (f5 w 13) (f5 w 8)⟩,
   ⟨0x22, 0, fun c w => Instr.vwid c (fN 11 w 29) (fN 3 w 26) (fN 3 w 23) (f5 w 18) (f5 w 13) (f5 w 8)⟩,
   ⟨0x28, 0xFFE0000000, fun c w => Instr.vrsum c (fN 3 w 26) (fN 3 w 23) (f5 w 13) (f5 w 8)⟩,
   ⟨0x29, 0xFFE0000000, fun c w => Instr.vrmax c (fN 3 w 26) (fN 3 w 23) (f5 w 13) (f5 w 8)⟩,
   ⟨0x30, 0x1F * 2 ^ 18, fun c w => Instr.vld c (fN 14 w 26) (fN 3 w 23) (f5 w 13) (f5 w 8)⟩,
   ⟨0x31, 0x1F * 2 ^ 18, fun c w => Instr.vst c (fN 14 w 26) (fN 3 w 23) (f5 w 13) (f5 w 8)⟩,
   ⟨0x32, 0x3FFF * 2 ^ 26, fun c w => Instr.vgath c (fN 3 w 23) (f5 w 18) (f5 w 13) (f5 w 8)⟩,
   ⟨0x33, 0x3FFF * 2 ^ 26, fun c w => Instr.vscat c (fN 3 w 23) (f5 w 18) (f5 w 13) (f5 w 8)⟩,
   ⟨0x40, 0xFFE0000000, fun c w => Instr.vexp c (fN 3 w 26) (fN 3 w 23) (f5 w 13) (f5 w 8)⟩,
   ⟨0x41, 0xFFE0000000, fun c w => Instr.vlog c (fN 3 w 26) (fN 3 w 23) (f5 w 13) (f5 w 8)⟩,
   ⟨0x42, 0xFFE0000000, fun c w => Instr.vrsqrt c (fN 3 w 26) (fN 3 w 23) (f5 w 13) (f5 w 8)⟩,
   ⟨0x43, 0xFFE0000000, fun c w => Instr.vtanh c (fN 3 w 26) (fN 3 w 23) (f5 w 13) (f5 w 8)⟩,
   ⟨0x44, 0xFFE0000000, fun c w => Instr.verf c (fN 3 w 26) (fN 3 w 23) (f5 w 13) (f5 w 8)⟩,
   ⟨0x45, 0xFFE0000000, fun c w => Instr.vsigm c (fN 3 w 26) (fN 3 w 23) (f5 w 13) (f5 w 8)⟩,
   ⟨0x50, 0xFFE0000000, fun c w => Instr.pand c (fN 3 w 23) (f5 w 18) (f5 w 13) (f5 w 8)⟩,
   ⟨0x51, 0xFFE0000000, fun c w => Instr.por c (fN 3 w 23) (f5 w 18) (f5 w 13) (f5 w 8)⟩,
   ⟨0x52, 0xFFE0000000, fun c w => Instr.pxor c (fN 3 w 23) (f5 w 18) (f5 w 13) (f5 w 8)⟩]

/-- Rows of `vTable`. -/
def vTable2 : List OpRow :=
  [⟨0x53, 0xFFE0000000, fun c w => Instr.pnot c (fN 3 w 23) (f5 w 13) (f5 w 8)⟩,
   ⟨0x60, 0, fun c w => Instr.rand c (fN 11 w 29) (fN 3 w 26) (fN 3 w 23) (f5 w 18) (f5 w 13) (f5 w 8)⟩,
   ⟨0xC0, 0xFFF0000000, fun c w => Instr.tally c (f5 w 23) (f5 w 18) (f5 w 13) (f5 w 8)⟩,
   ⟨0xC1, 0xFFFF83FF00, fun c w => Instr.temit c (f5 w 18)⟩,
   ⟨0xC2, 0xFFFFFE0000, fun c w => Instr.pmcrd c (fN 4 w 13) (f5 w 8)⟩,
   ⟨0xE0, 0xFC00000000, fun c w => Instr.pack c (f5 w 29) (f5 w 24) (fN 3 w 21) (fN 3 w 18) (f5 w 13) (f5 w 8)⟩,
   ⟨0xE1, 0xFFE0E00000, fun c w => Instr.unpack c (f5 w 24) (fN 3 w 18) (f5 w 13) (f5 w 8)⟩]

/-- The vector slot (05, 03, 12). -/
def vTable : List OpRow :=
  vTable0 ++ vTable1 ++ vTable2

/-- Rows of `mTable`. -/
def mTable0 : List OpRow :=
  [⟨0x01, 0xFFC00000000, fun c w => Instr.mxcfg c (f5 w 29) (f5 w 24) (f5 w 19) (bit w 18) (bit w 17) (bit w 16) (fN 4 w 12) (fN 4 w 8)⟩,
   ⟨0x02, 0xFFFFFF00000, fun c w => Instr.mxlw c (fN 2 w 18) (f5 w 13) (f5 w 8)⟩,
   ⟨0x03, 0xFFFF0000000, fun c w => Instr.mxrun c (bit w 27) (bit w 26) (fN 2 w 24) (fN 2 w 22) (fN 2 w 20) (fN 2 w 18) (f5 w 13) (f5 w 8)⟩,
   ⟨0x04, 0xFFFC0000000, fun c w => Instr.mxdrain c (fN 4 w 26) (bit w 25) (bit w 24) (fN 4 w 20) (fN 2 w 18) (f5 w 13) (f5 w 8)⟩,
   ⟨0x05, 0xFFFFFFC0000, fun c w => Instr.mxmask c (bit w 17) (fN 2 w 15) (fN 2 w 13) (f5 w 8)⟩,
   ⟨0x40, 0xFF000000000, fun c w => Instr.put c (fN 4 w 32) (fN 3 w 29) (bit w 28) (fN 4 w 24) (f5 w 19) (f5 w 14) (f5 w 9) (bit w 8)⟩,
   ⟨0x41, 0xFF000000000, fun c w => Instr.get c (fN 4 w 32) (fN 3 w 29) (bit w 28) (fN 4 w 24) (f5 w 19) (f5 w 14) (f5 w 9) (bit w 8)⟩,
   ⟨0x42, 0xFF000000000, fun c w => Instr.acc c (fN 4 w 32) (fN 3 w 29) (bit w 28) (fN 4 w 24) (f5 w 19) (f5 w 14) (f5 w 9) (bit w 8)⟩,
   ⟨0x43, 0xFF000000000, fun c w => Instr.atom c (fN 4 w 32) (fN 3 w 29) (bit w 28) (fN 4 w 24) (f5 w 19) (f5 w 14) (f5 w 9) (bit w 8)⟩,
   ⟨0x60, 0xFFC00000000, fun c w => Instr.sld c (bit w 33) (fN 4 w 29) (f5 w 24) (f5 w 19) (f5 w 14) (f5 w 9) (bit w 8)⟩,
   ⟨0x61, 0xFFC00000000, fun c w => Instr.sst c (bit w 33) (fN 4 w 29) (f5 w 24) (f5 w 19) (f5 w 14) (f5 w 9) (bit w 8)⟩]

/-- The matrix slot (04, 03, 06). -/
def mTable : List OpRow :=
  mTable0

/-- The table of a slot: 0 S, 1 V, 2 M. -/
def opTable (slot : Nat) : List OpRow := if slot = 0 then sTable else if slot = 1 then vTable else mTable

/-- The instruction of core c that a slot's bits hold; none for an unlisted opcode or a reserved bit that is set (R71, R73). -/
def decodeSlot (c : CoreId) (slot w : Nat) : Option Instr :=
  match (opTable slot).find? (fun r => r.op == w % 256) with
  | some r => if Nat.land w r.res = 0 then some (r.make c w) else none
  | none => none

/-- Values at their lowest bits, joined. -/
def place (xs : List (Nat × Nat)) : Nat := xs.foldr (fun p a => p.1 * 2 ^ p.2 + a) 0

/-- The slot of a core instruction and its bits; a field that the instruction does not use is zero. -/
def slotBits (i : Instr) : Option (Nat × Nat) :=
  match i with
  | .nop _ => some (0, place [(0x00, 0)])
  | .add _ rd rs1 rs2 => some (0, place [(0x01, 0), (rd.toNat, 8), (rs1.toNat, 13), (rs2.toNat, 18)])
  | .sub _ rd rs1 rs2 => some (0, place [(0x02, 0), (rd.toNat, 8), (rs1.toNat, 13), (rs2.toNat, 18)])
  | .and _ rd rs1 rs2 => some (0, place [(0x03, 0), (rd.toNat, 8), (rs1.toNat, 13), (rs2.toNat, 18)])
  | .or _ rd rs1 rs2 => some (0, place [(0x04, 0), (rd.toNat, 8), (rs1.toNat, 13), (rs2.toNat, 18)])
  | .xor _ rd rs1 rs2 => some (0, place [(0x05, 0), (rd.toNat, 8), (rs1.toNat, 13), (rs2.toNat, 18)])
  | .sll _ rd rs1 rs2 => some (0, place [(0x06, 0), (rd.toNat, 8), (rs1.toNat, 13), (rs2.toNat, 18)])
  | .srl _ rd rs1 rs2 => some (0, place [(0x07, 0), (rd.toNat, 8), (rs1.toNat, 13), (rs2.toNat, 18)])
  | .sra _ rd rs1 rs2 => some (0, place [(0x08, 0), (rd.toNat, 8), (rs1.toNat, 13), (rs2.toNat, 18)])
  | .slt _ rd rs1 rs2 => some (0, place [(0x09, 0), (rd.toNat, 8), (rs1.toNat, 13), (rs2.toNat, 18)])
  | .sltu _ rd rs1 rs2 => some (0, place [(0x0A, 0), (rd.toNat, 8), (rs1.toNat, 13), (rs2.toNat, 18)])
  | .min _ rd rs1 rs2 => some (0, place [(0x0B, 0), (rd.toNat, 8), (rs1.toNat, 13), (rs2.toNat, 18)])
  | .max _ rd rs1 rs2 => some (0, place [(0x0C, 0), (rd.toNat, 8), (rs1.toNat, 13), (rs2.toNat, 18)])
  | .mul _ rd rs1 rs2 => some (0, place [(0x0D, 0), (rd.toNat, 8), (rs1.toNat, 13), (rs2.toNat, 18)])
  | .mulhu _ rd rs1 rs2 => some (0, place [(0x0E, 0), (rd.toNat, 8), (rs1.toNat, 13), (rs2.toNat, 18)])
  | .addi _ rd rs1 imm => some (0, place [(0x11, 0), (rd.toNat, 8), (rs1.toNat, 13), (imm.toNat, 18)])
  | .andi _ rd rs1 imm => some (0, place [(0x13, 0), (rd.toNat, 8), (rs1.toNat, 13), (imm.toNat, 18)])
  | .ori _ rd rs1 imm => some (0, place [(0x14, 0), (rd.toNat, 8), (rs1.toNat, 13), (imm.toNat, 18)])
  | .xori _ rd rs1 imm => some (0, place [(0x15, 0), (rd.toNat, 8), (rs1.toNat, 13), (imm.toNat, 18)])
  | .slli _ rd rs1 imm => some (0, place [(0x16, 0), (rd.toNat, 8), (rs1.toNat, 13), (imm.toNat, 18)])
  | .srli _ rd rs1 imm => some (0, place [(0x17, 0), (rd.toNat, 8), (rs1.toNat, 13), (imm.toNat, 18)])
  | .srai _ rd rs1 imm => some (0, place [(0x18, 0), (rd.toNat, 8), (rs1.toNat, 13), (imm.toNat, 18)])
  | .slti _ rd rs1 imm => some (0, place [(0x19, 0), (rd.toNat, 8), (rs1.toNat, 13), (imm.toNat, 18)])
  | .lix _ rd rs1 imm => some (0, place [(0x1F, 0), (rd.toNat, 8), (rs1.toNat, 13), (imm.toNat, 18)])
  | .ld _ rd rs1 imm => some (0, place [(0x20, 0), (rd.toNat, 8), (rs1.toNat, 13), (imm.toNat, 18)])
  | .lw _ rd rs1 imm => some (0, place [(0x21, 0), (rd.toNat, 8), (rs1.toNat, 13), (imm.toNat, 18)])
  | .st _ rd rs1 imm => some (0, place [(0x24, 0), (rd.toNat, 8), (rs1.toNat, 13), (imm.toNat, 18)])
  | .sw _ rd rs1 imm => some (0, place [(0x25, 0), (rd.toNat, 8), (rs1.toNat, 13), (imm.toNat, 18)])
  | .beq _ rs1 rs2 off => some (0, place [(0x30, 0), (rs1.toNat, 8), (rs2.toNat, 13), (off.toNat, 18)])
  | .bne _ rs1 rs2 off => some (0, place [(0x31, 0), (rs1.toNat, 8), (rs2.toNat, 13), (off.toNat, 18)])
  | .blt _ rs1 rs2 off => some (0, place [(0x32, 0), (rs1.toNat, 8), (rs2.toNat, 13), (off.toNat, 18)])
  | .bge _ rs1 rs2 off => some (0, place [(0x33, 0), (rs1.toNat, 8), (rs2.toNat, 13), (off.toNat, 18)])
  | .bltu _ rs1 rs2 off => some (0, place [(0x34, 0), (rs1.toNat, 8), (rs2.toNat, 13), (off.toNat, 18)])
  | .bgeu _ rs1 rs2 off => some (0, place [(0x35, 0), (rs1.toNat, 8), (rs2.toNat, 13), (off.toNat, 18)])
  | .jal _ rd imm => some (0, place [(0x36, 0), (rd.toNat, 8), (imm.toNat, 18)])
  | .jr _ rs1 imm => some (0, place [(0x37, 0), (rs1.toNat, 13), (imm.toNat, 18)])
  | .loop _ rs1 off => some (0, place [(0x38, 0), (rs1.toNat, 13), (off.toNat, 18)])
  | .trap _ imm => some (0, place [(0x3E, 0), (imm.toNat, 18)])
  | .halt _ => some (0, place [(0x3F, 0)])
  | .rdsh _ rd imm => some (0, place [(0x40, 0), (rd.toNat, 8), (imm.toNat, 18)])
  | .waite _ e rs1 imm => some (0, place [(0x50, 0), (e.toNat, 8), (rs1.toNat, 13), (imm.toNat, 18)])
  | .evsend _ e rs1 => some (0, place [(0x51, 0), (e.toNat, 8), (rs1.toNat, 13)])
  | .evread _ rd e => some (0, place [(0x52, 0), (rd.toNat, 8), (e.toNat, 13)])
  | .waitp _ rs1 imm => some (0, place [(0x54, 0), (rs1.toNat, 13), (imm.toNat, 18)])
  | .release _ rs1 => some (0, place [(0x55, 0), (rs1.toNat, 13)])
  | .pclr _ rs1 imm => some (0, place [(0x56, 0), (rs1.toNat, 13), (imm.toNat, 18)])
  | .bellwait _ rs1 imm => some (0, place [(0x58, 0), (rs1.toNat, 13), (imm.toNat, 18)])
  | .stepinc _ => some (0, place [(0x5A, 0)])
  | .pack _ sc sf pd pm vs vd => some (1, place [(0xE0, 0), (sc.toNat, 29), (sf.toNat, 24), (pd.toNat, 21), (pm.toNat, 18), (vs.toNat, 13), (vd.toNat, 8)])
  | .unpack _ sf pm vs vd => some (1, place [(0xE1, 0), (sf.toNat, 24), (pm.toNat, 18), (vs.toNat, 13), (vd.toNat, 8)])
  | .put _ dt sub even ev rn rr rl b => some (2, place [(0x40, 0), (dt.toNat, 32), (sub.toNat, 29), (b2n even, 28), (ev.toNat, 24), (rn.toNat, 19), (rr.toNat, 14), (rl.toNat, 9), (b2n b, 8)])
  | .get _ dt sub even ev rn rr rl b => some (2, place [(0x41, 0), (dt.toNat, 32), (sub.toNat, 29), (b2n even, 28), (ev.toNat, 24), (rn.toNat, 19), (rr.toNat, 14), (rl.toNat, 9), (b2n b, 8)])
  | .acc _ dt sub even ev rn rr rl b => some (2, place [(0x42, 0), (dt.toNat, 32), (sub.toNat, 29), (b2n even, 28), (ev.toNat, 24), (rn.toNat, 19), (rr.toNat, 14), (rl.toNat, 9), (b2n b, 8)])
  | .atom _ dt sub even ev rn rr rl b => some (2, place [(0x43, 0), (dt.toNat, 32), (sub.toNat, 29), (b2n even, 28), (ev.toNat, 24), (rn.toNat, 19), (rr.toNat, 14), (rl.toNat, 9), (b2n b, 8)])
  | .mxcfg _ rx rq rs sp as ws af wf => some (2, place [(0x01, 0), (rx.toNat, 29), (rq.toNat, 24), (rs.toNat, 19), (b2n sp, 18), (b2n as, 17), (b2n ws, 16), (af.toNat, 12), (wf.toNat, 8)])
  | .mxlw _ we rk rw => some (2, place [(0x02, 0), (we.toNat, 18), (rk.toNat, 13), (rw.toNat, 8)])
  | .mxrun _ msk clr nb ab ne we rc ra => some (2, place [(0x03, 0), (b2n msk, 27), (b2n clr, 26), (nb.toNat, 24), (ab.toNat, 22), (ne.toNat, 20), (we.toNat, 18), (rc.toNat, 13), (ra.toNat, 8)])
  | .mxdrain _ ev even clr f a rs rd => some (2, place [(0x04, 0), (ev.toNat, 26), (b2n even, 25), (b2n clr, 24), (f.toNat, 20), (a.toNat, 18), (rs.toNat, 13), (rd.toNat, 8)])
  | .mxmask _ mode nb ab rf => some (2, place [(0x05, 0), (b2n mode, 17), (nb.toNat, 15), (ab.toNat, 13), (rf.toNat, 8)])
  | .vmov _ ty pg va vd => some (1, place [(0x00, 0), (ty.toNat, 26), (pg.toNat, 23), (va.toNat, 13), (vd.toNat, 8)])
  | .vadd _ ty pg vb va vd => some (1, place [(0x01, 0), (ty.toNat, 26), (pg.toNat, 23), (vb.toNat, 18), (va.toNat, 13), (vd.toNat, 8)])
  | .vsub _ ty pg vb va vd => some (1, place [(0x02, 0), (ty.toNat, 26), (pg.toNat, 23), (vb.toNat, 18), (va.toNat, 13), (vd.toNat, 8)])
  | .vmul _ ty pg vb va vd => some (1, place [(0x03, 0), (ty.toNat, 26), (pg.toNat, 23), (vb.toNat, 18), (va.toNat, 13), (vd.toNat, 8)])
  | .vfma _ ty pg vb va vd => some (1, place [(0x04, 0), (ty.toNat, 26), (pg.toNat, 23), (vb.toNat, 18), (va.toNat, 13), (vd.toNat, 8)])
  | .vmin _ ty pg vb va vd => some (1, place [(0x05, 0), (ty.toNat, 26), (pg.toNat, 23), (vb.toNat, 18), (va.toNat, 13), (vd.toNat, 8)])
  | .vmax _ ty pg vb va vd => some (1, place [(0x06, 0), (ty.toNat, 26), (pg.toNat, 23), (vb.toNat, 18), (va.toNat, 13), (vd.toNat, 8)])
  | .vabs _ ty pg va vd => some (1, place [(0x07, 0), (ty.toNat, 26), (pg.toNat, 23), (va.toNat, 13), (vd.toNat, 8)])
  | .vneg _ ty pg va vd => some (1, place [(0x08, 0), (ty.toNat, 26), (pg.toNat, 23), (va.toNat, 13), (vd.toNat, 8)])
  | .vdiv _ ty pg vb va vd => some (1, place [(0x09, 0), (ty.toNat, 26), (pg.toNat, 23), (vb.toNat, 18), (va.toNat, 13), (vd.toNat, 8)])
  | .vsqrt _ ty pg va vd => some (1, place [(0x0A, 0), (ty.toNat, 26), (pg.toNat, 23), (va.toNat, 13), (vd.toNat, 8)])
  | .vbcast _ ty pg ra vd => some (1, place [(0x0B, 0), (ty.toNat, 26), (pg.toNat, 23), (ra.toNat, 13), (vd.toNat, 8)])
  | .vcmpeq _ ty pg vb va vd => some (1, place [(0x10, 0), (ty.toNat, 26), (pg.toNat, 23), (vb.toNat, 18), (va.toNat, 13), (vd.toNat, 8)])
  | .vcmplt _ ty pg vb va vd => some (1, place [(0x11, 0), (ty.toNat, 26), (pg.toNat, 23), (vb.toNat, 18), (va.toNat, 13), (vd.toNat, 8)])
  | .vcmple _ ty pg vb va vd => some (1, place [(0x12, 0), (ty.toNat, 26), (pg.toNat, 23), (vb.toNat, 18), (va.toNat, 13), (vd.toNat, 8)])
  | .vsel _ ty pg vb va vd => some (1, place [(0x13, 0), (ty.toNat, 26), (pg.toNat, 23), (vb.toNat, 18), (va.toNat, 13), (vd.toNat, 8)])
  | .vand _ ty pg vb va vd => some (1, place [(0x18, 0), (ty.toNat, 26), (pg.toNat, 23), (vb.toNat, 18), (va.toNat, 13), (vd.toNat, 8)])
  | .vor _ ty pg vb va vd => some (1, place [(0x19, 0), (ty.toNat, 26), (pg.toNat, 23), (vb.toNat, 18), (va.toNat, 13), (vd.toNat, 8)])
  | .vxor _ ty pg vb va vd => some (1, place [(0x1A, 0), (ty.toNat, 26), (pg.toNat, 23), (vb.toNat, 18), (va.toNat, 13), (vd.toNat, 8)])
  | .vshl _ ty pg vb va vd => some (1, place [(0x1B, 0), (ty.toNat, 26), (pg.toNat, 23), (vb.toNat, 18), (va.toNat, 13), (vd.toNat, 8)])
  | .vshr _ ty pg vb va vd => some (1, place [(0x1C, 0), (ty.toNat, 26), (pg.toNat, 23), (vb.toNat, 18), (va.toNat, 13), (vd.toNat, 8)])
  | .vsra _ ty pg vb va vd => some (1, place [(0x1D, 0), (ty.toNat, 26), (pg.toNat, 23), (vb.toNat, 18), (va.toNat, 13), (vd.toNat, 8)])
  | .vcvt _ x ty pg vb va vd => some (1, place [(0x20, 0), (x.toNat, 29), (ty.toNat, 26), (pg.toNat, 23), (vb.toNat, 18), (va.toNat, 13), (vd.toNat, 8)])
  | .vmxsc _ x ty pg vb va vd => some (1, place [(0x21, 0), (x.toNat, 29), (ty.toNat, 26), (pg.toNat, 23), (vb.toNat, 18), (va.toNat, 13), (vd.toNat, 8)])
  | .vwid _ x ty pg vb va vd => some (1, place [(0x22, 0), (x.toNat, 29), (ty.toNat, 26), (pg.toNat, 23), (vb.toNat, 18), (va.toNat, 13), (vd.toNat, 8)])
  | .vrsum _ ty pg va vd => some (1, place [(0x28, 0), (ty.toNat, 26), (pg.toNat, 23), (va.toNat, 13), (vd.toNat, 8)])
  | .vrmax _ ty pg va vd => some (1, place [(0x29, 0), (ty.toNat, 26), (pg.toNat, 23), (va.toNat, 13), (vd.toNat, 8)])
  | .vld _ imm pg rs vd => some (1, place [(0x30, 0), (imm.toNat, 26), (pg.toNat, 23), (rs.toNat, 13), (vd.toNat, 8)])
  | .vst _ imm pg rs vd => some (1, place [(0x31, 0), (imm.toNat, 26), (pg.toNat, 23), (rs.toNat, 13), (vd.toNat, 8)])
  | .vgath _ pg vi rs vd => some (1, place [(0x32, 0), (pg.toNat, 23), (vi.toNat, 18), (rs.toNat, 13), (vd.toNat, 8)])
  | .vscat _ pg vi rs vd => some (1, place [(0x33, 0), (pg.toNat, 23), (vi.toNat, 18), (rs.toNat, 13), (vd.toNat, 8)])
  | .vexp _ ty pg va vd => some (1, place [(0x40, 0), (ty.toNat, 26), (pg.toNat, 23), (va.toNat, 13), (vd.toNat, 8)])
  | .vlog _ ty pg va vd => some (1, place [(0x41, 0), (ty.toNat, 26), (pg.toNat, 23), (va.toNat, 13), (vd.toNat, 8)])
  | .vrsqrt _ ty pg va vd => some (1, place [(0x42, 0), (ty.toNat, 26), (pg.toNat, 23), (va.toNat, 13), (vd.toNat, 8)])
  | .vtanh _ ty pg va vd => some (1, place [(0x43, 0), (ty.toNat, 26), (pg.toNat, 23), (va.toNat, 13), (vd.toNat, 8)])
  | .verf _ ty pg va vd => some (1, place [(0x44, 0), (ty.toNat, 26), (pg.toNat, 23), (va.toNat, 13), (vd.toNat, 8)])
  | .vsigm _ ty pg va vd => some (1, place [(0x45, 0), (ty.toNat, 26), (pg.toNat, 23), (va.toNat, 13), (vd.toNat, 8)])
  | .pand _ pg vb va vd => some (1, place [(0x50, 0), (pg.toNat, 23), (vb.toNat, 18), (va.toNat, 13), (vd.toNat, 8)])
  | .por _ pg vb va vd => some (1, place [(0x51, 0), (pg.toNat, 23), (vb.toNat, 18), (va.toNat, 13), (vd.toNat, 8)])
  | .pxor _ pg vb va vd => some (1, place [(0x52, 0), (pg.toNat, 23), (vb.toNat, 18), (va.toNat, 13), (vd.toNat, 8)])
  | .pnot _ pg va vd => some (1, place [(0x53, 0), (pg.toNat, 23), (va.toNat, 13), (vd.toNat, 8)])
  | .rand _ x ty pg rt ri vd => some (1, place [(0x60, 0), (x.toNat, 29), (ty.toNat, 26), (pg.toNat, 23), (rt.toNat, 18), (ri.toNat, 13), (vd.toNat, 8)])
  | .tally _ rk rt rn rs => some (1, place [(0xC0, 0), (rk.toNat, 23), (rt.toNat, 18), (rn.toNat, 13), (rs.toNat, 8)])
  | .temit _ rt => some (1, place [(0xC1, 0), (rt.toNat, 18)])
  | .pmcrd _ sel rd => some (1, place [(0xC2, 0), (sel.toNat, 13), (rd.toNat, 8)])
  | .sld _ even ev rt rn rr rl ps => some (2, place [(0x60, 0), (b2n even, 33), (ev.toNat, 29), (rt.toNat, 24), (rn.toNat, 19), (rr.toNat, 14), (rl.toNat, 9), (b2n ps, 8)])
  | .sst _ even ev rt rn rr rl ps => some (2, place [(0x61, 0), (b2n even, 33), (ev.toNat, 29), (rt.toNat, 24), (rn.toNat, 19), (rr.toNat, 14), (rl.toNat, 9), (b2n ps, 8)])
  | _ => none

/-- The bits of slot k of a packet (03, "Packets"). -/
def packetSlot (p k : Nat) : Nat := if k = 0 then field p 4 40 else if k = 1 then field p 44 40 else field p 84 44

/-- A slot as decoding leaves it: an ILLEGAL slot is one whose only meaning is the fault (R71). -/
def illegalSlot (k bits : Nat) : Slot := ⟨k, .nop 0, { faults := [.illegal bits] }⟩

/-- DETAIL of an ILLEGAL fault holds the slot's own bits, whatever a field that the instruction does not use holds (R97). -/
def Slot.withBits (x : Slot) (w : Nat) : Slot :=
  { x with sem := { x.sem with faults := x.sem.faults.map (fun f => if f.code = 0x01 then .illegal w else f) } }

/-- The slots of a packet of core c. -/
def packetSlots (c : CoreId) (p : Nat) (s : State) : List Slot :=
  (List.range 3).filterMap (fun k =>
    let w := packetSlot p k
    if bit p k then
      (match decodeSlot c k w with
        | some i => some (((slotOf false i s).getD (illegalSlot k w)).withBits w)
        | none => some (illegalSlot k w))
    else if w = 0 then none
    else some (illegalSlot k w))

/-! ### Fetch and issue -/

/-- The local offset of the packet at the PC of core c. -/
def State.fetchAddr (s : State) (c : Nat) : Nat := s.progStart c + 16 * s.f .CORE_PC_PC c

/-- The packet at the PC of core c. -/
def State.fetch (s : State) (c : Nat) : Nat := (s.core c).store.rdLe (s.fetchAddr c) 16

/-- Core c fetches the packet at its PC and issues it (R71, R72, R97). An uncorrectable word in it raises STORE_ECC on it (R168); which SLOT the
record then shows the manual does not say: a free value (log entry 72). -/
def State.fetchIssue (s0 : State) (c : CoreId) : State :=
  let p := s0.fetch c
  let s := s0.storeRead c (s0.fetchAddr c) 16
  match (s.core c).eccHit (s.fetchAddr c) 16 with
  | some a => s.fresh.2.coreFault c 0x0F (s.fresh.1 % 4) (bankOf a) a
  | none =>
  if bit p 3 then s.coreFault c 0x01 3 (p % 2 ^ 32) 0 else issueNow c (packetSlots c p s) s

/-- The slots of a waiting packet. A BELLWAIT that has waited is released by its pulse, also where a full porter holds its packet on (R85, R411). -/
def State.waitSlots (s : State) (c : Nat) : List Slot :=
  (s.core c).waiting.filterMap (fun i => slotOf (s.f .CORE_STATUS_WAIT_KIND c == 3 || (s.core c).released) i s)

/-- A waiting core looks at its packet again: it issues once nothing holds it (R80, R82, R85, R411). -/
def State.retry (s : State) (c : CoreId) : State :=
  if s.cst c = stWait ∧ s.clocked c = true then issueNow c (s.waitSlots c) s else s

/-- WAITE_COMPLETE (R65, R80). -/
def execWaiteComplete (c : CoreId) (s : State) : Out := .next (if s.f .CORE_STATUS_WAIT_KIND c = 1 then s.retry c else s)

/-- WAITP_COMPLETE (R82). -/
def execWaitpComplete (c : CoreId) (s : State) : Out := .next (if s.f .CORE_STATUS_WAIT_KIND c = 2 then s.retry c else s)

/-- EVSEND_DELIVERY (R81): the oldest count in flight from src to input e of dst arrives. -/
def execEvsendDelivery (src dst : CoreId) (e : BitVec 4) (s : State) : Out :=
  let x : EvFlight := ⟨src, dst, e.toNat⟩
  .next (if x ∈ s.evFlight then ({ s with evFlight := s.evFlight.erase x } : State).deliver dst e.toNat else s)

/-- Whether the packet that core c waits with carries a stream: it waits for one of the eight to complete, and never faults for it (R177). -/
def State.streamHeld (s : State) (c : Nat) : Bool :=
  (s.core c).waiting.any (fun i => match i with
    | .sld .. => true
    | .sst .. => true
    | _ => false)

/-- Whether a wait counts toward CORE_WAIT_LIMIT: WAITE, WAITP or a full porter (R99), not BELLWAIT, not a ninth stream (R177). -/
def State.limited (s : State) (c : Nat) : Bool :=
  let kind := s.f .CORE_STATUS_WAIT_KIND c
  s.cst c == stWait && kind != 3 && !(kind == 4 && s.streamHeld c)

/-- WAIT_LIMIT (R99): a wait through more than the limit of pulses; DETAIL is the wait kind. -/
def execWaitLimit (c : CoreId) (s : State) : Out :=
  let lim := s.f .CORE_WAIT_LIMIT_BELLS c
  let kind := s.f .CORE_STATUS_WAIT_KIND c
  .next (if s.limited c ∧ lim ≠ 0 ∧ lim < (s.core c).waitBells then s.coreFault c 0x0B (if kind = 4 then 2 else 0) kind 0 else s)

/-- CORE_CTRL.HOLD is set (R411): the core stops at its packet boundary; a wait is abandoned without effect. -/
def State.hold (s : State) (c : Nat) : State :=
  let t := s.setF .CORE_CTRL_HOLD c 1
  if s.cst c = stRun ∨ s.cst c = stWait then
    ((t.setF .CORE_STATUS_STATE c stHeld).setF .CORE_STATUS_WAIT_KIND c 0).modCore c Core.endWait
  else t

/-- CORE_HOLD (R411). -/
def execCoreHold (c : CoreId) (s : State) : Out := .next (if s.enabled c then s.hold c else s)

/-- CORE_CTRL.HOLD is cleared (R411): the core resumes with the packet at its PC. -/
def State.resumeCore (s : State) (c : Nat) : State :=
  let t := s.setF .CORE_CTRL_HOLD c 0
  if s.cst c = stHeld then t.setF .CORE_STATUS_STATE c stRun else t

/-- CORE_RESUME (R411). -/
def execCoreResume (c : CoreId) (s : State) : Out := .next (if s.enabled c then s.resumeCore c else s)

/-! ### A cycle of the cores -/

/-- A cycle that core c waits (R324, R325): the wait's event, the top-down slots, and PRT_CNT_FULL (R91). -/
def State.waitCycle (s : State) (c : Nat) : State :=
  let k := s.f .CORE_STATUS_WAIT_KIND c
  let t := (s.pmc c (0x04 + k)).spend c 1 (k == 2)
  if k = 4 then t.bump .PRT_CNT_FULL_COUNT c else t

/-- Whether the region of core c lets this cycle pass: a halved region runs in every second cycle of the others (R40). -/
def State.skipsCycle (s : State) (c : Nat) : Bool := s.f .CLK_RGN_STATUS_HALVED (c / 8) == 1 && s.clk.half

/-- What core c does in a cycle that no earlier packet takes: at its packet boundary it meets a fill-port error, a packet at its PC issues, or its
waiting packet is looked at again. -/
def State.boundary (s : State) (c : CoreId) : State :=
  if s.cst c = stRun ∨ s.cst c = stWait then
    (if (s.core c).fillErr.isSome then s.takeFillErr c else if s.cst c = stRun then s.fetchIssue c else s.retry c)
  else s

/-- One cycle of core c's region (R325): nothing happens while an earlier packet takes its cycles; a cycle in which no packet issues is counted
as one of waiting, or as one without work. -/
def State.coreCycle (s : State) (c : CoreId) : State :=
  if s.clocked c = false ∨ s.skipsCycle c then s
  else
    let t := s.modCore c (fun k => { k with elapsed := k.elapsed + 1 })
    if (t.core c).elapsed ≤ (t.core c).cyc then t
    else
      let u := t.boundary c
      if (u.core c).elapsed ≤ (u.core c).cyc then u
      else if u.cst c = stWait then u.waitCycle c
      else u.spend c 1 false

/-- One cycle of every enabled core whose cluster is on. The granules that TALLY reads in this cycle are folded after the emits of the cycle, which take
the sum without them (R321). -/
def State.coresCycle (s : State) : State :=
  let t := (List.finRange 128).foldl (fun (s : State) (c : CoreId) => if s.enabled c ∧ s.f .PWR_CLU_OFF (c / 8) = 0 then s.coreCycle c else s) s
  t.cores.foldl (fun s p => if p.2.tallies = [] then s else s.tallyTo p.1 p.2.elapsed) t

end Sys2Proof.Machine
end

