-- ==== Sys2Proof/Machine/Bell.lean ====
section
/-!
DEFINITION. The bell pulse and what happens with it (R44, R49-R57, R61, R67, R85, R99, R104, R206, R242, R243, R263, R279, R301, R306), and a cycle
of the time clock.
-/
namespace Sys2Proof.Machine

/-! ### Time -/

/-- Wall time advances by k time-clock cycles (R57). -/
def State.wallAdvance (s : State) (k : Nat) : State :=
  let x := s.f .BEL_WALL_NS_NS * 2 ^ 32 + s.bel.wallFrac + k * s.f .BEL_WALL_INC_INC
  let ns := x / 2 ^ 32
  let t := (s.setF .BEL_WALL_NS_NS 0 (ns % 1000000000)).setF .BEL_WALL_S_S 0 (s.f .BEL_WALL_S_S + ns / 1000000000)
  { t with bel := { t.bel with wallFrac := x % 2 ^ 32 } }

/-- k cycles of the time clock: phase and wall time (R53, R57). -/
def State.timeAdvance (s : State) (k : Nat) : State := (s.wallAdvance k).setPhase (s.bel.phase + k * s.f .BEL_FT_INC_INC)

/-! ### The bell commit (R51) -/

/-- The bell unit takes the staged values at the start of bell C - 1. -/
def State.decideBel (s : State) : State :=
  match s.bel.commit with
  | none => s
  | some c =>
    if s.now + 1 ≠ c ∨ s.bel.decided.isSome then s
    else if c < s.f .BEL_ROUND_ORIGIN_BELL then
      let t := ((s.setF .BEL_STATUS_CFG_MISMATCH 0 1).setF .BEL_COMMIT_STATUS 0 3).setF .BEL_COMMIT_ARM 0 0
      { t with bel := { t.bel with commit := none } }
    else
      let x : BellSet :=
        { us := s.f .BEL_LEN_US, len := s.f .BEL_ROUND_LEN_LEN_M1 + 1, origin := s.f .BEL_ROUND_ORIGIN_BELL
          quiet := upto 64 (fun i m => Map.set 0 m i (s.f .BEL_QUIET_MAP i)) [], margins := (List.range 12).map (fun k => s.f .HBM_CTRL_MARGIN k) }
      { s with bel := { s.bel with decided := some x } }

/-- A decided bell commit takes effect at the start of bell C. -/
def State.applyBel (s : State) : State :=
  match s.bel.commit, s.bel.decided with
  | some c, some x =>
    if s.now ≠ c then s
    else
      let old := (c, s.f .BEL_ACTIVE_US, s.roundLen, s.bel.origin)
      let s1 := (((s.setF .BEL_ACTIVE_US 0 x.us).setF .BEL_ACTIVE_LEN_M1 0 (x.len - 1)).setF .BEL_COMMIT_STATUS 0 7).setF .BEL_COMMIT_ARM 0 0
      let s2 := upto 12 (fun k s => s.setF .HBM_STATUS_MARGIN_ACT k (x.margins.getD k 2)) s1
      { s2 with bel := { s2.bel with commit := none, decided := none, prev := some old, origin := x.origin, quiet := x.quiet } }
  | _, _ => s

/-- The commits at the start of a bell, the bell unit first: those of this bell take effect, those of the next are decided (R51, R242); the ledger
records each kind that has taken effect, the sets of all links as one (R306). -/
def State.commits (s : State) : State :=
  let due := fun (n : Nat) => match (s.link n).base with
    | some x => x.1 == s.now
    | none => false
  let belKey := if s.bel.commit = some s.now ∧ s.bel.decided.isSome then [0] else []
  let stlKey := (((List.range 64).find? due).map (fun n => 1 + n)).toList
  let opnKey := match s.opn.base with
    | some x => if x.1 = s.now then [65] else []
    | none => []
  let s1 := s.applyBel.decideBel
  let s2 := upto 64 (fun n s => (s.applyStl n).decideStl n) s1
  (belKey ++ stlKey ++ opnKey).foldl (fun s k => s.commitEntry k (s.planAtBell s.now)) s2.applyOpn.decideOpn

/-! ### The servo (R52-R54) -/

/-- off of R52 for the parent's last mark, in 2^-16 ns. -/
def State.offset (s : State) : Int :=
  let p := s.parentLink
  s.stampDiff (s.f .BEL_TS_ARR_TS p) (s.f .BEL_TS_DEP_TS p) - (s.f .BEL_LINKDLY_DLY p : Int)

/-- The increment of R52 for an offset and an accumulator in 2^-16 ns and a bell of us microseconds, rounded to nearest. -/
def servoInc (off acc : Int) (us : Nat) : Nat :=
  let den : Int := (100000 * us : Nat)
  let num : Int := 65536 * (25 * off + 2 * acc)
  ((2 : Int) ^ 32 - (2 * num + den) / (2 * den)).toNat

/-- Whether the servo runs for the bell that has ended (R52, R54, R56): a usable mark came, no HOLDOVER, this chip is not the root, and
fabric time has been set. -/
def State.servoRuns (s : State) : Bool :=
  s.bel.usable && s.f .BEL_CTRL_ROOT == 0 && s.f .BEL_STATUS_HOLDOVER == 0 && (s.f .BEL_STATUS_JOINED == 1 || s.rst.acq == 17)

/-- The servo, once a bell (R52); a bell in which it is skipped leaves the count of R56 as it is (DEDUCED, log entry 42). -/
def State.servo (s : State) : State :=
  if s.servoRuns = false then s
  else
    let off := s.offset
    let acc := s.bel.acc + off
    let t := { s with
      bel := { s.bel with acc := acc }
      rst := { s.rst with good := if off.natAbs < 10 * 65536 then s.rst.good + 1 else 0 } }
    t.setInc .BEL_FT_INC_INC (servoInc off acc (max (s.f .BEL_ACTIVE_US) 1))

/-- The counts of bells without a usable mark and of PARENT_FRESH, and CTL1's return to the parent slot (R54). -/
def State.markCount (s : State) : State :=
  let t := { s with bel := { s.bel with
    noMark := if s.bel.usable then 0 else s.bel.noMark + 1
    usable := false
    freshFor := if s.fb .BEL_STATUS_PARENT_FRESH then s.bel.freshFor + 1 else 0 } }
  if 64 ≤ t.bel.freshFor ∧ t.f .BEL_STATUS_ALT_ACTIVE = 1 then t.setParent (t.f .BEL_PARENT_PARENT) (t.f .BEL_PARENT_ALT) (t.f .BEL_PARENT_ALT_EN) else t

/-! ### The pulse in the cores (R67, R85, R99) -/

/-- The pulse reaches core c: BELL, a BELLWAIT that names the bell, the count of pulses a wait has lasted. -/
def State.pulseCore (s : State) (c : CoreId) : State :=
  let t := s.modCore c (fun k => { k with
    bell := s.now % 2 ^ 64
    waitBells := if s.limited c then k.waitBells + 1 else k.waitBells })
  if s.f .CORE_STATUS_WAIT_KIND c = 3 then t.retry c else t

/-- The pulse reaches every core that is not off. -/
def State.pulseCores (s : State) : State :=
  (List.finRange 128).foldl (fun (s : State) (c : CoreId) => if s.enabled c ∧ s.f .PWR_CLU_OFF (c / 8) = 0 then s.pulseCore c else s) s

/-! ### The pulse at the links -/

/-- Link n at the start of a bell: its stalls start again, the flows that ran in this round (R222), the error window (R206), the flow watch (R263), the page shown. -/
def State.pulseLink (s : State) (n : Nat) : State :=
  let last := match s.txPage n (s.now - 1) with
    | some p => bookedFlows p
    | none => []
  let s1 := s.modLink n (fun l => { l with slot := 0, ran := if s.roundPos s.now = 0 then [] else (l.ran ++ last).dedup })
  let w := max (s.f .LNK_ERR_CFG_WINDOW n) 1
  let s2 := if s.now % w = 0 then s1.setF .LNK_STATUS_ERR_WIN n 0 else s1
  let s3 := if (s.link n).tflows.isEmpty ∧ (s.link n).rflows.isEmpty then s2 else s2.watchLink n
  if (s.link n).live then s3.setF .STL_TXPAGE_PAGE n (s.pageNo (s.f .STL_TXBASE_ACT_BASE n * 65536) s.now) else s3

/-! ### The pulse -/

/-- Banks at a bell (R301, R302): DRAIN counts down at a round boundary, then the armed swap acts. -/
def State.pulseBanks (s : State) : State :=
  let t := if s.roundPos s.now = 0 then upto 32 (fun r s => s.drainRegion r) s else s
  t.swapBell (s.planAtBell s.now)

/-- The start of a new bell: everything that acts with the pulse. -/
def State.pulse (s : State) : State :=
  let s1 := (s.setF .BEL_NOW_BELL 0 (s.now + 1)).commits
  let s3 := s1.servo.markCount
  let s4 := upto 12 (fun k s => s.setStack k { s.stack k with noted := false }) s3
  let s5 := (upto 64 (fun n s => s.pulseLink n) s4).crierBell.pulseBanks
  let s6 := s5.loadBell.startDue.pulseCores
  s6.fireDue.fchgStop.agreeBell.rerouteDue.agreeWanted

/-- Time-clock cycles left until the phase reaches the bell length (R49). -/
def State.cyclesLeft (s : State) : Nat := ceilDiv (s.bellSpan - s.bel.phase) (max (s.f .BEL_FT_INC_INC) 1)

/-- The phase has reached the bell length: it restarts, and the pulse goes out (R49). -/
def State.bellEnd (s : State) : State := (s.setPhase (s.bel.phase - s.bellSpan)).ldgTogether State.pulse

/-- BELL_PULSE (R49): the time clock runs to the end of the bell (log entry 41). -/
def execBellPulse (s : State) : Out := .next (s.timeAdvance s.cyclesLeft).bellEnd

/-- What step does on an empty queue (log entry 41): one cycle of the cores and of the time clock. Until the clocks have started nothing
happens. -/
def State.tick (s : State) : State :=
  if s.rst.boot < 4 then s
  else
    s.ldgTogether (fun s =>
      let t := ({ s.coresCycle with clk := { s.coresCycle.clk with half := !s.clk.half } } : State).timeAdvance 1
      let u := t.l2Cycle.handOverDue
      if u.bellSpan ≤ u.bel.phase then u.bellEnd else u)

end Sys2Proof.Machine
end

