-- ==== Sys2Proof/Machine/RegAccess.lean ====
section
/-!
DEFINITION. Register space: the blocks of R161, the access types and widths of R8-R16, what a write of each register starts, the
views a read gives, and the filter of BAR0 (R341).
-/
namespace Sys2Proof.Machine

/-! ### Where an offset leads (R161) -/

/-- Offset x from a base of windows of 2 ^ k bytes, n of them: the window and the offset in it. -/
def windowOf (x base k n : Nat) : Option (Nat × Nat) :=
  if base ≤ x ∧ x < base + n * 2 ^ k then some ((x - base) / 2 ^ k, (x - base) % 2 ^ k) else none

/-- The block of a core window at an offset in it. -/
def coreBlock (x : Nat) : Blk × Nat :=
  if x < 0x1000 then (.core, x) else if x < 0x2000 then (.mxe, x - 0x1000) else if x < 0x3000 then (.vec, x - 0x2000)
  else if x < 0x4000 then (.prt, x - 0x3000) else (.pmc, x - 0x4000)

/-- Whether a block's registers stand in the core window. -/
def Blk.perCore (b : Blk) : Bool := b == .core || b == .mxe || b == .vec || b == .prt || b == .pmc

/-- The block whose range holds an offset of register space, its unit (a core, stack or link) and the offset in its block (R161). -/
def rangeBlock (off : Nat) : Option (Blk × Nat × Nat) :=
  let plain := fun (b : Blk) (base : Nat) => (b, 0, off - base)
  if off < 0x100000 then some (.chip, 0, off)
  else if off < 0x200000 then some (plain .clk 0x100000)
  else if off < 0x1000000 then some (plain .bel 0x200000)
  else if off < 0x2000000 then
    let k := (off - 0x1000000) / 0x100000
    let r := off % 0x100000
    let c := 8 * k + r / 0x10000
    if r < 0x80000 then some ((coreBlock (r % 0x10000)).1, c, (coreBlock (r % 0x10000)).2) else none
  else match windowOf off 0x10000000 20 12, windowOf off 0x20000000 16 64, windowOf off 0x21000000 16 64 with
  | some (k, x), _, _ => some (.hbm, k, x)
  | _, some (n, x), _ => some (.lnk, n, x)
  | _, _, some (n, x) => some (.stl, n, x)
  | _, _, _ =>
    if off < 0x22000000 then none
    else if off < 0x30000000 then some (plain .opn 0x22000000)
    else if off < 0x31000000 then some (plain .wgt 0x30000000)
    else if off < 0x40000000 then some (plain .ldg 0x31000000)
    else if off < 0x40010000 then some (plain .ctl 0x40000000)
    else if off < 0x41000000 then some (plain .mbx 0x40010000)
    else if off < 0x50000000 then some (plain .hst 0x41000000)
    else if off < 0x51000000 then some (plain .sec 0x50000000)
    else if off < 0x60000000 then some (plain .lif 0x51000000)
    else if off < 0x60001000 then some (plain .pwr 0x60000000)
    else some (plain .rst 0x60001000)

/-- The block that answers at an offset: none where no block lies, and in the core window of a core that is fused off (R22). -/
def State.blockAt (s : State) (off : Nat) : Option (Blk × Nat × Nat) := (rangeBlock off).filter (fun x => !x.1.perCore || s.enabled x.2.1)

/-- The element of register r at an offset in its block, and the offset in the element. -/
def Reg.element (r : Reg) (x : Nat) : Option (Nat × Nat) :=
  if x < r.off then none
  else
    let d := x - r.off
    let i := if r.cnt ≤ 1 then 0 else d / r.stride
    if i < r.cnt ∧ d - i * r.stride < r.width / 8 then some (i, d - i * r.stride) else none

/-- A register that an access reaches: the register, its element (unit by unit), and the byte offset in it. -/
structure Target where
  reg : Reg
  idx : Nat
  at_ : Nat
  deriving DecidableEq, Repr

/-- The register at an offset of register space; none for an unlisted offset (R13). -/
def State.target (s : State) (off : Nat) : Option Target :=
  match s.blockAt off with
  | none => none
  | some (b, u, x) => allRegs.findSome? (fun r => if r.blk == b then (r.element x).map (fun e => ⟨r, u * r.cnt + e.1, e.2⟩) else none)

/-! ### Fields -/

/-- Whether the lock of an LK field is set (R11). -/
def State.locked (s : State) (fl : Fld) : Bool :=
  if fl == .CHIP_ADDR_GROUP then s.f .CHIP_ADDR_LOCK == 1
  else if fl == .CTL_HOSTWR_MASK then s.f .CTL_LOCK_LOCK == 1
  else s.f .MBX_CTRL_BIND_LOCK == 1

/-- The writable fields whose writing is an action of the register (`State.act`) and no plain store. -/
def actingFlds : List Fld :=
  [.BEL_FT_INC_INC, .BEL_WALL_INC_INC, .BEL_PARENT_PARENT, .BEL_PARENT_ALT, .BEL_PARENT_ALT_EN, .BEL_TRIG_CTRL_LATE, .BEL_TRIG_CTRL_KIND,
   .BEL_TRIG_CTRL_CORE, .BEL_TRIG_CTRL_EVENT, .CORE_CTRL_HOLD, .CORE_CTRL_FENCE, .LNK_CTRL_EN, .CHIP_GROUP_VIEW_HEALTHY,
   .LDG_CTRL_MODE, .CTL_MASTER_CORE, .MBX_DATA_NOTICE, .HST_CQ_TAIL_TAIL, .HST_CPL_HEAD_HEAD]

/-- The fields of a G-link that an L-link does not have: they read zero and ignore writes (08, LNK_MOD; R209). -/
def gOnly (fl : Fld) (i : Nat) : Bool :=
  decide (i < 32) && (fl == .LNK_MOD_PRESENT || fl == .LNK_MOD_INT || fl == .LNK_MOD_RESET || fl == .LNK_MOD_LPMODE || fl == .LNK_CFG_ENC_EN)

/-- Store the value x written to a field, by its access type. -/
def State.store (s : State) (i : Nat) (p : Fld × Nat) : State :=
  let fl := p.1
  let x := p.2
  if gOnly fl i then s
  else match fl.acc with
  | .RO => s
  | .RC => s
  | .WO => s.setF fl i x
  | .RW => if decide (fl ∈ actingFlds) || !s.legal fl x then s else s.setF fl i (if fl == .CLK_REFMON_CFG_QUAL_MS then max x 1 else x)
  | .ST => if s.legal fl x then s.setF fl i x else s
  | .LK => if s.locked fl then s else s.setF fl i x
  | .W1C => if fl ∈ actingFlds then s else s.setF fl i (s.f fl i - Nat.land (s.f fl i) x)
  | .W1S => if fl == .CTL_LOCK_LOCK || fl == .MBX_CTRL_BIND_LOCK then s.setF fl i (Nat.lor (s.f fl i) x) else s

/-- What each field of element i takes from a write whose bits from `lo` up are written: nothing for a field below `lo`, its high bits
for a field across it (R15). -/
def State.taken (s : State) (r : Reg) (i lo v : Nat) : List (Fld × Nat) :=
  (r.flds.filter (fun fl => decide (lo < fl.lo + fl.w))).map (fun fl =>
    let k := lo - fl.lo
    (fl, field v fl.lo fl.w / 2 ^ k * 2 ^ k + s.f fl i % 2 ^ k))

/-- The value a write gives a field; 0 when the write does not reach it. -/
def given (xs : List (Fld × Nat)) (fl : Fld) : Nat := ((xs.find? (fun p => p.1 == fl)).map (·.2)).getD 0

/-! ### What a write starts -/

/-- Clocks, bells and time (R46, R51, R53-R57, R61). -/
def State.actBell (s : State) (m : Nat) (r : Reg) (i : Nat) (g : Fld → Nat) : State :=
  if r == .CLK_FCHG_CTRL then (if g .CLK_FCHG_CTRL_ARM = 1 then s.fchgArm m else s)
  else if r == .BEL_CTRL then (if g .BEL_CTRL_JOIN = 1 then s.joinFabric else s)
  else if r == .BEL_FT_INC then s.setInc .BEL_FT_INC_INC (g .BEL_FT_INC_INC)
  else if r == .BEL_WALL_INC then s.setInc .BEL_WALL_INC_INC (g .BEL_WALL_INC_INC)
  else if r == .BEL_FT_STEP then (if s.f .BEL_STATUS_JOINED = 1 then s else s.stepPhase (signed 48 (g .BEL_FT_STEP_STEP)))
  else if r == .BEL_FT_SETBELL then s.setBell (g .BEL_FT_SETBELL_BELL)
  else if r == .BEL_COMMIT then (if g .BEL_COMMIT_ARM = 1 then s.armBel (s.f .BEL_COMMIT_BELL) else s)
  else if r == .BEL_PARENT then s.setParent (g .BEL_PARENT_PARENT) (g .BEL_PARENT_ALT) (g .BEL_PARENT_ALT_EN)
  else if r == .BEL_WALL_SET_NS then s.wallSet (g .BEL_WALL_SET_NS_NS)
  else if r == .BEL_TRIG_CTRL then s.trigWrite i (Machine.place [(g .BEL_TRIG_CTRL_ARM, 0), (g .BEL_TRIG_CTRL_LATE, 1),
    (g .BEL_TRIG_CTRL_KIND, 2), (g .BEL_TRIG_CTRL_CORE, 3), (g .BEL_TRIG_CTRL_EVENT, 10)])
  else s

/-- CORE_CTRL (R411, R283). -/
def State.actCore (s : State) (n : Nat) (g : Fld → Nat) : State :=
  let hold := g .CORE_CTRL_HOLD
  let fence := g .CORE_CTRL_FENCE
  let t := if hold = s.f .CORE_CTRL_HOLD n then s else if hold = 1 then s.hold n else s.resumeCore n
  if fence = s.f .CORE_CTRL_FENCE n then t else t.writeFence n (fence == 1)

/-- LNK_CTRL (R198, R203, R414). -/
def State.actLnk (s : State) (n : Nat) (g : Fld → Nat) : State :=
  let en := g .LNK_CTRL_EN
  let s1 := if en = s.f .LNK_CTRL_EN n then s else if en = 1 then s.linkEnable n else s.linkDisable n
  let s2 := if g .LNK_CTRL_RETRAIN = 1 then s1.retrainWrite n else s1
  let s3 := if g .LNK_CTRL_RESET = 1 then s2.resetWrite n else s2
  if g .LNK_CTRL_FLUSH = 1 then s3.flushWrite n else s3

/-- A write of TAL_SHEET_TAIL (R323). -/
def State.sheetTail (s : State) : State := ({ s with ldg := { s.ldg with sheetFull := false } } : State).talNear

/-- Links, stalls, open routes and weights (R198, R208, R228, R242, R300, R323). -/
def State.actFabric (s : State) (r : Reg) (i : Nat) (g : Fld → Nat) : State :=
  if r == .CORE_CTRL then s.actCore i g
  else if r == .LNK_CTRL then s.actLnk i g
  else if r == .LNK_ENC then (if g .LNK_ENC_REKEY_ARM = 1 then s.armRekey i (s.f .LNK_ENC_REKEY_BELL i) else s)
  else if r == .STL_COMMIT then (if g .STL_COMMIT_ARM = 1 then s.armStl i (s.f .STL_COMMIT_BELL i) else s)
  else if r == .OPN_COMMIT then (if g .OPN_COMMIT_ARM = 1 then s.armOpn (s.f .OPN_COMMIT_BELL) else s)
  else if r == .FLW_CTRL then (if g .FLW_CTRL_RESET = 1 then s.flowReset i else s)
  else if r == .WGT_SWAP then (if g .WGT_SWAP_ARM = 1 then s.armSwap (s.f .WGT_SWAP_BELL) else s)
  else if r == .TAL_SHEET_TAIL then s.sheetTail
  else if r == .CHIP_ADDR then (if g .CHIP_ADDR_LOCK = 1 then s.lockGroup (s.f .CHIP_ADDR_GROUP) else s)
  else if r == .CHIP_HALT then (if g .CHIP_HALT_STOP = 1 then s.stopStep 0x1 else s)
  else if r == .CHIP_GROUP_VIEW then s.setHealthy (g .CHIP_GROUP_VIEW_HEALTHY)
  else s

/-- A write of LDG_RING_TAIL: the host has consumed entries (R310). -/
def State.ringTail (s : State) : State := ({ s with ldg := { s.ldg with ringFull := false } } : State).ldgNear

/-- A write of LDG_PAY_TAIL (R310). -/
def State.payTail (s : State) : State :=
  let size := 2 ^ s.f .LDG_PAY_CFG_LOG2
  { s with ldg := { s.ldg with payUsed := (s.f .LDG_PAY_HEAD_OFF + size - s.f .LDG_PAY_TAIL_OFF % size) % size } }

/-- A write of CTL_PWR[i] (R335): the core gates at its next wait-for-interrupt, which the model takes at once (log entry 12). -/
def State.gateCore (s : State) (i : Nat) : State := s.setFb .CTL_STATUS_GATED 0 i (s.f .CTL_PWR_GATE i == 1)

/-- Unmasking vector v sends the message it holds pending (log entry 13). -/
def State.msixSend (s : State) (v : Nat) : State :=
  if s.f .HST_MSIX_CTRL_MASK v = 0 ∧ s.fb .HST_MSIX_PBA_PEND 0 v ∧ s.hst.busMaster then (s.setFb .HST_MSIX_PBA_PEND 0 v false).msix v else s

/-- A write of HST_CTRL: the host that enables the queue has turned bus mastering on (R350; log entry 45). -/
def State.hostEnable (s : State) : State :=
  if s.f .HST_CTRL_CQ_EN = 1 then upto 64 (fun v s => s.msixSend v) { s with hst := { s.hst with busMaster := true } } else s

/-- The ledger, the control complex, the host interface and the resets (R310, R313, R328, R332, R333, R344, R345, R381-R383). -/
def State.actCtl (s : State) (m : Nat) (r : Reg) (i : Nat) (g : Fld → Nat) : State :=
  if r == .LDG_CTRL then (if g .LDG_CTRL_MODE = s.f .LDG_CTRL_MODE then s else s.setLdgMode (g .LDG_CTRL_MODE))
  else if r == .LDG_RING_TAIL then s.ringTail
  else if r == .LDG_PAY_TAIL then s.payTail
  else if r == .CTL_MASTER then s.masterWrite m (g .CTL_MASTER_CORE)
  else if r == .CTL_WDOG then s.wdogWrite i (s.f .CTL_WDOG_LIMIT i)
  else if r == .CTL_PWR then s.gateCore i
  else if r == .MBX_DATA then s.mbxWrite m i (g .MBX_DATA_NOTICE)
  else if r == .MBX_LOCK then (if g .MBX_LOCK_RELEASE = 1 then s.mbxRelease m i else s)
  else if r == .HST_CTRL then s.hostEnable
  else if r == .HST_CQ_TAIL then s.doorbell (g .HST_CQ_TAIL_TAIL)
  else if r == .HST_CPL_HEAD then s.cplHead (g .HST_CPL_HEAD_HEAD)
  else if r == .HST_MSIX_CTRL then s.msixSend i
  else if r == .RST_CTRL then (if g .RST_CTRL_WARM = 1 then s.warmAsk 0x2 else s)
  else if r == .RST_CLUSTER then (if g .RST_CLUSTER_MASK = 0 then s else s.clusterReset (g .RST_CLUSTER_MASK))
  else if r == .RST_CORE then (if g .RST_CORE_GO = 1 then s.coreReset (s.f .RST_CORE_CORE) else s)
  else s

/-- The master that writes an ARM is the one that arms the commit (R306). -/
def State.armer (s : State) (m : Nat) (r : Reg) (i : Nat) (g : Fld → Nat) : State :=
  if r == .BEL_COMMIT ∧ g .BEL_COMMIT_ARM = 1 then s.armedBy 0 m
  else if r == .STL_COMMIT ∧ g .STL_COMMIT_ARM = 1 then s.armedBy (1 + i) m
  else if r == .OPN_COMMIT ∧ g .OPN_COMMIT_ARM = 1 then s.armedBy 65 m
  else if r == .WGT_SWAP ∧ g .WGT_SWAP_ARM = 1 then s.armedBy 66 m
  else s

/-- A write of element i of register r by master m, of the bits from `lo` up: every field takes its part, then the register acts. -/
def State.writeReg (s : State) (m : Nat) (r : Reg) (i lo v : Nat) : State :=
  let xs := s.taken r i lo v
  let g := given xs
  let t := xs.foldl (fun s p => s.store i p) s
  match r.blk with
  | .clk | .bel => (t.actBell m r i g).armer m r i g
  | .core | .lnk | .stl | .opn | .wgt | .chip => (t.actFabric r i g).armer m r i g
  | _ => t.actCtl m r i g

/-! ### What a read shows -/

/-- FLW_STATE of link n: the selected flow (09, FLW_STATE). -/
def State.flowView (s : State) (n : Nat) : Nat :=
  let f := s.f .FLW_SEL_FLOW n
  let busy := s.f .FLW_STATE_RESET_BUSY n
  if s.f .FLW_SEL_DIR n = 0 then
    let x := s.tflow n f
    Machine.place [(min x.permits 255, 0), (x.slot % 16, 8), (x.cursor % 65536, 12), (b2n x.active, 28), (b2n x.refused, 29), (busy, 30), (min x.puts.length 15, 32)]
  else
    let x := s.rflow n f
    Machine.place [(x.slot % 16, 8), (x.cursor % 65536, 12), (b2n (x.cursor != 0), 28), (b2n x.refused, 29), (busy, 30)]

/-- What a field shows that the outside world sets and no row brings: the module's pins (R182), a lane's SNR and symbol errors, the negotiated PCIe rate
and width (R339); by the free value x of the read (log entry 18). -/
def measured (fl : Fld) (x : Nat) : Option Nat :=
  if fl = .LNK_MOD_PRESENT ∨ fl = .LNK_MOD_INT ∨ fl = .LNK_LANE_SNR ∨ fl = .LNK_LANE_SYMERR then some (field x fl.lo fl.w)
  else if fl = .HST_LINK_RATE then some (x % 7)
  else if fl = .HST_LINK_WIDTH then some ([0, 1, 2, 4, 8, 16].getD (x / 7 % 6) 0)
  else none

/-- What a read of element i of a register by master m shows: its fields, a write-only field as zero, or the view its table gives. -/
def State.view (s : State) (m : Nat) (r : Reg) (i : Nat) : Nat :=
  if r == .MBX_PEEK then s.f .MBX_DATA_NOTICE i
  else if r == .MBX_DATA then (if s.f .MBX_BIND_RECV i = m ∧ s.f .MBX_STAT_FULL i = 1 then s.f .MBX_DATA_NOTICE i else 0)
  else if r == .MBX_LOCK then
    (if s.mbxSender m i ∧ s.f .MBX_STAT_FULL i = 0 ∧ (s.f .MBX_STAT_LOCKED i = 0 ∨ s.f .MBX_STAT_OWNER i = m) then 0 else s.lockView m i)
  else if r == .FLW_STATE then s.flowView i
  else if r == .PRT_STATUS then Machine.place [((s.core i).inflight, 0), ((s.core i).streams.length, 8)]
  else if r == .MXE_CFG then
    let c := (s.core i).mcfg
    Machine.place [(c.wf, 0), (c.af, 4), (b2n c.ws, 8), (b2n c.as, 9), (b2n c.sp, 10)]
  else if r == .BEL_ROUND_POS then s.roundPos s.now
  else if r == .BEL_WALL_S then s.bel.wallCap.getD (s.f .BEL_WALL_S_S)
  else if r == .BEL_NOW then s.bel.nowCap.getD s.now
  else (r.flds.map (fun fl => if fl.acc = .WO ∨ gOnly fl i then 0 else (measured fl s.fresh.1).getD (s.f fl i) * 2 ^ fl.lo)).sum

/-- Clear the bits from `lo` up of the RC fields of element i (R9, R15): of a field that reaches across `lo` the bits below stay, so that no
count is lost unread. -/
def State.clearRc (s : State) (r : Reg) (i lo : Nat) : State :=
  r.flds.foldl (fun s fl => if fl.acc = .RC ∧ lo < fl.lo + fl.w then s.setF fl i (s.f fl i % 2 ^ (lo - fl.lo)) else s) s

/-- What a read of element i by master m does beyond clearing RC fields: notices are taken, locks granted, times captured, wall-time
reads recorded. It leaves the answer. -/
def State.readEffect (s : State) (m : Master) (r : Reg) (i : Nat) : State :=
  if r == .MBX_DATA then s.mbxTake m i
  else if r == .MBX_LOCK then s.mbxLock m i
  else if r == .BEL_WALL_NS then s.wallNsRead m.toNat
  else if r == .BEL_PHASE then s.phaseRead m.toNat
  else if r == .BEL_WALL_S then { s.answer m (s.view m.toNat r i) with bel := { s.bel with wallCap := none } }
  else if r == .BEL_NOW then { s.answer m (s.view m.toNat r i) with bel := { s.bel with nowCap := none } }
  else if r == .LDG_WALL_NS then s.ldgWallRead m
  else if r.flds.any (fun fl => (measured fl 0).isSome) then s.fresh.2.answer m (s.view m.toNat r i)
  else s.answer m (s.view m.toNat r i)

/-- A read of a whole register (R9). -/
def State.readReg (s : State) (m : Master) (r : Reg) (i : Nat) : State := (s.readEffect m r i).clearRc r i 0

/-! ### The filter of BAR0 (R341) -/

/-- The bit of CTL_HOSTWR.MASK that opens a block to host writes. -/
def hostBit (b : Blk) : Option Nat :=
  match b with
  | .clk => some 0
  | .bel => some 1
  | .core | .mxe | .vec | .prt | .pmc => some 2
  | .hbm => some 3
  | .lnk => some 4
  | .stl => some 5
  | .opn => some 6
  | .wgt => some 7
  | .ldg => some 8
  | .pwr | .rst => some 9
  | .chip => some 10
  | _ => none

/-- Whether a host write reaches an offset by the block it lies in (R341): the HST_ block, or a block of a set bit in CTL_HOSTWR.MASK. An
offset that the block's map does not list is as open as the block, and the write is then ignored without error (R13). -/
def State.hostOpen (s : State) (off : Nat) : Bool :=
  match rangeBlock off with
  | some (b, _, _) => b == .hst || ((hostBit b).map (fun k => s.fb .CTL_HOSTWR_MASK 0 k)).getD false
  | none => false

/-- Whether a host write reaches a register whose block is not open to it (R341). -/
def State.hostMay (s : State) (r : Reg) (i : Nat) : Bool := ((r == .MBX_DATA || r == .MBX_LOCK) && s.mbxSender 0 i) || r == .CHIP_HALT

/-- Whether the filter lets a write by master m to an offset through; a master without registers reaches none. -/
def State.mayWrite (s : State) (m off : Nat) : Bool :=
  reachesRegs m && (m != 0 || s.hostOpen off || ((s.target off).map (fun x => s.hostMay x.reg x.idx)).getD false)

/-- A write that the filter discards: the host's is counted (R341). -/
def State.discardWrite (s : State) (m off : Nat) : State := if m = 0 then s.barDeny off else s

/-! ### Accesses (R15) -/

/-- A write at the full width of a register. -/
def State.writeFull (s : State) (m off v : Nat) : State :=
  if s.mayWrite m off = false then s.discardWrite m off
  else match s.target off with
    | some x => if x.at_ = 0 then s.writeReg m x.reg x.idx 0 v else s
    | none => s

/-- A 32-bit write: the whole of a 32-bit register, or a half of a 64-bit one. -/
def State.writeHalf (s : State) (m off v : Nat) : State :=
  if s.mayWrite m off = false then s.discardWrite m off
  else match s.target off with
    | none => s
    | some x =>
      if x.reg.width = 32 then (if x.at_ = 0 then s.writeReg m x.reg x.idx 0 v else s)
      else if x.at_ = 0 then { s with halves := { s.halves with held := Map.set none s.halves.held m (some (x.reg.code, x.idx, v)) } }
      else if x.at_ = 4 then
        match Map.get none s.halves.held m with
        | some (c, j, low) =>
          if c = x.reg.code ∧ j = x.idx then
            ({ s with halves := { s.halves with held := Map.set none s.halves.held m none } } : State).writeReg m x.reg x.idx 0 (low + v * 2 ^ 32)
          else s.writeReg m x.reg x.idx 32 (v * 2 ^ 32)
        | none => s.writeReg m x.reg x.idx 32 (v * 2 ^ 32)
      else s

/-- The value the last read of master m returned. -/
def State.answered (s : State) (m : Master) : Nat := Map.get 0 s.rdata m.toNat

/-- A read at the full width of a register: an unlisted offset reads zero (R13). -/
def State.readFull (s : State) (m : Master) (off : Nat) : State :=
  if reachesRegs m.toNat = false then s
  else match s.target off with
    | some x => if x.at_ = 0 then s.readReg m x.reg x.idx else s.answer m 0
    | none => s.answer m 0

/-- A 32-bit read: the whole of a 32-bit register, or a half of a 64-bit one. -/
def State.readHalf (s : State) (m : Master) (off : Nat) : State :=
  if reachesRegs m.toNat = false then s
  else match s.target off with
    | none => s.answer m 0
    | some x =>
      if x.reg.width = 32 then (if x.at_ = 0 then s.readReg m x.reg x.idx else s.answer m 0)
      else if x.at_ = 0 then
        let t := s.readReg m x.reg x.idx
        let v := t.answered m
        ({ t with halves := { t.halves with cap := Map.set none t.halves.cap m.toNat (some (x.reg.code, x.idx, v / 2 ^ 32)) } } : State).answer m (v % 2 ^ 32)
      else if x.at_ = 4 then
        match Map.get none s.halves.cap m.toNat with
        | some (c, j, high) =>
          if c = x.reg.code ∧ j = x.idx then
            ({ s with halves := { s.halves with cap := Map.set none s.halves.cap m.toNat none } } : State).answer m high
          else
            let t := (s.readEffect m x.reg x.idx).clearRc x.reg x.idx 32
            t.answer m (t.answered m / 2 ^ 32)
        | none =>
          let t := (s.readEffect m x.reg x.idx).clearRc x.reg x.idx 32
          t.answer m (t.answered m / 2 ^ 32)
      else s.answer m 0

/-! ### Accesses that wait for a restart (R45), and the commands -/

/-- The clock region that holds a unit of a block (02, "Clock regions"); the control complex and what the table names in no region never
stop. -/
def regionOf (b : Blk) (u : Nat) : Option Nat :=
  match b with
  | .core | .mxe | .vec | .prt | .pmc => some (u / 8)
  | .hbm => some (20 + u / 3)
  | .lnk | .stl => some (if u < 16 then 16 else if u < 32 then 18 else if u < 48 then 17 else 19)
  | .wgt => some 17
  | .ldg | .hst => some 16
  | .clk | .bel | .sec | .lif => some 18
  | .chip | .opn | .ctl | .mbx | .pwr | .rst => none

/-- Whether an access by master m to an offset waits: the region of its target is stopped, or the host interface that brings it is (R45). -/
def State.stalls (s : State) (m off : Nat) : Bool :=
  reachesRegs m && ((m == 0 && s.rgnStopped 16) || ((rangeBlock off).bind (fun x => regionOf x.1 x.2.1)).any s.rgnStopped)

/-- A register or BAR2 access at once. -/
def State.access (s : State) : Instr → State
  | .registerWrite m off v => s.writeFull m.toNat off.toNat v.toNat
  | .hostBar0Write off v => s.writeFull 0 off.toNat v.toNat
  | .lowHalfWrite m off v => s.writeHalf m.toNat off.toNat v.toNat
  | .highHalfWrite m off v => s.writeHalf m.toNat off.toNat v.toNat
  | .lowHalfRead m off => s.readHalf m off.toNat
  | .highHalfRead m off => s.readHalf m off.toNat
  | .rcRead m off => s.readFull m off.toNat
  | .bar2Write off data => s.bar2Write off.toNat data
  | _ => s

/-- Whether an access waits for the restart of a stopped region. -/
def State.awaits (s : State) : Instr → Bool
  | .registerWrite m off _ => s.stalls m.toNat off.toNat
  | .hostBar0Write off _ => s.stalls 0 off.toNat
  | .lowHalfWrite m off _ => s.stalls m.toNat off.toNat
  | .highHalfWrite m off _ => s.stalls m.toNat off.toNat
  | .lowHalfRead m off => s.stalls m.toNat off.toNat
  | .highHalfRead m off => s.stalls m.toNat off.toNat
  | .rcRead m off => s.stalls m.toNat off.toNat
  | .bar2Write _ _ => s.rgnStopped 16 || (List.range 4).any (fun g => s.rgnStopped (20 + g))
  | _ => false

/-- An access acts at once, or waits for the restart in the order of arrival (R45). -/
def State.issueAccess (s : State) (i : Instr) : State :=
  if s.awaits i then { s with clk := { s.clk with waiting := s.clk.waiting ++ [i] } } else s.access i

/-- The accesses that waited are served after the restart, oldest first; those to a region that stays stopped go on waiting (R45). -/
def State.serveWaiting (s : State) : State :=
  s.clk.waiting.foldl State.issueAccess { s with clk := { s.clk with waiting := [] } }

/-- REGISTER_WRITE (R11-R15): a full-width write by master m. -/
def execRegisterWrite (m : Master) (off : BitVec 32) (v : BitVec 64) (s : State) : Out := .next (s.issueAccess (.registerWrite m off v))

/-- LOW_HALF_WRITE (R15). -/
def execLowHalfWrite (m : Master) (off : BitVec 32) (v : BitVec 32) (s : State) : Out := .next (s.issueAccess (.lowHalfWrite m off v))

/-- HIGH_HALF_WRITE (R15). -/
def execHighHalfWrite (m : Master) (off : BitVec 32) (v : BitVec 32) (s : State) : Out := .next (s.issueAccess (.highHalfWrite m off v))

/-- LOW_HALF_READ (R15). -/
def execLowHalfRead (m : Master) (off : BitVec 32) (s : State) : Out := .next (s.issueAccess (.lowHalfRead m off))

/-- HIGH_HALF_READ (R15). -/
def execHighHalfRead (m : Master) (off : BitVec 32) (s : State) : Out := .next (s.issueAccess (.highHalfRead m off))

/-- RC_READ (R9): a full-width read by master m. -/
def execRcRead (m : Master) (off : BitVec 32) (s : State) : Out := .next (s.issueAccess (.rcRead m off))

/-- HOST_BAR0_WRITE (R341): a full-width write by the host. -/
def execHostBar0Write (off : BitVec 32) (v : BitVec 64) (s : State) : Out := .next (s.issueAccess (.hostBar0Write off v))

/-- BAR2_WRITE (R308, R342). -/
def execBar2Write (off : BitVec 40) (data : List Byte) (s : State) : Out := .next (s.issueAccess (.bar2Write off data))

/-- FREQ_CHANGE_RESTART (R44, R45, R48, R309, R376): within one cycle the stopped regions restart; a class change ends with it; held frames are consumed in arrival
order, and the accesses that waited are served. -/
def execFreqChangeRestart (s : State) : Out :=
  .next (s.ldgTogether (fun s => match s.clk.fchg with
    | some c => if c.stopped then ((s.fchgEnd c).classEnd.fchgEntry c).drainFifos.serveWaiting else s.classEnd
    | none => s.classEnd))

end Sys2Proof.Machine
end

