-- ==== Sys2Proof/Machine/Slots.lean ====
section
/-!
DEFINITION. The HBM controllers' slots (R171-R173): what an owner's slot moves, and the rows of the crier and the scrub, whose reads wait for
their owners' slots.
-/
namespace Sys2Proof.Machine

/-! ### The crier's and the scrub's reads -/

/-- Bytes of the granules at these addresses that lie in stack k, 512 each. -/
def bytesIn (k : Nat) (as : List Nat) : Nat := 512 * (as.filter (fun a => stackOf a == k)).length

/-- An owner's reads of the granules at these addresses wait for its slots, stack by stack; act is what they are read for. -/
def State.askSlots (s : State) (o : SlotOwner) (as : List Nat) (act : HbmAct) : State :=
  upto 12 (fun k s => if s.slotted o k ∧ 0 < bytesIn k as then
    s.setStack k { s.stack k with queue := (s.stack k).queue ++ [⟨o, bytesIn k as, act⟩] } else s) s

/-- Whether requests for an act wait in some stack. -/
def State.asked (s : State) (act : HbmAct) : Bool := s.hbms.any (fun p => p.2.queue.any (fun q => q.act == act))

/-- Do an act now, or once its reads have been served: where the HBM plan gives the owner slots, they wait for them (R171, R172). -/
def State.viaSlots (s : State) (o : SlotOwner) (as : List Nat) (act : HbmAct) (now : State → State) : State :=
  if s.asked act then s
  else
    let t := s.askSlots o as act
    if t.asked act then t else now s

/-- The HBM addresses of the granules that a piece reads from its source (R296). -/
def State.pieceReads (s : State) (j : CriJob) (t : Tree) (f : Nat) : List Nat :=
  let v := Map.get 0 j.next f
  let n := min (t.vlen - 1) ((s.jobShard j).len - v * (t.vlen - 1))
  if j.src = 0 then []
  else (List.range n).map (fun g =>
    let k := v * (t.vlen - 1) + g
    if j.src = 1 then j.addr + 512 * k else s.rgnAddr j.region j.sbank ((s.jobShard j).off + k))

/-- CRIER_PIECE_WRITE (R171, R294): the source is read in the crier's HBM slots, then the piece is written. -/
def execCrierPieceWrite (tree : BitVec 16) (feed : Fin 5) (s : State) : Out :=
  .next (match s.jobOn tree.toNat with
    | some (j, t) => if s.pieceReady j t feed then s.viaSlots .crier (s.pieceReads j t feed) (.crier tree.toNat feed.val) (fun s => s.crierPiece tree.toNat feed) else s
    | none => s)

/-- The HBM addresses of the shard that the scrub reads next. -/
def State.scrubReads (s : State) : List Nat :=
  match s.wgt.scrub with
  | [] => []
  | (r, b, i) :: _ =>
    let e := (s.shardsOf r).getD i ⟨0, 0, 0, 0, 0⟩
    (List.range e.len).map (fun g => s.rgnAddr r b (e.off + g))

/-- SCRUB_SHARD (R171, R303, R304): the shard at the head is read in the scrub's HBM slots, then judged. -/
def execScrubShard (s : State) : Out :=
  .next (if s.f .WGT_CTRL_SCRUB_EN = 0 then s else s.viaSlots .scrub s.scrubReads .scrub State.scrubNext)

/-! ### Slots (R171-R173) -/

/-- Bytes that a slot moves (R171). -/
abbrev slotBytes := 49152

/-- A slot that the added refresh of a hot stack takes from its owner (R173). -/
def State.slotTaken (s : State) (k : Nat) : State :=
  let t := s.bump .HBM_LATE_SLOTS k
  if (t.stack k).noted then t
  else (t.setStack k { t.stack k with noted := true }).ldgFault 0x10 0x1 k

/-- The number within the bell of slot i of the current microsecond (R171). -/
def State.bellSlot (s : State) (i : Nat) : Nat := 50 * (s.bel.phase / (1000 * 2 ^ 32)) + i

/-- What a request does once its bytes have moved (R172). A crier or scrub read that other stacks have not served yet leaves its act to them. -/
def State.act (s : State) : HbmAct → State
  | .stage n f g => s.stageGran n f g
  | .land h => s.landLocal h
  | .serve p => s.serveNow p
  | .write a bs => s.wrBytes a bs
  | .crier tree feed => if s.asked (.crier tree feed) then s else s.crierPiece tree feed
  | .scrub => if s.asked .scrub then s else s.scrubNext

/-- Serve the requests of an owner on stack k in issue order, up to b bytes; what is left over waits for its next slot (R172). n bounds the requests
served to those that wait when the slot begins. -/
def State.serveOwner (k : Nat) (o : SlotOwner) : Nat → Nat → State → State
  | 0, _, s => s
  | n + 1, b, s =>
    let x := s.stack k
    match x.queue.find? (fun q => q.owner == o) with
    | none => s
    | some q =>
      if b < q.left then s.setStack k { x with queue := x.queue.replace q { q with left := q.left - b } }
      else State.serveOwner k o n (b - q.left) ((s.setStack k { x with queue := x.queue.erase q }).act q.act)

/-- Whether an owner is on a stopped region (R44, R45). -/
def State.ownerStopped (s : State) : SlotOwner → Bool
  | .port n => !s.portRuns n
  | .crier => s.rgnStopped 16
  | .host => s.rgnStopped 16
  | _ => false

/-- HBM_SLOT (R171-R173): a slot of a µs of stack st: self-refresh, refresh, margin, the added refresh, or its owner's requests. -/
def execHbmSlot (st : StackId) (slot : Fin 50) (s : State) : Out :=
  let k := st.val
  let i := slot.val
  let owner := Map.get SlotOwner.none (s.stack k).owners (s.bellSlot i)
  let margin := s.f .HBM_STATUS_MARGIN_ACT k
  if s.rgnStopped (20 + k / 3) ∨ (s.stack k).asleep ∨ i = 4 * k ∨ i = 4 * k + 1 ∨ (4 * k + 2 ≤ i ∧ i < 4 * k + 2 + margin) then .next s
  else if s.f .HBM_STATUS_HOT k = 1 ∧ (i = 4 * k + 2 ∨ i = 4 * k + 3) then .next (if owner = .none then s else s.slotTaken k)
  else
    match owner with
    | .none => .next s
    | .core l =>
      match s.physical l with
      | some c => .next (if s.rgnStopped (c / 8) then s else s.serveStreams c k (slotBytes / 64) (s.core c).streams)
      | none => .next s
    | o => .next (if s.ownerStopped o then s else State.serveOwner k o (s.stack k).queue.length slotBytes s)

end Sys2Proof.Machine
end

