-- ==== Sys2Proof/Machine/Dispatch.lean ====
section
/-!
DEFINITION. The one match that gives every command its meaning. One arm per constructor of `Instr`.
-/
namespace Sys2Proof.Machine

def exec (i : Instr) (s : State) : Host.Outcome State Fault Refusal :=
  match i with
  | .registerWrite m off v => Sys2Proof.Machine.execRegisterWrite m off v s
  | .lowHalfWrite m off v => Sys2Proof.Machine.execLowHalfWrite m off v s
  | .highHalfWrite m off v => Sys2Proof.Machine.execHighHalfWrite m off v s
  | .lowHalfRead m off => Sys2Proof.Machine.execLowHalfRead m off s
  | .highHalfRead m off => Sys2Proof.Machine.execHighHalfRead m off s
  | .rcRead m off => Sys2Proof.Machine.execRcRead m off s
  | .droopEvent r stretch drift => Sys2Proof.Machine.execDroopEvent r stretch drift s
  | .fllWindow r cycles lost => Sys2Proof.Machine.execFllWindow r cycles lost s
  | .alignTimeout r => Sys2Proof.Machine.execAlignTimeout r s
  | .referenceLoss => Sys2Proof.Machine.execReferenceLoss s
  | .referencePresent => Sys2Proof.Machine.execReferencePresent s
  | .fchgArm m => Sys2Proof.Machine.execFchgArm m s
  | .freqChangeRestart => Sys2Proof.Machine.execFreqChangeRestart s
  | .bellPulse => Sys2Proof.Machine.execBellPulse s
  | .belCommitArm bell => Sys2Proof.Machine.execBelCommitArm bell s
  | .belFtIncWrite inc => Sys2Proof.Machine.execBelFtIncWrite inc s
  | .holdoverEntry => Sys2Proof.Machine.execHoldoverEntry s
  | .belParentWrite v => Sys2Proof.Machine.execBelParentWrite v s
  | .belFtSetbellWrite bell => Sys2Proof.Machine.execBelFtSetbellWrite bell s
  | .belFtStepWrite step => Sys2Proof.Machine.execBelFtStepWrite step s
  | .join => Sys2Proof.Machine.execJoin s
  | .wallSet ns => Sys2Proof.Machine.execWallSet ns s
  | .ppsCapture => Sys2Proof.Machine.execPpsCapture s
  | .wallNsRead m => Sys2Proof.Machine.execWallNsRead m s
  | .phaseRead m => Sys2Proof.Machine.execPhaseRead m s
  | .trigArm t v => Sys2Proof.Machine.execTrigArm t v s
  | .nop c => Sys2Proof.Machine.execNop c s
  | .add c rd rs1 rs2 => Sys2Proof.Machine.execAdd c rd rs1 rs2 s
  | .sub c rd rs1 rs2 => Sys2Proof.Machine.execSub c rd rs1 rs2 s
  | .and c rd rs1 rs2 => Sys2Proof.Machine.execAnd c rd rs1 rs2 s
  | .or c rd rs1 rs2 => Sys2Proof.Machine.execOr c rd rs1 rs2 s
  | .xor c rd rs1 rs2 => Sys2Proof.Machine.execXor c rd rs1 rs2 s
  | .sll c rd rs1 rs2 => Sys2Proof.Machine.execSll c rd rs1 rs2 s
  | .srl c rd rs1 rs2 => Sys2Proof.Machine.execSrl c rd rs1 rs2 s
  | .sra c rd rs1 rs2 => Sys2Proof.Machine.execSra c rd rs1 rs2 s
  | .slt c rd rs1 rs2 => Sys2Proof.Machine.execSlt c rd rs1 rs2 s
  | .sltu c rd rs1 rs2 => Sys2Proof.Machine.execSltu c rd rs1 rs2 s
  | .min c rd rs1 rs2 => Sys2Proof.Machine.execMin c rd rs1 rs2 s
  | .max c rd rs1 rs2 => Sys2Proof.Machine.execMax c rd rs1 rs2 s
  | .mul c rd rs1 rs2 => Sys2Proof.Machine.execMul c rd rs1 rs2 s
  | .mulhu c rd rs1 rs2 => Sys2Proof.Machine.execMulhu c rd rs1 rs2 s
  | .addi c rd rs1 imm => Sys2Proof.Machine.execAddi c rd rs1 imm s
  | .andi c rd rs1 imm => Sys2Proof.Machine.execAndi c rd rs1 imm s
  | .ori c rd rs1 imm => Sys2Proof.Machine.execOri c rd rs1 imm s
  | .xori c rd rs1 imm => Sys2Proof.Machine.execXori c rd rs1 imm s
  | .slli c rd rs1 imm => Sys2Proof.Machine.execSlli c rd rs1 imm s
  | .srli c rd rs1 imm => Sys2Proof.Machine.execSrli c rd rs1 imm s
  | .srai c rd rs1 imm => Sys2Proof.Machine.execSrai c rd rs1 imm s
  | .slti c rd rs1 imm => Sys2Proof.Machine.execSlti c rd rs1 imm s
  | .lix c rd rs1 imm => Sys2Proof.Machine.execLix c rd rs1 imm s
  | .ld c rd rs1 imm => Sys2Proof.Machine.execLd c rd rs1 imm s
  | .lw c rd rs1 imm => Sys2Proof.Machine.execLw c rd rs1 imm s
  | .st c rd rs1 imm => Sys2Proof.Machine.execSt c rd rs1 imm s
  | .sw c rd rs1 imm => Sys2Proof.Machine.execSw c rd rs1 imm s
  | .beq c rs1 rs2 off => Sys2Proof.Machine.execBeq c rs1 rs2 off s
  | .bne c rs1 rs2 off => Sys2Proof.Machine.execBne c rs1 rs2 off s
  | .blt c rs1 rs2 off => Sys2Proof.Machine.execBlt c rs1 rs2 off s
  | .bge c rs1 rs2 off => Sys2Proof.Machine.execBge c rs1 rs2 off s
  | .bltu c rs1 rs2 off => Sys2Proof.Machine.execBltu c rs1 rs2 off s
  | .bgeu c rs1 rs2 off => Sys2Proof.Machine.execBgeu c rs1 rs2 off s
  | .jal c rd imm => Sys2Proof.Machine.execJal c rd imm s
  | .jr c rs1 imm => Sys2Proof.Machine.execJr c rs1 imm s
  | .loop c rs1 off => Sys2Proof.Machine.execLoop c rs1 off s
  | .trap c imm => Sys2Proof.Machine.execTrap c imm s
  | .halt c => Sys2Proof.Machine.execHalt c s
  | .rdsh c rd imm => Sys2Proof.Machine.execRdsh c rd imm s
  | .waite c e rs1 imm => Sys2Proof.Machine.execWaite c e rs1 imm s
  | .waiteComplete c => Sys2Proof.Machine.execWaiteComplete c s
  | .evsend c e rs1 => Sys2Proof.Machine.execEvsend c e rs1 s
  | .evsendDelivery src dst e => Sys2Proof.Machine.execEvsendDelivery src dst e s
  | .evread c rd e => Sys2Proof.Machine.execEvread c rd e s
  | .waitp c rs1 imm => Sys2Proof.Machine.execWaitp c rs1 imm s
  | .waitpComplete c => Sys2Proof.Machine.execWaitpComplete c s
  | .release c rs1 => Sys2Proof.Machine.execRelease c rs1 s
  | .pclr c rs1 imm => Sys2Proof.Machine.execPclr c rs1 imm s
  | .bellwait c rs1 imm => Sys2Proof.Machine.execBellwait c rs1 imm s
  | .stepinc c => Sys2Proof.Machine.execStepinc c s
  | .pack c sc sf pd pm vs vd => Sys2Proof.Machine.execPack c sc sf pd pm vs vd s
  | .unpack c sf pm vs vd => Sys2Proof.Machine.execUnpack c sf pm vs vd s
  | .put c dt sub even ev rn rr rl b => Sys2Proof.Machine.execPut c dt sub even ev rn rr rl b s
  | .get c dt sub even ev rn rr rl b => Sys2Proof.Machine.execGet c dt sub even ev rn rr rl b s
  | .acc c dt sub even ev rn rr rl b => Sys2Proof.Machine.execAcc c dt sub even ev rn rr rl b s
  | .atom c dt sub even ev rn rr rl b => Sys2Proof.Machine.execAtom c dt sub even ev rn rr rl b s
  | .porterLocalComplete c => Sys2Proof.Machine.execPorterLocalComplete c s
  | .waitLimit c => Sys2Proof.Machine.execWaitLimit c s
  | .coreHold c => Sys2Proof.Machine.execCoreHold c s
  | .coreResume c => Sys2Proof.Machine.execCoreResume c s
  | .coreFenceWrite c v => Sys2Proof.Machine.execCoreFenceWrite c v s
  | .chipHaltStop => Sys2Proof.Machine.execChipHaltStop s
  | .mxcfg c rx rq rs sp as ws af wf => Sys2Proof.Machine.execMxcfg c rx rq rs sp as ws af wf s
  | .mxlw c we rk rw => Sys2Proof.Machine.execMxlw c we rk rw s
  | .mxrun c msk clr nb ab ne we rc ra => Sys2Proof.Machine.execMxrun c msk clr nb ab ne we rc ra s
  | .mxdrain c ev even clr f a rs rd => Sys2Proof.Machine.execMxdrain c ev even clr f a rs rd s
  | .drainEvent c => Sys2Proof.Machine.execDrainEvent c s
  | .mxmask c mode nb ab rf => Sys2Proof.Machine.execMxmask c mode nb ab rf s
  | .vmov c ty pg va vd => Sys2Proof.Machine.execVmov c ty pg va vd s
  | .vadd c ty pg vb va vd => Sys2Proof.Machine.execVadd c ty pg vb va vd s
  | .vsub c ty pg vb va vd => Sys2Proof.Machine.execVsub c ty pg vb va vd s
  | .vmul c ty pg vb va vd => Sys2Proof.Machine.execVmul c ty pg vb va vd s
  | .vfma c ty pg vb va vd => Sys2Proof.Machine.execVfma c ty pg vb va vd s
  | .vmin c ty pg vb va vd => Sys2Proof.Machine.execVmin c ty pg vb va vd s
  | .vmax c ty pg vb va vd => Sys2Proof.Machine.execVmax c ty pg vb va vd s
  | .vabs c ty pg va vd => Sys2Proof.Machine.execVabs c ty pg va vd s
  | .vneg c ty pg va vd => Sys2Proof.Machine.execVneg c ty pg va vd s
  | .vdiv c ty pg vb va vd => Sys2Proof.Machine.execVdiv c ty pg vb va vd s
  | .vsqrt c ty pg va vd => Sys2Proof.Machine.execVsqrt c ty pg va vd s
  | .vbcast c ty pg ra vd => Sys2Proof.Machine.execVbcast c ty pg ra vd s
  | .vcmpeq c ty pg vb va vd => Sys2Proof.Machine.execVcmpeq c ty pg vb va vd s
  | .vcmplt c ty pg vb va vd => Sys2Proof.Machine.execVcmplt c ty pg vb va vd s
  | .vcmple c ty pg vb va vd => Sys2Proof.Machine.execVcmple c ty pg vb va vd s
  | .vsel c ty pg vb va vd => Sys2Proof.Machine.execVsel c ty pg vb va vd s
  | .vand c ty pg vb va vd => Sys2Proof.Machine.execVand c ty pg vb va vd s
  | .vor c ty pg vb va vd => Sys2Proof.Machine.execVor c ty pg vb va vd s
  | .vxor c ty pg vb va vd => Sys2Proof.Machine.execVxor c ty pg vb va vd s
  | .vshl c ty pg vb va vd => Sys2Proof.Machine.execVshl c ty pg vb va vd s
  | .vshr c ty pg vb va vd => Sys2Proof.Machine.execVshr c ty pg vb va vd s
  | .vsra c ty pg vb va vd => Sys2Proof.Machine.execVsra c ty pg vb va vd s
  | .vcvt c x ty pg vb va vd => Sys2Proof.Machine.execVcvt c x ty pg vb va vd s
  | .vmxsc c x ty pg vb va vd => Sys2Proof.Machine.execVmxsc c x ty pg vb va vd s
  | .vwid c x ty pg vb va vd => Sys2Proof.Machine.execVwid c x ty pg vb va vd s
  | .vrsum c ty pg va vd => Sys2Proof.Machine.execVrsum c ty pg va vd s
  | .vrmax c ty pg va vd => Sys2Proof.Machine.execVrmax c ty pg va vd s
  | .vld c imm pg rs vd => Sys2Proof.Machine.execVld c imm pg rs vd s
  | .vst c imm pg rs vd => Sys2Proof.Machine.execVst c imm pg rs vd s
  | .vgath c pg vi rs vd => Sys2Proof.Machine.execVgath c pg vi rs vd s
  | .vscat c pg vi rs vd => Sys2Proof.Machine.execVscat c pg vi rs vd s
  | .vexp c ty pg va vd => Sys2Proof.Machine.execVexp c ty pg va vd s
  | .vlog c ty pg va vd => Sys2Proof.Machine.execVlog c ty pg va vd s
  | .vrsqrt c ty pg va vd => Sys2Proof.Machine.execVrsqrt c ty pg va vd s
  | .vtanh c ty pg va vd => Sys2Proof.Machine.execVtanh c ty pg va vd s
  | .verf c ty pg va vd => Sys2Proof.Machine.execVerf c ty pg va vd s
  | .vsigm c ty pg va vd => Sys2Proof.Machine.execVsigm c ty pg va vd s
  | .pand c pg vb va vd => Sys2Proof.Machine.execPand c pg vb va vd s
  | .por c pg vb va vd => Sys2Proof.Machine.execPor c pg vb va vd s
  | .pxor c pg vb va vd => Sys2Proof.Machine.execPxor c pg vb va vd s
  | .pnot c pg va vd => Sys2Proof.Machine.execPnot c pg va vd s
  | .rand c x ty pg rt ri vd => Sys2Proof.Machine.execRand c x ty pg rt ri vd s
  | .tally c rk rt rn rs => Sys2Proof.Machine.execTally c rk rt rn rs s
  | .temit c rt => Sys2Proof.Machine.execTemit c rt s
  | .pmcrd c sel rd => Sys2Proof.Machine.execPmcrd c sel rd s
  | .sld c even ev rt rn rr rl ps => Sys2Proof.Machine.execSld c even ev rt rn rr rl ps s
  | .sst c even ev rt rn rr rl ps => Sys2Proof.Machine.execSst c even ev rt rn rr rl ps s
  | .streamComplete c => Sys2Proof.Machine.execStreamComplete c s
  | .pcieReadCompletion c data err => Sys2Proof.Machine.execPcieReadCompletion c data err s
  | .fillPortEcc c addr => Sys2Proof.Machine.execFillPortEcc c addr s
  | .hbmSlot st slot => Sys2Proof.Machine.execHbmSlot st slot s
  | .hbmTempCheck st deg => Sys2Proof.Machine.execHbmTempCheck st deg s
  | .txSlot n => Sys2Proof.Machine.execTxSlot n s
  | .frameReceive n bytes fec => Sys2Proof.Machine.execFrameReceive n bytes fec s
  | .replayTimeout n => Sys2Proof.Machine.execReplayTimeout n s
  | .errLimitRetrain n => Sys2Proof.Machine.execErrLimitRetrain n s
  | .bellMarkReceive n bytes fec => Sys2Proof.Machine.execBellMarkReceive n bytes fec s
  | .linkEnable n => Sys2Proof.Machine.execLinkEnable n s
  | .linkDisable n => Sys2Proof.Machine.execLinkDisable n s
  | .signalDetect n lanes => Sys2Proof.Machine.execSignalDetect n lanes s
  | .trainPass n lanes peerWidth peerSpeed => Sys2Proof.Machine.execTrainPass n lanes peerWidth peerSpeed s
  | .trainFullTimeout n => Sys2Proof.Machine.execTrainFullTimeout n s
  | .trainFastTimeout n => Sys2Proof.Machine.execTrainFastTimeout n s
  | .trainFrameReceive n t => Sys2Proof.Machine.execTrainFrameReceive n t s
  | .handshakeTimeout n => Sys2Proof.Machine.execHandshakeTimeout n s
  | .signalLoss n => Sys2Proof.Machine.execSignalLoss n s
  | .laneLoss n lock => Sys2Proof.Machine.execLaneLoss n lock s
  | .peerTrainingPattern n => Sys2Proof.Machine.execPeerTrainingPattern n s
  | .lnkRetrainWrite n => Sys2Proof.Machine.execLnkRetrainWrite n s
  | .lnkResetWrite n => Sys2Proof.Machine.execLnkResetWrite n s
  | .lnkFlushWrite n => Sys2Proof.Machine.execLnkFlushWrite n s
  | .graceExpiry n => Sys2Proof.Machine.execGraceExpiry n s
  | .rekeyArm n bell => Sys2Proof.Machine.execRekeyArm n bell s
  | .linkRetrain n width => Sys2Proof.Machine.execLinkRetrain n width s
  | .txPageLoad n => Sys2Proof.Machine.execTxPageLoad n s
  | .rxPageLoad n => Sys2Proof.Machine.execRxPageLoad n s
  | .flowVectorStart n f => Sys2Proof.Machine.execFlowVectorStart n f s
  | .flowReset n => Sys2Proof.Machine.execFlowReset n s
  | .stlCommitArm n bell => Sys2Proof.Machine.execStlCommitArm n bell s
  | .opnCommitArm bell => Sys2Proof.Machine.execOpnCommitArm bell s
  | .openPacketStart n cls => Sys2Proof.Machine.execOpenPacketStart n cls s
  | .throttleCheck => Sys2Proof.Machine.execThrottleCheck s
  | .commitPlan plan bell => Sys2Proof.Machine.execCommitPlan plan bell s
  | .openRequestArrival => Sys2Proof.Machine.execOpenRequestArrival s
  | .openReplyArrival => Sys2Proof.Machine.execOpenReplyArrival s
  | .openTimeout c => Sys2Proof.Machine.execOpenTimeout c s
  | .flowWatchReport n rx f => Sys2Proof.Machine.execFlowWatchReport n rx f s
  | .chipAddrLock group => Sys2Proof.Machine.execChipAddrLock group s
  | .setMachineConfig cfg => Sys2Proof.Machine.execSetMachineConfig cfg s
  | .propose src plan bell => Sys2Proof.Machine.execPropose src plan bell s
  | .accept src plan bell => Sys2Proof.Machine.execAccept src plan bell s
  | .counter src plan bell => Sys2Proof.Machine.execCounter src plan bell s
  | .confirm src plan bell => Sys2Proof.Machine.execConfirm src plan bell s
  | .done src plan bell result => Sys2Proof.Machine.execDone src plan bell result s
  | .agreeDeadline plan => Sys2Proof.Machine.execAgreeDeadline plan s
  | .doneDeadline plan => Sys2Proof.Machine.execDoneDeadline plan s
  | .noticeSend => Sys2Proof.Machine.execNoticeSend s
  | .notice src suspect cls bell detail => Sys2Proof.Machine.execNotice src suspect cls bell detail s
  | .mergeClose => Sys2Proof.Machine.execMergeClose s
  | .recordDeliver => Sys2Proof.Machine.execRecordDeliver s
  | .setHealthy v => Sys2Proof.Machine.execSetHealthy v s
  | .haltStep => Sys2Proof.Machine.execHaltStep s
  | .fenceCore c clear => Sys2Proof.Machine.execFenceCore c clear s
  | .loadBundle job bundle bell => Sys2Proof.Machine.execLoadBundle job bundle bell s
  | .startRound bell => Sys2Proof.Machine.execStartRound bell s
  | .loadShards jobs => Sys2Proof.Machine.execLoadShards jobs s
  | .crierJobStart => Sys2Proof.Machine.execCrierJobStart s
  | .crierPieceWrite tree feed => Sys2Proof.Machine.execCrierPieceWrite tree feed s
  | .swapBank mask => Sys2Proof.Machine.execSwapBank mask s
  | .wgtSwapArm bell => Sys2Proof.Machine.execWgtSwapArm bell s
  | .scrubPassStart => Sys2Proof.Machine.execScrubPassStart s
  | .scrubShard => Sys2Proof.Machine.execScrubShard s
  | .bar2Write off data => Sys2Proof.Machine.execBar2Write off data s
  | .hostWriteRunClose => Sys2Proof.Machine.execHostWriteRunClose s
  | .replayFeed => Sys2Proof.Machine.execReplayFeed s
  | .ldgWallNsRead m => Sys2Proof.Machine.execLdgWallNsRead m s
  | .ledgerMode mode payMask stop rings => Sys2Proof.Machine.execLedgerMode mode payMask stop rings s
  | .putBatch host target len batch => Sys2Proof.Machine.execPutBatch host target len batch s
  | .watchdogExpiry ix => Sys2Proof.Machine.execWatchdogExpiry ix s
  | .wdogKick ix limit => Sys2Proof.Machine.execWdogKick ix limit s
  | .masterChange m core => Sys2Proof.Machine.execMasterChange m core s
  | .mbxSend m ch v => Sys2Proof.Machine.execMbxSend m ch v s
  | .mbxTake m ch => Sys2Proof.Machine.execMbxTake m ch s
  | .mbxLockAcquire m ch => Sys2Proof.Machine.execMbxLockAcquire m ch s
  | .mbxLockRelease m ch => Sys2Proof.Machine.execMbxLockRelease m ch s
  | .doorbell tail => Sys2Proof.Machine.execDoorbell tail s
  | .commandTake entry paramOk => Sys2Proof.Machine.execCommandTake entry paramOk s
  | .cplHeadWrite head => Sys2Proof.Machine.execCplHeadWrite head s
  | .hostBar0Write off v => Sys2Proof.Machine.execHostBar0Write off v s
  | .functionLevelReset => Sys2Proof.Machine.execFunctionLevelReset s
  | .configRequest addr => Sys2Proof.Machine.execConfigRequest addr s
  | .sidebandRead idx => Sys2Proof.Machine.execSidebandRead idx s
  | .telemetryRefresh => Sys2Proof.Machine.execTelemetryRefresh s
  | .nopCommand => Sys2Proof.Machine.execNopCommand s
  | .setWallTime secs ns sample => Sys2Proof.Machine.execSetWallTime secs ns sample s
  | .setPowerClass cls => Sys2Proof.Machine.execSetPowerClass cls s
  | .shutdown => Sys2Proof.Machine.execShutdown s
  | .shutdownLinkDown late => Sys2Proof.Machine.execShutdownLinkDown late s
  | .fwUpdate step last act off data => Sys2Proof.Machine.execFwUpdate step last act off data s
  | .fwCoreRestart => Sys2Proof.Machine.execFwCoreRestart s
  | .fwRestartTimeout => Sys2Proof.Machine.execFwRestartTimeout s
  | .holdupRetry => Sys2Proof.Machine.execHoldupRetry s
  | .holdupRefusalTimeout => Sys2Proof.Machine.execHoldupRefusalTimeout s
  | .attest buf plen nonce => Sys2Proof.Machine.execAttest buf plen nonce s
  | .zeroise word clear => Sys2Proof.Machine.execZeroise word clear s
  | .tamper cause => Sys2Proof.Machine.execTamper cause s
  | .entropyFailure => Sys2Proof.Machine.execEntropyFailure s
  | .debugUnlock token => Sys2Proof.Machine.execDebugUnlock token s
  | .norOpStart => Sys2Proof.Machine.execNorOpStart s
  | .norOpComplete => Sys2Proof.Machine.execNorOpComplete s
  | .journalRecord => Sys2Proof.Machine.execJournalRecord s
  | .thermalTrip k deg => Sys2Proof.Machine.execThermalTrip k deg s
  | .classDescent => Sys2Proof.Machine.execClassDescent s
  | .criticalTemp deg => Sys2Proof.Machine.execCriticalTemp deg s
  | .powerMeasure watts hold holdOk temps => Sys2Proof.Machine.execPowerMeasure watts hold holdOk temps s
  | .pwrgoodDeassert => Sys2Proof.Machine.execPwrgoodDeassert s
  | .vauxLow => Sys2Proof.Machine.execVauxLow s
  | .pwrgoodAssert selftest lid nor => Sys2Proof.Machine.execPwrgoodAssert selftest lid nor s
  | .warmReset => Sys2Proof.Machine.execWarmReset s
  | .perstNAssert => Sys2Proof.Machine.execPerstNAssert s
  | .clusterReset mask => Sys2Proof.Machine.execClusterReset mask s
  | .clusterResetEnd k => Sys2Proof.Machine.execClusterResetEnd k s
  | .coreReset c => Sys2Proof.Machine.execCoreReset c s
  | .coreResetEnd => Sys2Proof.Machine.execCoreResetEnd s
  | .koEntry k => Sys2Proof.Machine.execKoEntry k s
  | .secureBoot => Sys2Proof.Machine.execSecureBoot s
  | .firmwareStart => Sys2Proof.Machine.execFirmwareStart s
  | .clockStart => Sys2Proof.Machine.execClockStart s
  | .hbmTrain pass => Sys2Proof.Machine.execHbmTrain pass s
  | .linkTrainStart => Sys2Proof.Machine.execLinkTrainStart s
  | .timeAcquire => Sys2Proof.Machine.execTimeAcquire s
  | .readyNotice => Sys2Proof.Machine.execReadyNotice s
  | .linkRetrainTimeout => Sys2Proof.Machine.execLinkRetrainTimeout s
  | .batchLanded data => Sys2Proof.Machine.execBatchLanded data s
  | .crierHostReadCompletion tree data err => Sys2Proof.Machine.execCrierHostReadCompletion tree data err s
  | .pwrThermTripleCheck => Sys2Proof.Machine.execPwrThermTripleCheck s

end Sys2Proof.Machine
end

