-- ==== Sys2Proof/Safety.lean ====
section
/-!
DEFINITION. What claims say of a run, in their own terms: the canonical form every step keeps, what a command leaves alone, and when a core
can issue a packet.
-/
namespace Sys2Proof.Machine

/-- The canonical form of the two memories that every unit writes, and of the ledger between two commands: the register file lists its keys in rising
order, and so does HBM, which lists no zero byte; no input of a cycle waits for its place in the ledger (R309). -/
def State.canon (s : State) : Prop := s.regs.Pairwise (fun p q => p.1 < q.1) ∧ Mem.wf s.hbm ∧ s.ldg.cycle = none

/-- Every register field reads as before, but for the fields and instances in `touch`. -/
def sameRegs (s t : State) (touch : Fld → Nat → Bool) : Prop := ∀ fl ∈ allFlds, ∀ i, touch fl i = false → t.f fl i = s.f fl i

/-- Whether a field is one of those listed: every field of the device has a code of its own. -/
def touches (l : List Fld) (fl : Fld) : Bool := l.any (fun g => g.code == fl.code)

/-- The listed fields, in every instance. -/
def flds (l : List Fld) (fl : Fld) (_ : Nat) : Bool := touches l fl

/-- The listed fields, in instance n. -/
def fldsAt (l : List Fld) (n : Nat) (fl : Fld) (i : Nat) : Bool := touches l fl && i == n

/-- Nothing but the register file differs. -/
def onlyRegs (s t : State) : Prop := { t with regs := s.regs } = s

/-- Nothing but the register file and the cores differs, and of the cores only core c. -/
def onlyCore (s t : State) (c : Nat) : Prop := { t with regs := s.regs, cores := s.cores } = s ∧ ∀ m, m ≠ c → t.core m = s.core m

/-- Every byte of memory reads as before, but for the n bytes from address a. -/
def sameBytesBut (s t : State) (a n : Nat) : Prop := ∀ x, (x < a ∨ a + n ≤ x) → t.rdByte x = s.rdByte x

/-- Every byte of memory reads as before. -/
def sameBytes (s t : State) : Prop := ∀ x, t.rdByte x = s.rdByte x

/-- The chip-local address of offset a of the store of core c (R157). -/
def storeAddr (c a : Nat) : Nat := 0xC0000000000 + c * 0x800000 + a

/-- The fields of core c that issuing a packet may change: its PC, its state and wait, and its counters (R168, R324, R411). -/
def issueTouch (c : Nat) (fl : Fld) (i : Nat) : Bool :=
  fldsAt [.CORE_PC_PC, .CORE_STATUS_STATE, .CORE_STATUS_WAIT_KIND, .PMC_CYCLES_CYCLES, .PMC_STATUS_SAT, .PMC_STORE_CE_COUNT, .MXE_WAIT_CYC_CYCLES] c fl i ||
    (touches [.PMC_CNT_COUNT] fl && i / 8 == c)

/-- The performance counters of core c, their saturation bits and the count of corrected errors (R168, R324). -/
def pmcTouch (c : Nat) (fl : Fld) (i : Nat) : Bool := fldsAt [.PMC_STATUS_SAT, .PMC_STORE_CE_COUNT] c fl i || (touches [.PMC_CNT_COUNT] fl && i / 8 == c)

/-- The register fields that a ledger entry changes (R307-R310). -/
def ledgerFlds : List Fld :=
  [.LDG_SEQ_SEQ, .LDG_CNT_LOST_COUNT, .LDG_STATUS_LOST, .LDG_PAY_HEAD_OFF, .LDG_CNT_PAYLOST_COUNT, .LDG_STATUS_PAY_LOST,
   .LDG_RING_HEAD_HEAD, .LDG_CNT_ENTRIES_COUNT, .LDG_STATUS_NEAR_FULL]

/-- Core c is in RUN and its clock region is not stopped. -/
abbrev runs (s : State) (c : Nat) : Prop := s.cst c = stRun ∧ s.clocked c = true

/-- Core c can issue a packet that goes on at the next: it runs, and the packet after this one, by the loops it is in, is in its program. -/
abbrev canIssue (s : State) (c : Nat) : Prop := runs s c ∧ (nextPc .seq (s.core c).loops (s.f .CORE_PC_PC c)).2 < s.progPackets c

/-- What a core's issue of one packet leaves of the core: everything but the parts named here. -/
def issueCore (k : Core) (l : Core) : Core :=
  { l with
    loops := k.loops, waiting := k.waiting, waitBells := k.waitBells, released := k.released, cg := k.cg, cyc := k.cyc, issued := k.issued
    ready := k.ready, grid := k.grid }

/-- Core c runs on at the packet that follows, by the loops it is in (R76, R78). -/
def wentOn (s t : State) (c : Nat) : Prop :=
  t.cst c = stRun ∧ t.f .CORE_PC_PC c = (nextPc .seq (s.core c).loops (s.f .CORE_PC_PC c)).2 ∧
    (t.core c).loops = (nextPc .seq (s.core c).loops (s.f .CORE_PC_PC c)).1

/-- An issue by core c that changes registers of `touch` alone besides those of the issue, and of the core only what `put` restores. -/
def coreFrame (s t : State) (c : Nat) (touch : Fld → Nat → Bool) (put : Core → Core → Core) : Prop :=
  sameRegs s t (fun fl i => issueTouch c fl i || touch fl i) ∧ onlyCore s t c ∧ put (s.core c) (issueCore (s.core c) (t.core c)) = s.core c

/-- No register besides those of the issue. -/
def noFld (_ : Fld) (_ : Nat) : Bool := false

/-- Nothing of the core. -/
def nothing (_ l : Core) : Core := l

/-- The scalar registers. -/
def scalars (k l : Core) : Core := { l with sregs := k.sregs }

/-- The vector registers. -/
def vectors (k l : Core) : Core := { l with vregs := k.vregs }

/-- The predicate registers. -/
def predicates (k l : Core) : Core := { l with pregs := k.pregs }

/-- The store with its tags and its error marks. -/
def storage (k l : Core) : Core := { l with store := k.store, tags := k.tags, eccBad := k.eccBad, eccOne := k.eccOne }

/-- Scalar register r of core c as a word. -/
def gpr (s : State) (c : Nat) (r : BitVec 5) : Word := BitVec.ofNat 64 (s.sr c r)

/-- Core c has stopped in FAULT with this record, its PC and registers as they were; an earlier record stands, and OVERRUN marks it; the
interrupt is raised where it is enabled, and the step of a bound core stops (R97, R98). -/
def faulted (s t : State) (c code slot detail addr : Nat) : Prop :=
  t.cst c = stFault ∧ t.f .CORE_FAULT_VALID c = 1 ∧ t.f .CORE_PC_PC c = s.f .CORE_PC_PC c ∧
  (if s.f .CORE_FAULT_VALID c = 1 then
    t.f .CORE_FAULT_OVERRUN c = 1 ∧ t.f .CORE_FAULT_CODE c = s.f .CORE_FAULT_CODE c ∧ t.f .CORE_FAULT_PC_PC c = s.f .CORE_FAULT_PC_PC c
  else
    t.f .CORE_FAULT_CODE c = code ∧ t.f .CORE_FAULT_SLOT c = slot ∧ t.f .CORE_FAULT_DETAIL c = detail ∧
    t.f .CORE_FAULT_PC_PC c = s.f .CORE_PC_PC c ∧ t.f .CORE_FAULT_ADDR_ADDR c = addr ∧
    t.f .CORE_FAULT_BELL_BELL c = (s.core c).bell % 2 ^ 64) ∧
  (s.f .CORE_CTRL_FAULT_IRQ_EN c = 1 → (⟨s.f .CTL_MASTER_CORE, true, .coreFault c⟩ : Irq) ∈ t.ctl.irqs) ∧
  (s.bound c = true → t.f .CHIP_HALT_STOPPED = 1) ∧
  (t.core c).sregs = (s.core c).sregs ∧ (t.core c).vregs = (s.core c).vregs ∧ (t.core c).pregs = (s.core c).pregs ∧
  (s.f .LDG_CTRL_MODE = ldgOff → sameBytes s t)

/-- Core c waits with its packet, for this reason; nothing but its state and its wait has changed (R80, R82, R85, R91, R411). -/
def waits (s t : State) (c kind : Nat) (i : Instr) : Prop :=
  t.cst c = stWait ∧ t.f .CORE_STATUS_WAIT_KIND c = kind ∧ (t.core c).waiting = [i] ∧
  sameRegs s t (fldsAt [.CORE_STATUS_STATE, .CORE_STATUS_WAIT_KIND] c) ∧ onlyCore s t c ∧
  { t.core c with waiting := (s.core c).waiting, released := (s.core c).released, cg := (s.core c).cg } = s.core c

end Sys2Proof.Machine
end

