-- ==== Sys2Proof/Certificates/Slice0/Obligations.lean ====
section
/-!
DEFINITION. The statements for the provers. Each says what a rule of the spec, or the model where a log entry is named, makes a command do: that it
answers a next state, what that state holds, and what it leaves alone.
-/
open Sys2Proof Sys2Proof.Machine

/-! ### Steps, reset, encodings -/

/-- A step runs the command at the front of the queue on the state with the queue's rest; on an empty queue the block's own clocks advance (the
model's choice, log entry 41). -/
def Obligations.StepRunsFront : Prop :=
  (∀ (s : State) (c : Instr) (rest : List Instr), s.pending = c :: rest → step s = exec c { s with pending := rest }) ∧
  ∀ s : State, s.pending = [] → step s = .next s.tick

/-- The state after reset is in canonical form, with an empty queue and no memory listed. -/
def Obligations.ResetCanon : Prop := State.reset.canon ∧ State.reset.pending = [] ∧ ∀ a, a < hbmBytes → State.reset.rdByte a = 0

/-- Every command, and every cycle of the block's own, keeps the canonical form of the register file, of HBM and of the ledger between commands. -/
def Obligations.StepKeepsCanon : Prop := ∀ s t : State, s.canon → step s = .next t → t.canon

/-- No command and no cycle of the block faults or is refused: the spec gives each an effect. -/
def Obligations.StepAnswersNext : Prop := ∀ s : State, ∃ t, step s = .next t

/-- Decoding the bits of a core instruction in its slot gives the instruction of that core, whatever its operands. -/
def Obligations.DecodeEncode : Prop := ∀ (i : Instr) (slot w : Nat), slotBits i = some (slot, w) → ∃ c : CoreId, decodeSlot c slot w = some i

/-- Words written out from the encoding tables of 03, 04, 05, 06 and 12 decode to the instructions they stand for; an unlisted opcode and a
set reserved bit decode to nothing (R71, R73). -/
def Obligations.DecodeWords : Prop :=
  decodeSlot 5 0 0x00C2301 = some (.add 5 3 1 3) ∧
  decodeSlot 5 0 0xFFFFFC2311 = some (.addi 5 3 1 0x3FFFFF) ∧
  decodeSlot 5 0 0x0000154430 = some (.beq 5 4 10 5) ∧
  decodeSlot 5 0 0x0000002750 = some (.waite 5 7 1 0) ∧
  decodeSlot 5 0 0x000000003F = some (.halt 5) ∧
  decodeSlot 5 1 0x0008885101 = some (.vadd 5 2 1 2 2 17) ∧
  decodeSlot 5 1 0x00000622C2 = some (.pmcrd 5 1 2) ∧
  decodeSlot 5 2 0x00001708540 = some (.put 5 0 0 false 1 14 2 2 true) ∧
  decodeSlot 5 2 0x0000FC12003 = some (.mxrun 5 true true 3 3 0 0 9 0) ∧
  decodeSlot 5 0 0x000000000F = none ∧ decodeSlot 5 0 0x0100000000 = none

/-! ### The scalar slot -/

/-- Scalar instructions of two source registers, with what each computes (03, "Scalar slot"; R75). -/
def scalarForms : List ((CoreId → BitVec 5 → BitVec 5 → BitVec 5 → Instr) × (Word → Word → Word)) :=
  [(.add, fun a b => a + b), (.sub, fun a b => a - b), (.and, fun a b => a &&& b), (.or, fun a b => a ||| b), (.xor, fun a b => a ^^^ b),
   (.sll, fun a b => a <<< (b.toNat % 64)), (.srl, fun a b => a >>> (b.toNat % 64)), (.sra, fun a b => a.sshiftRight (b.toNat % 64)),
   (.slt, fun a b => if a.slt b then 1 else 0), (.sltu, fun a b => if a.ult b then 1 else 0),
   (.min, fun a b => if a.slt b then a else b), (.max, fun a b => if a.slt b then b else a),
   (.mul, fun a b => a * b), (.mulhu, fun a b => BitVec.ofNat 64 (a.toNat * b.toNat / 2 ^ 64))]

/-- Scalar instructions of a source register and a 22-bit immediate, which is sign-extended but for LIX. -/
def scalarImmForms : List ((CoreId → BitVec 5 → BitVec 5 → BitVec 22 → Instr) × (Word → BitVec 22 → Word)) :=
  [(.addi, fun a i => a + i.signExtend 64), (.andi, fun a i => a &&& i.signExtend 64), (.ori, fun a i => a ||| i.signExtend 64),
   (.xori, fun a i => a ^^^ i.signExtend 64), (.slli, fun a i => a <<< (i.toNat % 64)), (.srli, fun a i => a >>> (i.toNat % 64)),
   (.srai, fun a i => a.sshiftRight (i.toNat % 64)), (.slti, fun a i => if a.slt (i.signExtend 64) then 1 else 0),
   (.lix, fun a i => (a <<< 22) ||| i.zeroExtend 64)]

/-- A scalar result goes to rd, a write of s0 being discarded (R63); every other register of the core is as before, and the core runs on. -/
def wroteScalar (s t : State) (c : Nat) (rd : BitVec 5) (v : Word) : Prop :=
  (∀ r, gpr t c r = if r = rd ∧ r ≠ 0 then v else gpr s c r) ∧ wentOn s t c ∧ coreFrame s t c noFld scalars ∧ sameBytes s t

/-- ADD, SUB, AND, OR, XOR, SLL, SRL, SRA, SLT, SLTU, MIN, MAX, MUL, MULHU: the result, and nothing else. -/
def Obligations.ScalarRegister : Prop :=
  ∀ p ∈ scalarForms, ∀ (s : State) (c : CoreId) (rd rs1 rs2 : BitVec 5), canIssue s c →
    ∃ t, exec (p.1 c rd rs1 rs2) s = .next t ∧ wroteScalar s t c rd (p.2 (gpr s c rs1) (gpr s c rs2))

/-- ADDI, ANDI, ORI, XORI, SLLI, SRLI, SRAI, SLTI, LIX: the result, and nothing else. -/
def Obligations.ScalarImmediate : Prop :=
  ∀ p ∈ scalarImmForms, ∀ (s : State) (c : CoreId) (rd rs1 : BitVec 5) (imm : BitVec 22), canIssue s c →
    ∃ t, exec (p.1 c rd rs1 imm) s = .next t ∧ wroteScalar s t c rd (p.2 (gpr s c rs1) imm)

/-- The address of a scalar load or store. -/
def dataAddr (s : State) (c : Nat) (rs1 : BitVec 5) (imm : BitVec 22) : Nat := (gpr s c rs1 + imm.signExtend 64).toNat

/-- The loads with their sizes, and the stores. -/
def loadForms : List ((CoreId → BitVec 5 → BitVec 5 → BitVec 22 → Instr) × Nat) := [(.ld, 8), (.lw, 4)]
def storeForms : List ((CoreId → BitVec 5 → BitVec 5 → BitVec 22 → Instr) × Nat) := [(.st, 8), (.sw, 4)]

/-- LD and LW: the bytes of the core's own store at the address, zero-extended (R75), where no word of them holds an uncorrectable error. -/
def Obligations.ScalarLoad : Prop :=
  ∀ p ∈ loadForms, ∀ (s : State) (c : CoreId) (rd rs1 : BitVec 5) (imm : BitVec 22), canIssue s c →
    dataAddr s c rs1 imm % p.2 = 0 → dataAddr s c rs1 imm + p.2 ≤ storeBytes → (s.core c).eccHit (dataAddr s c rs1 imm) p.2 = none →
    ∃ t, exec (p.1 c rd rs1 imm) s = .next t ∧
      wroteScalar s t c rd (BitVec.ofNat 64 (((List.range p.2).map
        (fun k => ((s.core c).store.rd (dataAddr s c rs1 imm + k)).toNat * 256 ^ k)).sum))

/-- ST and SW: the low bytes of rd at the address, the nil bit of the granule cleared (R123), every other byte and register as before. -/
def Obligations.ScalarStore : Prop :=
  ∀ p ∈ storeForms, ∀ (s : State) (c : CoreId) (rd rs1 : BitVec 5) (imm : BitVec 22), canIssue s c →
    dataAddr s c rs1 imm % p.2 = 0 → dataAddr s c rs1 imm + p.2 ≤ s.progStart c →
    ∃ t, exec (p.1 c rd rs1 imm) s = .next t ∧
      (∀ k, k < p.2 → (t.core c).store.rd (dataAddr s c rs1 imm + k) = BitVec.ofNat 8 ((gpr s c rd).toNat / 256 ^ k)) ∧
      sameBytesBut s t (storeAddr c (dataAddr s c rs1 imm)) p.2 ∧
      (∀ g, (t.core c).tag g = if g = dataAddr s c rs1 imm / 512 then (s.core c).tag g % 2 else (s.core c).tag g) ∧
      wentOn s t c ∧ coreFrame s t c noFld storage

/-- A scalar access outside the store, or a scalar store into the program region, raises STORE_RANGE; an unaligned one that stays inside
raises MISALIGN (R74, R75, R97). -/
def Obligations.ScalarAccessFaults : Prop :=
  (∀ p ∈ loadForms, ∀ (s : State) (c : CoreId) (rd rs1 : BitVec 5) (imm : BitVec 22), runs s c →
    (storeBytes < dataAddr s c rs1 imm + p.2 →
      ∃ t, exec (p.1 c rd rs1 imm) s = .next t ∧ faulted s t c 0x03 0 0 (dataAddr s c rs1 imm)) ∧
    (dataAddr s c rs1 imm + p.2 ≤ storeBytes → dataAddr s c rs1 imm % p.2 ≠ 0 →
      ∃ t, exec (p.1 c rd rs1 imm) s = .next t ∧ faulted s t c 0x04 0 0 (dataAddr s c rs1 imm))) ∧
  ∀ p ∈ storeForms, ∀ (s : State) (c : CoreId) (rd rs1 : BitVec 5) (imm : BitVec 22), runs s c →
    (s.progStart c < dataAddr s c rs1 imm + p.2 →
      ∃ t, exec (p.1 c rd rs1 imm) s = .next t ∧ faulted s t c 0x03 0 0 (dataAddr s c rs1 imm)) ∧
    (dataAddr s c rs1 imm + p.2 ≤ s.progStart c → dataAddr s c rs1 imm % p.2 ≠ 0 →
      ∃ t, exec (p.1 c rd rs1 imm) s = .next t ∧ faulted s t c 0x04 0 0 (dataAddr s c rs1 imm))

/-- The branches and their conditions. -/
def branchForms : List ((CoreId → BitVec 5 → BitVec 5 → BitVec 22 → Instr) × (Word → Word → Bool)) :=
  [(.beq, fun a b => a == b), (.bne, fun a b => a != b), (.blt, fun a b => a.slt b), (.bge, fun a b => !a.slt b),
   (.bltu, fun a b => a.ult b), (.bgeu, fun a b => !a.ult b)]

/-- Core c runs on at packet d; the active loops whose bodies do not hold d pop, innermost first (R76, R78). -/
def jumped (s t : State) (c d : Nat) : Prop :=
  t.cst c = stRun ∧ t.f .CORE_PC_PC c = d ∧ (t.core c).loops = (s.core c).loops.dropWhile (fun l => !decide (l.first ≤ d ∧ d ≤ l.last))

/-- The number that a packet index outside the program leaves in DETAIL. -/
def low32 (d : Int) : Nat := (d % 2 ^ 32).toNat

/-- BEQ, BNE, BLT, BGE, BLTU, BGEU: not taken, the core runs on; taken, it jumps by the offset; taken out of the program, PC_RANGE. -/
def branchesPart : Prop :=
  ∀ p ∈ branchForms, ∀ (s : State) (c : CoreId) (rs1 rs2 : BitVec 5) (off : BitVec 22), runs s c →
    (p.2 (gpr s c rs1) (gpr s c rs2) = false → canIssue s c →
      ∃ t, exec (p.1 c rs1 rs2 off) s = .next t ∧ wentOn s t c ∧ coreFrame s t c noFld nothing ∧ sameBytes s t) ∧
    (p.2 (gpr s c rs1) (gpr s c rs2) = true → 0 ≤ (s.f .CORE_PC_PC c : Int) + off.toInt →
      (s.f .CORE_PC_PC c : Int) + off.toInt < s.progPackets c →
      ∃ t, exec (p.1 c rs1 rs2 off) s = .next t ∧ jumped s t c ((s.f .CORE_PC_PC c : Int) + off.toInt).toNat ∧
        coreFrame s t c noFld nothing ∧ sameBytes s t) ∧
    (p.2 (gpr s c rs1) (gpr s c rs2) = true →
      ((s.f .CORE_PC_PC c : Int) + off.toInt < 0 ∨ s.progPackets c ≤ (s.f .CORE_PC_PC c : Int) + off.toInt) →
      ∃ t, exec (p.1 c rs1 rs2 off) s = .next t ∧ faulted s t c 0x0A 0 (low32 ((s.f .CORE_PC_PC c : Int) + off.toInt)) 0)

/-- NOP runs on; JAL links PC + 1 and jumps by its immediate; JR jumps to s[rs1] + sext(imm); out of the program, PC_RANGE (R76). -/
def jumpsPart : Prop :=
  (∀ (s : State) (c : CoreId), canIssue s c →
    ∃ t, exec (.nop c) s = .next t ∧ wentOn s t c ∧ coreFrame s t c noFld nothing ∧ sameBytes s t) ∧
  (∀ (s : State) (c : CoreId) (rd : BitVec 5) (imm : BitVec 22), runs s c →
    (0 ≤ (s.f .CORE_PC_PC c : Int) + imm.toInt → (s.f .CORE_PC_PC c : Int) + imm.toInt < s.progPackets c →
      ∃ t, exec (.jal c rd imm) s = .next t ∧ jumped s t c ((s.f .CORE_PC_PC c : Int) + imm.toInt).toNat ∧
        (∀ r, gpr t c r = if r = rd ∧ r ≠ 0 then BitVec.ofNat 64 (s.f .CORE_PC_PC c + 1) else gpr s c r) ∧
        coreFrame s t c noFld scalars ∧ sameBytes s t) ∧
    ((s.f .CORE_PC_PC c : Int) + imm.toInt < 0 ∨ s.progPackets c ≤ (s.f .CORE_PC_PC c : Int) + imm.toInt →
      ∃ t, exec (.jal c rd imm) s = .next t ∧ faulted s t c 0x0A 0 (low32 ((s.f .CORE_PC_PC c : Int) + imm.toInt)) 0)) ∧
  ∀ (s : State) (c : CoreId) (rs1 : BitVec 5) (imm : BitVec 22), runs s c →
    (dataAddr s c rs1 imm < s.progPackets c →
      ∃ t, exec (.jr c rs1 imm) s = .next t ∧ jumped s t c (dataAddr s c rs1 imm) ∧ coreFrame s t c noFld nothing ∧ sameBytes s t) ∧
    (s.progPackets c ≤ dataAddr s c rs1 imm →
      ∃ t, exec (.jr c rs1 imm) s = .next t ∧ faulted s t c 0x0A 0 (low32 (dataAddr s c rs1 imm)) 0)

/-- The branches BEQ, BNE, BLT, BGE, BLTU, BGEU and the jumps NOP (none), JAL and JR (R76): where the pc goes, or PC_RANGE. -/
def Obligations.BranchesAndJumps : Prop := branchesPart ∧ jumpsPart

/-- LOOP (R78): a nonzero count enters the body; a zero count passes it; the checks. -/
def loopStartsPart : Prop :=
  ∀ (s : State) (c : CoreId) (rs1 : BitVec 5) (off : BitVec 22), runs s c →
    let pc := s.f .CORE_PC_PC c
    let last : Int := (pc : Int) + off.toInt
    let n := (gpr s c rs1).toNat
    let legal := 0 < off.toInt ∧ ∀ l ∈ (s.core c).loops.head?, last ≤ l.last
    (legal → last < s.progPackets c → n ≠ 0 → (s.core c).loops.length < 4 →
      ∃ t, exec (.loop c rs1 off) s = .next t ∧ t.cst c = stRun ∧ t.f .CORE_PC_PC c = pc + 1 ∧
        (t.core c).loops = ⟨n, pc + 1, last.toNat⟩ :: (s.core c).loops ∧ coreFrame s t c noFld nothing ∧ sameBytes s t) ∧
    (legal → last + 1 < s.progPackets c → n = 0 → (∀ l ∈ (s.core c).loops.head?, (l.last : Int) ≠ last) →
      ∃ t, exec (.loop c rs1 off) s = .next t ∧ t.cst c = stRun ∧ t.f .CORE_PC_PC c = last.toNat + 1 ∧
        (t.core c).loops = (s.core c).loops ∧ coreFrame s t c noFld nothing ∧ sameBytes s t) ∧
    (¬legal → ∃ t, exec (.loop c rs1 off) s = .next t ∧
      faulted s t c 0x01 0 ((0x38 + rs1.toNat * 2 ^ 13 + off.toNat * 2 ^ 18) % 2 ^ 32) 0) ∧
    (legal → n ≠ 0 → 4 ≤ (s.core c).loops.length → ∃ t, exec (.loop c rs1 off) s = .next t ∧ faulted s t c 0x09 0 0 0) ∧
    (legal → (n = 0 ∨ (s.core c).loops.length < 4) → s.progPackets c ≤ last →
      ∃ t, exec (.loop c rs1 off) s = .next t ∧ faulted s t c 0x0A 0 (low32 last) 0)

/-- A packet that ends the innermost loop's body goes back to its first packet while passes are left, and pops it on the last pass (R78);
past the last packet of the program the packet takes effect and PC_RANGE follows, with SLOT 3 (R76). Shown on NOP. -/
def loopBackEdgePart : Prop :=
  ∀ (s : State) (c : CoreId), runs s c →
    (∀ l ls, (s.core c).loops = l :: ls → l.last = s.f .CORE_PC_PC c → 1 < l.count → l.first < s.progPackets c →
      ∃ t, exec (.nop c) s = .next t ∧ t.cst c = stRun ∧ t.f .CORE_PC_PC c = l.first ∧
        (t.core c).loops = { l with count := l.count - 1 } :: ls) ∧
    (∀ l, (s.core c).loops = [l] → l.last = s.f .CORE_PC_PC c → l.count ≤ 1 → s.f .CORE_PC_PC c + 1 < s.progPackets c →
      ∃ t, exec (.nop c) s = .next t ∧ t.cst c = stRun ∧ t.f .CORE_PC_PC c = s.f .CORE_PC_PC c + 1 ∧ (t.core c).loops = []) ∧
    ((s.core c).loops = [] → s.f .CORE_PC_PC c + 1 = s.progPackets c →
      ∃ t, exec (.nop c) s = .next t ∧ faulted s t c 0x0A 3 (s.progPackets c) 0)

/-- Loops (R78): how LOOP starts one, and how a packet at its end goes back or leaves it. -/
def Obligations.Loops : Prop := loopStartsPart ∧ loopBackEdgePart

/-- TRAP records code 0x0C with the low 16 bits of its immediate (R97); HALT leaves the core in DONE and CTL0 is told (R79). -/
def Obligations.TrapAndHalt : Prop :=
  (∀ (s : State) (c : CoreId) (imm : BitVec 22), runs s c →
    ∃ t, exec (.trap c imm) s = .next t ∧ faulted s t c 0x0C 0 (imm.toNat % 2 ^ 16) 0) ∧
  ∀ (s : State) (c : CoreId), runs s c →
    ∃ t, exec (.halt c) s = .next t ∧ t.cst c = stDone ∧ (⟨s.f .CTL_MASTER_CORE, true, .coreDone c⟩ : Irq) ∈ t.ctl.irqs ∧
      sameRegs s t (issueTouch c) ∧ { t with regs := s.regs, cores := s.cores, ctl := s.ctl } = s ∧
      (∀ m, m ≠ c.val → t.core m = s.core m) ∧ issueCore (s.core c) (t.core c) = s.core c ∧ sameBytes s t

/-! ### Waits, events, the step, tags -/

/-- The count that WAITE and BELLWAIT compute: s[rs1] + sext(imm), modulo 2^64. -/
abbrev waitCount (s : State) (c : Nat) (rs1 : BitVec 5) (imm : BitVec 22) : Nat := dataAddr s c rs1 imm

/-- The counter of event input e of core c. -/
def evCount (s : State) (c : Nat) (e : BitVec 4) : Nat := s.f .CORE_EVT_COUNT (16 * c + e.toNat)

/-- Event input e of core c. -/
def evFld (c : Nat) (e : BitVec 4) (fl : Fld) (i : Nat) : Bool := fldsAt [.CORE_EVT_COUNT] (16 * c + e.toNat) fl i

/-- WAITE (R65, R80): COUNT for a count of 0 or above 0xFFFF; a satisfied one subtracts the count and goes on; another waits, with kind 1. -/
def waitEventPart : Prop :=
  ∀ (s : State) (c : CoreId) (e : BitVec 4) (rs1 : BitVec 5) (imm : BitVec 22), runs s c →
    let n := waitCount s c rs1 imm
    (n = 0 ∨ 0xFFFF < n → ∃ t, exec (.waite c e rs1 imm) s = .next t ∧ faulted s t c 0x05 0 (n % 2 ^ 32) 0) ∧
    (1 ≤ n → n ≤ evCount s c e → canIssue s c →
      ∃ t, exec (.waite c e rs1 imm) s = .next t ∧ evCount t c e = evCount s c e - n ∧ wentOn s t c ∧ coreFrame s t c (evFld c e) nothing ∧
        sameBytes s t) ∧
    (n ≤ 0xFFFF → evCount s c e < n → ∃ t, exec (.waite c e rs1 imm) s = .next t ∧ waits s t c 1 (.waite c e rs1 imm))

/-- Whether n granules from local address a have their tags set. -/
def allPresent (s : State) (c a n : Nat) : Prop := ∀ i, i < n → (s.core c).tag (a / 512 + i) % 2 = 1

/-- The granules that WAITP and PCLR name: address, signed count. -/
def granuleArgsOk (s : State) (c a : Nat) (imm : BitVec 22) : Prop := 0 < imm.toInt ∧ a % 512 = 0 ∧ a + imm.toInt.toNat * 512 ≤ s.progStart c

/-- WAITP (R82): with every tag set it goes on, and clears none; otherwise it waits, with kind 2; the checks. -/
def waitPresencePart : Prop :=
  ∀ (s : State) (c : CoreId) (rs1 : BitVec 5) (imm : BitVec 22), runs s c →
    let a := (gpr s c rs1).toNat
    (granuleArgsOk s c a imm → allPresent s c a imm.toInt.toNat → canIssue s c →
      ∃ t, exec (.waitp c rs1 imm) s = .next t ∧ wentOn s t c ∧ coreFrame s t c noFld nothing ∧ sameBytes s t) ∧
    (granuleArgsOk s c a imm → ¬allPresent s c a imm.toInt.toNat →
      ∃ t, exec (.waitp c rs1 imm) s = .next t ∧ waits s t c 2 (.waitp c rs1 imm)) ∧
    (imm.toInt ≤ 0 → a % 512 = 0 → ∃ t, exec (.waitp c rs1 imm) s = .next t ∧ faulted s t c 0x05 0 (low32 imm.toInt) 0) ∧
    (a % 512 ≠ 0 → (imm.toInt ≤ 0 ∨ a + imm.toInt.toNat * 512 ≤ s.progStart c) →
      ∃ t, exec (.waitp c rs1 imm) s = .next t ∧ faulted s t c 0x04 0 0 a) ∧
    (0 < imm.toInt → s.progStart c < a + imm.toInt.toNat * 512 →
      ∃ t, exec (.waitp c rs1 imm) s = .next t ∧ faulted s t c 0x03 0 0 a)

/-- BELLWAIT (R85): while BELL is below the named bell the core waits, with kind 3; otherwise it goes on and counts one late bell, saturating. -/
def waitBellPart : Prop :=
  ∀ (s : State) (c : CoreId) (rs1 : BitVec 5) (imm : BitVec 22), runs s c →
    ((s.core c).bell < waitCount s c rs1 imm → ∃ t, exec (.bellwait c rs1 imm) s = .next t ∧ waits s t c 3 (.bellwait c rs1 imm)) ∧
    (waitCount s c rs1 imm ≤ (s.core c).bell → canIssue s c →
      ∃ t, exec (.bellwait c rs1 imm) s = .next t ∧ t.f .CORE_LATE_BELLS c = min (s.f .CORE_LATE_BELLS c + 1) (2 ^ 32 - 1) ∧
        wentOn s t c ∧ coreFrame s t c (fldsAt [.CORE_LATE_BELLS] c) (fun k l => { l with lastWait := k.lastWait }) ∧ sameBytes s t)

/-- WAITE (R65, R80), WAITP (R82) and BELLWAIT (R85). -/
def Obligations.Waits : Prop := waitEventPart ∧ waitPresencePart ∧ waitBellPart

/-- WAITE_COMPLETE and WAITP_COMPLETE (R65, R80, R82): the waiting packet takes effect once its condition holds; until then the core goes on
waiting. -/
def Obligations.WaitCompletions : Prop :=
  (∀ (s : State) (c : CoreId) (e : BitVec 4) (rs1 : BitVec 5) (imm : BitVec 22),
    s.cst c = stWait → s.clocked c = true → s.f .CORE_STATUS_WAIT_KIND c = 1 → (s.core c).waiting = [.waite c e rs1 imm] →
    let n := waitCount s c rs1 imm
    1 ≤ n → n ≤ 0xFFFF →
    (n ≤ evCount s c e → (nextPc .seq (s.core c).loops (s.f .CORE_PC_PC c)).2 < s.progPackets c →
      ∃ t, exec (.waiteComplete c) s = .next t ∧ evCount t c e = evCount s c e - n ∧ wentOn s t c ∧ coreFrame s t c (evFld c e) nothing ∧
        (t.core c).waiting = [] ∧ sameBytes s t) ∧
    (evCount s c e < n → ∃ t, exec (.waiteComplete c) s = .next t ∧ waits s t c 1 (.waite c e rs1 imm))) ∧
  ∀ (s : State) (c : CoreId) (rs1 : BitVec 5) (imm : BitVec 22),
    s.cst c = stWait → s.clocked c = true → s.f .CORE_STATUS_WAIT_KIND c = 2 → (s.core c).waiting = [.waitp c rs1 imm] →
    granuleArgsOk s c (gpr s c rs1).toNat imm →
    (allPresent s c (gpr s c rs1).toNat imm.toInt.toNat → (nextPc .seq (s.core c).loops (s.f .CORE_PC_PC c)).2 < s.progPackets c →
      ∃ t, exec (.waitpComplete c) s = .next t ∧ wentOn s t c ∧ coreFrame s t c noFld nothing ∧ (t.core c).waiting = [] ∧ sameBytes s t) ∧
    (¬allPresent s c (gpr s c rs1).toNat imm.toInt.toNat →
      ∃ t, exec (.waitpComplete c) s = .next t ∧ waits s t c 2 (.waitp c rs1 imm))

/-- EVSEND puts a count on its way, or raises EVSEND_TARGET (R81); its delivery adds 1 to the input, which saturates and then marks EVT_SAT (R65);
EVREAD reads an input. -/
def eventsPart : Prop :=
  (∀ (s : State) (c : CoreId) (e : BitVec 4) (rs1 : BitVec 5), runs s c →
    (s.f .CORE_SHAPE_NCORE c ≤ (gpr s c rs1).toNat →
      ∃ t, exec (.evsend c e rs1) s = .next t ∧ faulted s t c 0x0D 0 ((gpr s c rs1).toNat % 2 ^ 32) 0) ∧
    (∀ d, (gpr s c rs1).toNat < s.f .CORE_SHAPE_NCORE c → s.physical (gpr s c rs1).toNat = some d → canIssue s c →
      ∃ t, exec (.evsend c e rs1) s = .next t ∧ t.evFlight = s.evFlight ++ [⟨c, d, e.toNat⟩] ∧ wentOn s t c ∧
        coreFrame s { t with evFlight := s.evFlight } c noFld nothing ∧ sameBytes s t)) ∧
  (∀ (s : State) (src dst : CoreId) (e : BitVec 4), (⟨src, dst, e.toNat⟩ : EvFlight) ∈ s.evFlight →
    ∃ t, exec (.evsendDelivery src dst e) s = .next t ∧ t.evFlight = s.evFlight.erase ⟨src, dst, e.toNat⟩ ∧
      evCount t dst e = min (evCount s dst e + 1) 0xFFFF ∧
      (∀ j, (t.f .CORE_STATUS_EVT_SAT dst).testBit j =
        ((s.f .CORE_STATUS_EVT_SAT dst).testBit j || decide (j = e.toNat ∧ evCount s dst e = 0xFFFF))) ∧
      sameRegs s t (fun fl i => pmcTouch dst fl i || evFld dst e fl i || fldsAt [.CORE_STATUS_EVT_SAT] dst fl i) ∧
      { t with regs := s.regs, evFlight := s.evFlight } = s) ∧
  ∀ (s : State) (c : CoreId) (rd : BitVec 5) (e : BitVec 4), canIssue s c →
    ∃ t, exec (.evread c rd e) s = .next t ∧ wroteScalar s t c rd (BitVec.ofNat 64 (evCount s c e))

/-- The shape registers in RDSH's order (R66). -/
def shapeRegs (s : State) (c : Nat) : List Nat :=
  [s.f .CORE_SHAPE_NCORE c, s.f .CORE_BIND_LOGICAL c, s.f .CORE_SHAPE_NCHIP c, s.f .CORE_SHAPE_MYCHIP c, s.f .CORE_STEP_STEP c, (s.core c).bell]

/-- RDSH reads a shape register, or is ILLEGAL for an unlisted number; STEPINC adds 1 to STEP, and the chip step counter takes the least STEP
of the bound cores when that has advanced (R66, R86). -/
def shapeAndStepPart : Prop :=
  (∀ (s : State) (c : CoreId) (rd : BitVec 5) (imm : BitVec 22),
    (∀ v, (shapeRegs s c)[imm.toNat]? = some v → canIssue s c →
      ∃ t, exec (.rdsh c rd imm) s = .next t ∧ wroteScalar s t c rd (BitVec.ofNat 64 v)) ∧
    (5 < imm.toNat → runs s c →
      ∃ t, exec (.rdsh c rd imm) s = .next t ∧ faulted s t c 0x01 0 ((0x40 + rd.toNat * 2 ^ 8 + imm.toNat * 2 ^ 18) % 2 ^ 32) 0)) ∧
  ∀ (s : State) (c : CoreId), canIssue s c → s.f .CORE_STEP_STEP c < 2 ^ 64 - 1 →
    ∃ t, exec (.stepinc c) s = .next t ∧ t.f .CORE_STEP_STEP c = s.f .CORE_STEP_STEP c + 1 ∧
      (∀ d : CoreId, d ≠ c → t.f .CORE_STEP_STEP d = s.f .CORE_STEP_STEP d) ∧
      t.f .LDG_STEP_STEP = ((s.boundCores.map (fun d => t.f .CORE_STEP_STEP d)).min?.elim (s.f .LDG_STEP_STEP) (max (s.f .LDG_STEP_STEP))) ∧
      (s.f .LDG_STEP_STEP < t.f .LDG_STEP_STEP → ∀ d ∈ s.boundCores, t.f .CORE_PACK_OVF_STEP_OVF d = 0) ∧
      wentOn s t c ∧ (∀ r, gpr t c r = gpr s c r) ∧
      sameRegs s t (fun fl i => issueTouch c fl i || fldsAt [.CORE_STEP_STEP] c fl i ||
        flds (ledgerFlds ++ [.LDG_STEP_STEP, .CORE_PACK_OVF_STEP_OVF, .MXE_STATUS_NINV]) fl i) ∧
      (s.f .LDG_CTRL_MODE = ldgOff → sameBytes s t)

/-- EVSEND with its delivery (R65), EVREAD, RDSH (R66, R81) and STEPINC (R86). -/
def Obligations.EventsAndStep : Prop := eventsPart ∧ shapeAndStepPart

/-- PCLR clears the tags of its granules (R84), RELEASE those of its flow's current slot, moves to the next slot and sends one permit (R83);
the handle's checks. No frame is held for these granules. -/
def Obligations.TagClears : Prop :=
  (∀ (s : State) (c : CoreId) (rs1 : BitVec 5) (imm : BitVec 22), runs s c →
    let a := (gpr s c rs1).toNat
    (granuleArgsOk s c a imm → s.holding = [] → canIssue s c →
      ∃ t, exec (.pclr c rs1 imm) s = .next t ∧
        (∀ g, (t.core c).tag g = if a / 512 ≤ g ∧ g < a / 512 + imm.toInt.toNat then 0 else (s.core c).tag g) ∧
        wentOn s t c ∧ coreFrame s t c noFld (fun k l => { l with tags := k.tags }) ∧ sameBytes s t) ∧
    (imm.toInt ≤ 0 → a % 512 = 0 → ∃ t, exec (.pclr c rs1 imm) s = .next t ∧ faulted s t c 0x05 0 (low32 imm.toInt) 0) ∧
    (a % 512 ≠ 0 → (imm.toInt ≤ 0 ∨ a + imm.toInt.toNat * 512 ≤ s.progStart c) →
      ∃ t, exec (.pclr c rs1 imm) s = .next t ∧ faulted s t c 0x04 0 0 a)) ∧
  ∀ (s : State) (c : CoreId) (rs1 : BitVec 5), runs s c →
    let h := (gpr s c rs1).toNat
    (s.ownsRx c h = false → ∃ t, exec (.release c rs1) s = .next t ∧ faulted s t c 0x06 0 (h % 2 ^ 32) 0) ∧
    (s.ownsRx c h = true → s.holding = [] → canIssue s c →
      let x := s.rflow (h / 4096) (h % 4096)
      ∀ d, s.rxDesc (h / 4096) (h % 4096) = some d → dSpace d = 0 → (s.link (h / 4096)).peer = some (dRetChip d) → dRetChip d ≠ s.chipAddr →
      ∃ t, exec (.release c rs1) s = .next t ∧
        (t.rflow (h / 4096) (h % 4096)).rel = (x.rel + 1) % max (dPermits d) 1 ∧
        (∀ g, g < dVlen d → (t.core c).tag ((dGran d x.rel g).toNat / 512) = 0) ∧
        (t.link (h / 4096)).permits = addPermit (s.link (h / 4096)).permits ⟨dRetChip d, dRetLink d, dRetFlow d, 1⟩ ∧
        wentOn s t c ∧ (∀ r, gpr t c r = gpr s c r) ∧ sameBytes s t ∧ sameRegs s t (issueTouch c))

/-! ### Core control -/

/-- Core c is in FAULT with STEP_HALT and this cause, unless an earlier record stands (R100). -/
def stepHalted (s t : State) (n cause : Nat) : Prop :=
  t.cst n = stFault ∧ (s.f .CORE_FAULT_VALID n = 0 →
    t.f .CORE_FAULT_VALID n = 1 ∧ t.f .CORE_FAULT_CODE n = 0x0E ∧ t.f .CORE_FAULT_SLOT n = 3 ∧ t.f .CORE_FAULT_DETAIL n = cause)

/-- The chip's step has stopped by this cause, unless an earlier one stands: every bound core in RUN or WAIT is in FAULT with STEP_HALT,
every other core is in the state it was in (R100). -/
def stepStopped (s t : State) (cause : Nat) : Prop :=
  t.f .CHIP_HALT_STOPPED = 1 ∧ t.f .CHIP_HALT_CAUSE = (if s.f .CHIP_HALT_STOPPED = 1 then s.f .CHIP_HALT_CAUSE else cause) ∧
  ∀ n : CoreId, if s.bound n = true ∧ (s.cst n = stRun ∨ s.cst n = stWait) then stepHalted s t n (t.f .CHIP_HALT_CAUSE) else t.cst n = s.cst n

/-- The fields that stopping the step, or a core's fault, changes besides those of a ledger entry. -/
def haltFlds : List Fld :=
  [.CHIP_HALT_STOPPED, .CHIP_HALT_CAUSE, .CORE_STATUS_STATE, .CORE_STATUS_WAIT_KIND, .CORE_FAULT_VALID, .CORE_FAULT_OVERRUN,
   .CORE_FAULT_CODE, .CORE_FAULT_SLOT, .CORE_FAULT_DETAIL, .CORE_FAULT_PC_PC, .CORE_FAULT_ADDR_ADDR, .CORE_FAULT_BELL_BELL]

/-- CORE_HOLD, CORE_RESUME (R411), CORE_FENCE_WRITE (R102), WAIT_LIMIT (R99) on an enabled core, and CHIP_HALT_STOP and HALT_STEP (R100). -/
def Obligations.CoreControl : Prop :=
  (∀ (s : State) (c : CoreId), s.enabled c = true →
    ∃ t, exec (.coreHold c) s = .next t ∧ t.f .CORE_CTRL_HOLD c = 1 ∧
      t.cst c = (if s.cst c = stRun ∨ s.cst c = stWait then stHeld else s.cst c) ∧ t.f .CORE_PC_PC c = s.f .CORE_PC_PC c ∧
      sameRegs s t (fldsAt [.CORE_CTRL_HOLD, .CORE_STATUS_STATE, .CORE_STATUS_WAIT_KIND] c) ∧ onlyCore s t c ∧
      { t.core c with waiting := (s.core c).waiting, waitBells := (s.core c).waitBells, released := (s.core c).released, cg := (s.core c).cg } = s.core c) ∧
  (∀ (s : State) (c : CoreId), s.enabled c = true →
    ∃ t, exec (.coreResume c) s = .next t ∧ t.f .CORE_CTRL_HOLD c = 0 ∧ t.cst c = (if s.cst c = stHeld then stRun else s.cst c) ∧
      sameRegs s t (fldsAt [.CORE_CTRL_HOLD, .CORE_STATUS_STATE] c) ∧ onlyRegs s t) ∧
  (∀ (s : State) (c : CoreId), s.enabled c = true →
    (∃ t, exec (.coreFenceWrite c false) s = .next t ∧ t.f .CORE_CTRL_FENCE c = 0 ∧ sameRegs s t (fldsAt [.CORE_CTRL_FENCE] c) ∧ onlyRegs s t) ∧
    (s.bound c = false → ∃ t, exec (.coreFenceWrite c true) s = .next t ∧ t.f .CORE_CTRL_FENCE c = 1 ∧ t.cst c = stFenced ∧
      sameRegs s t (fldsAt [.CORE_CTRL_FENCE, .CORE_STATUS_STATE] c) ∧ onlyRegs s t) ∧
    (s.bound c = true → s.f .CORE_CTRL_FENCE c = 0 → s.f .CORE_FAULT_VALID c = 0 →
      ∃ t, exec (.coreFenceWrite c true) s = .next t ∧ t.f .CORE_CTRL_FENCE c = 1 ∧ t.cst c = stFenced ∧ t.f .CORE_FAULT_CODE c = 0x10 ∧
        t.f .CORE_FAULT_SLOT c = 3 ∧ t.f .CHIP_HALT_STOPPED = 1 ∧
        sameRegs s t (fun fl i => fldsAt [.CORE_CTRL_FENCE] c fl i || flds haltFlds fl i))) ∧
  (∀ (s : State) (c : CoreId),
    let kind := s.f .CORE_STATUS_WAIT_KIND c
    let ninth := kind = 4 ∧ s.streamHeld c = true
    let late := s.cst c = stWait ∧ kind ≠ 3 ∧ ¬ninth ∧ s.f .CORE_WAIT_LIMIT_BELLS c ≠ 0 ∧ s.f .CORE_WAIT_LIMIT_BELLS c < (s.core c).waitBells
    (late → ∃ t, exec (.waitLimit c) s = .next t ∧ faulted s t c 0x0B (if kind = 4 then 2 else 0) kind 0) ∧
    (¬late → exec (.waitLimit c) s = .next s)) ∧
  (∀ s : State, ∃ t, exec .chipHaltStop s = .next t ∧ stepStopped s t 1 ∧ sameRegs s t (flds haltFlds) ∧ sameBytes s t) ∧
  ∀ s : State, ∃ u, exec .haltStep s = .next (u.ok 0x13) ∧ stepStopped s u 1 ∧ sameRegs s u (flds haltFlds) ∧ sameBytes s u

/-! ### The porter -/

/-- A porter instruction's constructor. -/
abbrev PortForm := CoreId → BitVec 4 → BitVec 3 → Bool → BitVec 4 → BitVec 5 → BitVec 5 → BitVec 5 → Bool → Instr

/-- Every porter instruction with each DT and SUB that the table lists for it, and the operation it is (03; R90). -/
def portForms : List (PortForm × BitVec 4 × BitVec 3 × PortKind) :=
  [(.put, 0, 0, .put), (.get, 0, 0, .get), (.acc, 0, 0, .acc), (.acc, 1, 0, .acc), (.acc, 2, 0, .acc), (.acc, 4, 0, .acc),
   (.atom, 0, 0, .atomAdd), (.atom, 2, 0, .atomAdd), (.atom, 3, 0, .atomAdd), (.atom, 0, 1, .atomMax), (.atom, 2, 1, .atomMax),
   (.atom, 3, 1, .atomMax), (.atom, 0, 2, .atomCas), (.atom, 2, 2, .atomCas), (.atom, 3, 2, .atomCas)]

/-- An ATOM. -/
def atomic (k : PortKind) : Bool := k == .atomAdd || k == .atomMax || k == .atomCas

/-- The bytes of an open operation: those of an ATOM's DT, else the length register (R90). -/
def portLen (k : PortKind) (dt : BitVec 4) (n : Nat) : Nat := if atomic k then (if dt = 3 then 8 else 4) else n

/-- Whether an open operation of n bytes at local offset l, machine address m, passes the checks of R90 and R249: its length, its local range
(the old value of an ATOM that discards it has none), its target and its registers; top is the end of the local range it may use, ok whether the
chip may be reached. -/
abbrev openFits (k : PortKind) (dt : BitVec 4) (rn rl : BitVec 5) (n l m top : Nat) (ok : Bool) : Prop :=
  (atomic k = false → n % 4 = 0 ∧ 4 ≤ n ∧ n ≤ 8192 ∧ (k = .acc → dt = 4 → n % 12 = 0)) ∧
  (atomic k = true ∧ rn = 0 ∨ l % 4 = 0 ∧ l + n ≤ top) ∧
  m % (if atomic k then n else 4) = 0 ∧ m < 2 ^ 59 ∧ ok = true ∧ (k = .atomCas → rl ≠ 31)

/-- Whether an open operation of core c passes the checks of R90 and R249. -/
abbrev openArgsOk (s : State) (c : Nat) (k : PortKind) (dt : BitVec 4) (rn rr rl : BitVec 5) : Prop :=
  openFits k dt rn rl (portLen k dt (gpr s c rn).toNat) (gpr s c (if atomic k then rn else rl)).toNat (gpr s c rr).toNat
    (if k = .put ∨ k = .acc then storeBytes else s.progStart c) (s.openTo ((gpr s c rr).toNat / 2 ^ 44 % 2 ^ 15))

/-- Whether core c's flow handle fits a booked operation of a kind (R244). -/
def handleFits (s : State) (c : Nat) (k : PortKind) (h : Nat) : Bool :=
  match k with
  | .put => s.ownsTx c h kPut
  | .acc => s.ownsTx c h kAcc
  | _ => s.ownsRx c h

/-- The first free entry of core c's porter. -/
def freeEntry (s : State) (c : Nat) : Option Nat := firstBelow portCap (fun i => ((s.core c).port i).isNone)

/-- PUT, GET, ACC and ATOM, with every DT and SUB listed, take a free entry of the porter with their operands (R89-R91), on the own chip and on
another; so do PUT, GET and ACC on a flow, and PUT and ACC join the flow's waiting vectors (R245). A full porter makes the packet wait with kind 4
(R91); a handle of another core or kind, or any handle of an ATOM, raises FLOW, an open length that is no multiple of 4 LENGTH, an address of
2^59 or more or a chip outside the open map CHANNEL (R97, R244, R249). -/
def Obligations.PorterIssue : Prop :=
  (∀ p ∈ portForms, ∀ (s : State) (c : CoreId) (even : Bool) (ev : BitVec 4) (rn rr rl : BitVec 5) (i : Nat),
    canIssue s c → freeEntry s c = some i → (s.core c).inflight < portCap → openArgsOk s c p.2.2.2 p.2.1 rn rr rl →
    let k := p.2.2.2
    let m := (gpr s c rr).toNat
    ∃ t, exec (p.1 c p.2.1 p.2.2.1 even ev rn rr rl true) s = .next t ∧
      (∃ o, (t.core c).port i = some o ∧ o.kind = k ∧ o.dt = p.2.1.toNat ∧ o.booked = false ∧ o.chip = m / 2 ^ 44 % 2 ^ 15 ∧
        o.remote = m % 2 ^ 44 ∧ o.local_ = (gpr s c (if atomic k then rn else rl)).toNat ∧ o.len = portLen k p.2.1 (gpr s c rn).toNat ∧
        (atomic k = true → o.val = (gpr s c rl).toNat ∧ o.discard = decide (rn = 0)) ∧ (k = .atomCas → o.val2 = (gpr s c (rl + 1)).toNat) ∧
        o.ev = (if even then some ev.toNat else none) ∧ o.locDone = false) ∧
      t.f .PRT_CNT_OPS_COUNT c = min (s.f .PRT_CNT_OPS_COUNT c + 1) (2 ^ 48 - 1) ∧ wentOn s t c ∧ (∀ r, gpr t c r = gpr s c r) ∧ sameBytes s t) ∧
  (∀ p ∈ portForms, atomic p.2.2.2 = false → ∀ (s : State) (c : CoreId) (even : Bool) (ev : BitVec 4) (rr : BitVec 5) (i : Nat),
    canIssue s c → freeEntry s c = some i → (s.core c).inflight < portCap →
    let h := (gpr s c rr).toNat
    handleFits s c p.2.2.2 h = true →
    ∃ t, exec (p.1 c p.2.1 p.2.2.1 even ev 0 rr 0 false) s = .next t ∧
      (∃ o, (t.core c).port i = some o ∧ o.kind = p.2.2.2 ∧ o.booked = true ∧ o.link = h / 4096 ∧ o.flow = h % 4096 ∧
        o.ev = (if even then some ev.toNat else none) ∧ o.locDone = false) ∧
      (p.2.2.2 ≠ .get → (t.tflow (h / 4096) (h % 4096)).puts = (s.tflow (h / 4096) (h % 4096)).puts ++ [(c.val, i)]) ∧
      t.f .PRT_CNT_OPS_COUNT c = min (s.f .PRT_CNT_OPS_COUNT c + 1) (2 ^ 48 - 1) ∧
      wentOn s t c ∧ (∀ r, gpr t c r = gpr s c r) ∧ sameRegs s t (fun fl j => issueTouch c fl j || fldsAt [.PRT_CNT_OPS_COUNT] c fl j) ∧ sameBytes s t) ∧
  ∀ p ∈ portForms, ∀ (s : State) (c : CoreId) (even : Bool) (ev : BitVec 4) (rn rr rl : BitVec 5), runs s c →
    let k := p.2.2.2
    let m := (gpr s c rr).toNat
    (openArgsOk s c k p.2.1 rn rr rl → portCap ≤ (s.core c).inflight →
      ∃ t, exec (p.1 c p.2.1 p.2.2.1 even ev rn rr rl true) s = .next t ∧ waits s t c 4 (p.1 c p.2.1 p.2.2.1 even ev rn rr rl true)) ∧
    (atomic k = false → handleFits s c k m = true → portCap ≤ (s.core c).inflight →
      ∃ t, exec (p.1 c p.2.1 p.2.2.1 even ev 0 rr 0 false) s = .next t ∧ waits s t c 4 (p.1 c p.2.1 p.2.2.1 even ev 0 rr 0 false)) ∧
    (atomic k = false → handleFits s c k m = false →
      ∃ t, exec (p.1 c p.2.1 p.2.2.1 even ev 0 rr 0 false) s = .next t ∧ faulted s t c 0x06 2 (m % 2 ^ 32) 0) ∧
    (atomic k = true → rn = 0 → (k = .atomCas → rl ≠ 31) →
      ∃ t, exec (p.1 c p.2.1 p.2.2.1 even ev rn rr rl false) s = .next t ∧ faulted s t c 0x06 2 (m % 2 ^ 32) 0) ∧
    (atomic k = false → (gpr s c rl).toNat % 4 = 0 → m % 4 = 0 → (gpr s c rl).toNat + (gpr s c rn).toNat ≤ s.progStart c →
      ((gpr s c rn).toNat % 4 ≠ 0 → m < 2 ^ 59 → s.openTo (m / 2 ^ 44 % 2 ^ 15) = true →
        ∃ t, exec (p.1 c p.2.1 p.2.2.1 even ev rn rr rl true) s = .next t ∧ faulted s t c 0x08 2 ((gpr s c rn).toNat % 2 ^ 32) 0) ∧
      (2 ^ 59 ≤ m ∨ s.openTo (m / 2 ^ 44 % 2 ^ 15) = false →
        ∃ t, exec (p.1 c p.2.1 p.2.2.1 even ev rn rr rl true) s = .next t ∧ faulted s t c 0x07 2 0 m))

/-- An event of an operation that may name none has been delivered: its counter has gone up by one, saturating (R65). -/
def evDelivered (s t : State) (c : Nat) (e : Option Nat) : Prop :=
  match e with
  | some e => t.f .CORE_EVT_COUNT (16 * c + e) = min (s.f .CORE_EVT_COUNT (16 * c + e) + 1) 0xFFFF
  | none => ∀ e, t.f .CORE_EVT_COUNT (16 * c + e) = s.f .CORE_EVT_COUNT (16 * c + e)

/-- PORTER_LOCAL_COMPLETE (R92): the oldest operation whose local completion has come delivers its event; a booked one frees its entry, an open
one keeps it for the reply; with none nothing happens. -/
def Obligations.PorterLocal : Prop :=
  ∀ (s : State) (c : CoreId),
    let x := (s.core c).ops.find? (fun x => x.2.readDone && !x.2.locDone && decide (x.2.due ≤ (s.core c).elapsed))
    (x = none → exec (.porterLocalComplete c) s = .next s) ∧
    ∀ i o, x = some (i, o) →
      ∃ t, exec (.porterLocalComplete c) s = .next t ∧
        (t.core c).port i = (if o.booked = true then none else some { o with locDone := true }) ∧ evDelivered s t c o.ev ∧
        sameRegs s t (fun fl j => pmcTouch c fl j || fldsAt [.CORE_STATUS_EVT_SAT] c fl j || (touches [.CORE_EVT_COUNT] fl && j / 16 == c.val)) ∧
        onlyCore s t c ∧ { t.core c with porter := (s.core c).porter } = s.core c

/-! ### PACK and UNPACK -/

/-- Lane i of vector register r of core c, as 32 bits. -/
def lane (s : State) (c : Nat) (r : BitVec 5) (i : Nat) : BitVec 32 := BitVec.ofNat 32 (elem (s.vr c r) 32 i)

/-- Whether predicate p of core c holds lane i. -/
def holds (s : State) (c : Nat) (p : BitVec 3) (i : Nat) : Bool := (s.pr c p).toNat.testBit i

/-- The held lanes below lane i. -/
def rank (s : State) (c : Nat) (p : BitVec 3) (i : Nat) : Nat := ((List.range i).filter (holds s c p)).length

/-- PACK (R87, R88): the held lanes of vs move to the lowest lanes of vd, up to the room s[sc] - s[sf]; the other lanes are all ones; pd marks
the lanes that found no room, which are counted; s[sf] grows by those that moved. UNPACK moves lane k of vs to the k-th held lane. -/
def Obligations.PackUnpack : Prop :=
  (∀ (s : State) (c : CoreId) (sc sf : BitVec 5) (pd pm : BitVec 3) (vs vd : BitVec 5), canIssue s c →
    let room := ((gpr s c sc).toInt - (gpr s c sf).toInt).toNat
    let all := rank s c pm 256
    ∃ t, exec (.pack c sc sf pd pm vs vd) s = .next t ∧
      (∀ i, i < 256 → holds s c pm i = true → rank s c pm i < room → lane t c vd (rank s c pm i) = lane s c vs i) ∧
      (∀ k, k < 256 → min all room ≤ k → lane t c vd k = 0xFFFFFFFF) ∧
      (∀ i, i < 256 → pd ≠ 0 → holds t c pd i = (holds s c pm i && decide (room ≤ rank s c pm i))) ∧
      (∀ r, gpr t c r = if r = sf ∧ r ≠ 0 then gpr s c sf + BitVec.ofNat 64 (min all room) else gpr s c r) ∧
      (∀ r, r ≠ vd → t.vr c r = s.vr c r) ∧ (∀ p, p ≠ pd → t.pr c p = s.pr c p) ∧
      t.f .CORE_PACK_OVF_STEP_OVF c = min (s.f .CORE_PACK_OVF_STEP_OVF c + (all - room)) (2 ^ 32 - 1) ∧
      t.f .CORE_PACK_OVF_TOTAL c = min (s.f .CORE_PACK_OVF_TOTAL c + (all - room)) (2 ^ 32 - 1) ∧ wentOn s t c ∧
      coreFrame s t c (fldsAt [.CORE_PACK_OVF_STEP_OVF, .CORE_PACK_OVF_TOTAL] c) (fun k l => scalars k (vectors k (predicates k l))) ∧
      sameBytes s t) ∧
  ∀ (s : State) (c : CoreId) (sf : BitVec 5) (pm : BitVec 3) (vs vd : BitVec 5), canIssue s c →
    ∃ t, exec (.unpack c sf pm vs vd) s = .next t ∧
      (∀ i, i < 256 → lane t c vd i = if holds s c pm i then lane s c vs (rank s c pm i) else 0) ∧
      (∀ r, gpr t c r = if r = sf ∧ r ≠ 0 then gpr s c sf + BitVec.ofNat 64 (rank s c pm 256) else gpr s c r) ∧
      (∀ r, r ≠ vd → t.vr c r = s.vr c r) ∧ wentOn s t c ∧ coreFrame s t c noFld (fun k l => scalars k (vectors k l)) ∧ sameBytes s t

/-! ### The matrix engine -/

/-- The accumulators of the core. -/
def accumulators (k l : Core) : Core := { l with accs := k.accs }

/-- The classes of the matrix formats: FP8, FP6 and FP4 codes 0 to 4, INT8 code 5, the 16-bit codes 6 and 7. -/
def formatClass (f : Nat) : Nat := if f ≤ 4 then 0 else if f = 5 then 1 else 2

/-- Whether MXCFG lists a pair of formats with its scale bits (R107). -/
abbrev pairListed (wf af : BitVec 4) (ws as : Bool) : Prop :=
  wf.toNat ≤ 7 ∧ af.toNat ≤ 7 ∧ formatClass wf.toNat = formatClass af.toNat ∧ (formatClass wf.toNat = 2 → ws = false ∧ as = false)

/-- The anchor a configuration word holds, and whether invariant mode admits it (R139). -/
def anchorOf (s : State) (c : Nat) (rx : BitVec 5) : Int := ((gpr s c rx).setWidth 16).toInt
abbrev anchorLegal (s : State) (c : Nat) (rx : BitVec 5) : Prop :=
  s.f .MXE_STATUS_INV_ACTIVE c = 1 → -126 ≤ anchorOf s c rx ∧ anchorOf s c rx ≤ 127

/-- MXCFG (R112, R107), MXLW (R113) and MXMASK (R116): what they set, and the pairs, anchors and blocks they refuse. -/
def Obligations.MatrixSetup : Prop :=
  (∀ (s : State) (c : CoreId) (rx rq rs : BitVec 5) (sp as ws : Bool) (af wf : BitVec 4),
    (canIssue s c → pairListed wf af ws as → anchorLegal s c rx →
      ∃ t, exec (.mxcfg c rx rq rs sp as ws af wf) s = .next t ∧
        (t.core c).mcfg = ⟨wf.toNat, af.toNat, ws, as, sp, (gpr s c rs).toNat, (gpr s c rq).toNat, anchorOf s c rx⟩ ∧ wentOn s t c ∧
        coreFrame s t c noFld (fun k l => { l with mcfg := k.mcfg }) ∧ sameBytes s t) ∧
    (runs s c → ¬pairListed wf af ws as →
      ∃ t, exec (.mxcfg c rx rq rs sp as ws af wf) s = .next t ∧ faulted s t c 0x01 2 ((0x01 + wf.toNat * 2 ^ 8 + af.toNat * 2 ^ 12 +
        ws.toNat * 2 ^ 16 + as.toNat * 2 ^ 17 + sp.toNat * 2 ^ 18 + rs.toNat * 2 ^ 19 + rq.toNat * 2 ^ 24 + rx.toNat * 2 ^ 29) % 2 ^ 32) 0) ∧
    (runs s c → pairListed wf af ws as → ¬anchorLegal s c rx →
      ∃ t, exec (.mxcfg c rx rq rs sp as ws af wf) s = .next t ∧ faulted s t c 0x11 2 4 0)) ∧
  (∀ (s : State) (c : CoreId) (we : BitVec 2) (rk rw : BitVec 5), canIssue s c →
    let m := (s.core c).mcfg
    let n := tileBytes m.wf m.ws m.sp
    let a := (gpr s c rw).toNat
    a % 64 = 0 → a + n ≤ storeBytes → (gpr s c rk).toNat % mxKe m.wf m.sp = 0 → (s.core c).eccHit a n = none →
    ∃ t, exec (.mxlw c we rk rw) s = .next t ∧
      (∀ e, (t.core c).went e = if e = we.toNat then
        ⟨m.wf, m.ws, m.sp, (gpr s c rk).toNat, (List.range n).map (fun i => (s.core c).store.rd (a + i))⟩ else (s.core c).went e) ∧
      wentOn s t c ∧ coreFrame s t c noFld (fun k l => { l with wents := k.wents }) ∧ sameBytes s t) ∧
  ∀ (s : State) (c : CoreId) (nb ab : BitVec 2) (rf : BitVec 5),
    (canIssue s c → ab.toNat + nb.toNat < 4 →
      ∃ t, exec (.mxmask c false nb ab rf) s = .next t ∧
        (∀ b i, b ≤ nb.toNat → i < 32 → ((t.core c).mask (ab.toNat + b)).testBit i = decide (32 * b + i < (gpr s c rf).toNat)) ∧
        (∀ a, a < ab.toNat ∨ ab.toNat + nb.toNat < a → (t.core c).mask a = (s.core c).mask a) ∧ wentOn s t c ∧
        coreFrame s t c noFld (fun k l => { l with masks := k.masks }) ∧ sameBytes s t) ∧
    (canIssue s c →
      ∃ t, exec (.mxmask c true 0 ab rf) s = .next t ∧
        (∀ a, (t.core c).mask a = if a = ab.toNat then (gpr s c rf).toNat % 2 ^ 32 else (s.core c).mask a) ∧ wentOn s t c ∧
        coreFrame s t c noFld (fun k l => { l with masks := k.masks }) ∧ sameBytes s t) ∧
    (runs s c → 4 ≤ ab.toNat + nb.toNat → ∀ mode, ∃ t, exec (.mxmask c mode nb ab rf) s = .next t ∧
      faulted s t c 0x01 2 (0x05 + rf.toNat * 2 ^ 8 + ab.toNat * 2 ^ 13 + nb.toNat * 2 ^ 15 + mode.toNat * 2 ^ 17) 0)

/-- The checks of MXRUN that no state of the engine decides: the ranges of entries and accumulators, the store, alignment, and no
uncorrectable word in the store (R110, R121, R168). -/
abbrev runFits (s : State) (c : Nat) (nb ab ne we : BitVec 2) (rc ra : BitVec 5) : Prop :=
  we.toNat + ne.toNat < 4 ∧ ab.toNat + nb.toNat < 4 ∧ ((s.core c).mcfg.as = true ∨ rc = 0) ∧ (gpr s c ra).toNat % 8 = 0 ∧
  (s.core c).mcfg.stride % 8 = 0 ∧ (s.core c).eccBad = [] ∧
  ∀ e, e < ne.toNat + 1 →
    (gpr s c ra).toNat + (32 * nb.toNat + 31) * (s.core c).mcfg.stride +
      ((((s.core c).went (we.toNat + e)).k0 + mxKe ((s.core c).went (we.toNat + e)).wf ((s.core c).went (we.toNat + e)).sp) * mxBits (s.core c).mcfg.af
        + 7) / 8 ≤ storeBytes ∧
    ((s.core c).mcfg.as = true → (gpr s c rc).toNat + (32 * nb.toNat + 31) * (s.core c).mcfg.sstride +
      (((s.core c).went (we.toNat + e)).k0 + mxKe ((s.core c).went (we.toNat + e)).wf ((s.core c).went (we.toNat + e)).sp - 1) / 32 < storeBytes)

/-- Every entry of the run was loaded under the format, scales and sparsity of the configuration. -/
abbrev entriesMatch (s : State) (c : Nat) (ne we : BitVec 2) : Prop :=
  ∀ e, e < ne.toNat + 1 → ((s.core c).went (we.toNat + e)).wf = (s.core c).mcfg.wf ∧ ((s.core c).went (we.toNat + e)).ws = (s.core c).mcfg.ws ∧
    ((s.core c).went (we.toNat + e)).sp = (s.core c).mcfg.sp

/-- The type a run gives its accumulators: WP96 in invariant mode, INT32 for INT8 weights, FP32 otherwise (R106, R124). -/
def runType (s : State) (c : Nat) : AccTy :=
  if s.f .MXE_STATUS_INV_ACTIVE c = 1 then .wp96 else if (s.core c).mcfg.wf = 5 then .int32 else .fp32

/-- Each accumulator of the run has the run's type, or the run clears it. -/
abbrev typesMatch (s : State) (c : Nat) (clr : Bool) (nb ab : BitVec 2) : Prop :=
  clr = true ∨ ∀ b, b < nb.toNat + 1 → ((s.core c).acc (s.inv c) (ab.toNat + b)).ty = runType s c

/-- In invariant mode the anchor is one the device admits. -/
abbrev runAnchor (s : State) (c : Nat) : Prop := s.f .MXE_STATUS_INV_ACTIVE c = 1 → -126 ≤ (s.core c).mcfg.anchor ∧ (s.core c).mcfg.anchor ≤ 127

/-- Element (i, n) of accumulator a, as 32 bits. -/
def accWord (s : State) (c a i n : Nat) : BitVec 32 := BitVec.ofNat 32 (Map.get 0 ((s.core c).acc (s.inv c) a).els (32 * i + n))

/-- The sum of the 32 products of an INT8 entry: column n of entry e with the 32 bytes of the store from address a (R106, R108). -/
def int8Dot (s : State) (c e n a : Nat) : Int :=
  ((List.range 32).map (fun k => (byteAt ((s.core c).went e).tile (32 * n + k)).toInt * ((s.core c).store.rd (a + k)).toInt)).sum

/-- MXRUN (R106, R110, R114, R121). It gives each accumulator the run's type and anchor; a row that the mask leaves out keeps its bits, or is
zero with CLR; every accumulator outside the run is as before. With dense INT8 without scales, one entry and CLR, each element is the sum of
its products. An entry of another format raises MXSTATE 1, an accumulator of another type MXSTATE 2. -/
def Obligations.MatrixRun : Prop :=
  ∀ (s : State) (c : CoreId) (msk clr : Bool) (nb ab ne we : BitVec 2) (rc ra : BitVec 5), runFits s c nb ab ne we rc ra →
    (canIssue s c → entriesMatch s c ne we → typesMatch s c clr nb ab → runAnchor s c →
      ∃ t, exec (.mxrun c msk clr nb ab ne we rc ra) s = .next t ∧
        (∀ b, b ≤ nb.toNat → ((t.core c).acc (s.inv c) (ab.toNat + b)).ty = runType s c ∧
          ((t.core c).acc (s.inv c) (ab.toNat + b)).anchor = (s.core c).mcfg.anchor ∧
          ∀ i n, i < 32 → n < 32 → msk = true → ((s.core c).mask (ab.toNat + b)).testBit i = false →
            accWord t c (ab.toNat + b) i n = if clr then 0 else accWord s c (ab.toNat + b) i n) ∧
        (∀ a, a < ab.toNat ∨ ab.toNat + nb.toNat < a → (t.core c).acc (s.inv c) a = (s.core c).acc (s.inv c) a) ∧
        (clr = true → ne = 0 → (s.core c).mcfg.wf = 5 → (s.core c).mcfg.af = 5 → (s.core c).mcfg.ws = false → (s.core c).mcfg.as = false →
          (s.core c).mcfg.sp = false → s.f .MXE_STATUS_INV_ACTIVE c = 0 →
          ∀ b i n, b ≤ nb.toNat → i < 32 → n < 32 → (msk = true → ((s.core c).mask (ab.toNat + b)).testBit i = true) →
            accWord t c (ab.toNat + b) i n = BitVec.ofInt 32 (int8Dot s c we.toNat n
              ((gpr s c ra).toNat + (32 * b + i) * (s.core c).mcfg.stride + ((s.core c).went we.toNat).k0))) ∧
        wentOn s t c ∧ { t with regs := s.regs, cores := s.cores, free := s.free } = s ∧ (∀ m, m ≠ c.val → t.core m = s.core m) ∧
        sameRegs s t (fun fl i => issueTouch c fl i ||
          fldsAt [.MXE_STATUS_ISAT, .MXE_STATUS_NINV, .MXE_RUN_CYC_CYCLES, .MXE_MASK_ROWS_ROWS, .MXE_NIL_ROWS_ROWS] c fl i) ∧
        accumulators (s.core c) (issueCore (s.core c) (t.core c)) = s.core c ∧ sameBytes s t) ∧
    (runs s c → ¬entriesMatch s c ne we → ∃ t, exec (.mxrun c msk clr nb ab ne we rc ra) s = .next t ∧ faulted s t c 0x11 2 1 0) ∧
    (runs s c → entriesMatch s c ne we → ¬typesMatch s c clr nb ab →
      ∃ t, exec (.mxrun c msk clr nb ab ne we rc ra) s = .next t ∧ faulted s t c 0x11 2 2 0)

/-- The output formats of MXDRAIN that an accumulator type admits, with the bytes of an element (R117). -/
def drainSizes : AccTy → List (BitVec 4 × Nat)
  | .fp32 => [(0, 4), (1, 2), (2, 2), (3, 1)]
  | .int32 => [(4, 4)]
  | .wp96 => [(0, 4), (1, 2), (2, 2), (3, 1), (5, 12)]

/-- An INT32 accumulator drains its bits, an FP32 one its values converted to the output format (R117, R138). -/
def drainCode (ty : AccTy) (f : BitVec 4) (bits : Nat) : Nat :=
  if ty = .int32 then bits
  else (match f.toNat with
    | 0 => fp32
    | 1 => ⟨8, 7, 127, .ieee⟩
    | 2 => ⟨5, 10, 15, .ieee⟩
    | _ => ⟨4, 3, 7, .e4m3⟩ : Fmt).rne (fp32.decode bits)

/-- MXDRAIN (R117): the rows of the accumulator at base + i * stride, the accumulator kept or cleared, the event owed; and DRAIN_EVENT, which
delivers the oldest one from the cycle on in which it is due. -/
def Obligations.MatrixDrain : Prop :=
  (∀ (s : State) (c : CoreId) (ev : BitVec 4) (even clr : Bool) (f : BitVec 4) (a : BitVec 2) (rs rd : BitVec 5) (size : Nat), canIssue s c →
    let acc := (s.core c).acc (s.inv c) a.toNat
    let base := (gpr s c rd).toNat
    let stride := (gpr s c rs).toNat
    let al := if f = 5 then 4 else size
    (f, size) ∈ drainSizes acc.ty → base % al = 0 → stride % al = 0 → 32 * size ≤ stride → base + 31 * stride + 32 * size ≤ s.progStart c →
    ∃ t, exec (.mxdrain c ev even clr f a rs rd) s = .next t ∧
      (acc.ty ≠ .wp96 → ∀ i n k, i < 32 → n < 32 → k < size → (t.core c).store.rd (base + i * stride + n * size + k) =
        BitVec.ofNat 8 (drainCode acc.ty f (Map.get 0 acc.els (32 * i + n)) / 256 ^ k)) ∧
      (∀ x, (∀ i, i < 32 → x < storeAddr c (base + i * stride) ∨ storeAddr c (base + i * stride) + 32 * size ≤ x) → t.rdByte x = s.rdByte x) ∧
      (∀ e, (t.core c).acc (s.inv c) e = if e = a.toNat ∧ clr = true then Accum.zero acc.ty acc.anchor else (s.core c).acc (s.inv c) e) ∧
      (t.core c).drains.map (·.ev) = (s.core c).drains.map (·.ev) ++ (if even then [ev.toNat] else []) ∧ wentOn s t c ∧
      coreFrame s t c noFld (fun k l => { storage k (accumulators k l) with drains := k.drains, conflict := k.conflict })) ∧
  (∀ (s : State) (c : CoreId) (ev : BitVec 4) (even clr : Bool) (a : BitVec 2) (rs rd : BitVec 5), runs s c →
    (gpr s c rd).toNat % 4 = 0 → (gpr s c rs).toNat % 4 = 0 → (gpr s c rd).toNat + 31 * (gpr s c rs).toNat + 128 ≤ s.progStart c →
    ((s.core c).acc (s.inv c) a.toNat).ty ≠ .int32 →
    ∃ t, exec (.mxdrain c ev even clr 4 a rs rd) s = .next t ∧ faulted s t c 0x11 2 3 0) ∧
  ∀ (s : State) (c : CoreId),
    ((s.core c).drains = [] → exec (.drainEvent c) s = .next s) ∧
    ∀ d r, (s.core c).drains = d :: r →
      ((s.core c).elapsed < d.due → exec (.drainEvent c) s = .next s) ∧
      (d.due ≤ (s.core c).elapsed → ∃ t, exec (.drainEvent c) s = .next t ∧ evDelivered s t c (some d.ev) ∧ t.core c = { s.core c with drains := r } ∧ onlyCore s t c ∧
        sameRegs s t (fun fl j => pmcTouch c fl j || fldsAt [.CORE_STATUS_EVT_SAT] c fl j || (touches [.CORE_EVT_COUNT] fl && j == 16 * c + d.ev)))


/-! ### The vector slot -/

/-- An issue of core c that uses up free values besides what `coreFrame` says. -/
def coreFrameFree (s t : State) (c : Nat) (touch : Fld → Nat → Bool) (put : Core → Core → Core) : Prop :=
  coreFrame s { t with free := s.free } c touch put

/-- The three-operand and the two-operand forms of the vector unit. -/
abbrev Vec3 := CoreId → BitVec 3 → BitVec 3 → BitVec 5 → BitVec 5 → BitVec 5 → Instr
abbrev Vec2 := CoreId → BitVec 3 → BitVec 3 → BitVec 5 → BitVec 5 → Instr

/-- Opcodes and instructions of the vector unit that take a type, va, vb and vd. -/
def vec3Forms : List (Nat × Vec3) :=
  [(0x01, .vadd), (0x02, .vsub), (0x03, .vmul), (0x04, .vfma), (0x05, .vmin), (0x06, .vmax), (0x09, .vdiv), (0x10, .vcmpeq), (0x11, .vcmplt),
   (0x12, .vcmple), (0x13, .vsel), (0x18, .vand), (0x19, .vor), (0x1A, .vxor), (0x1B, .vshl), (0x1C, .vshr), (0x1D, .vsra)]

/-- Opcodes and instructions of the vector unit that take a type, a source and vd. -/
def vec2Forms : List (Nat × Vec2) :=
  [(0x00, .vmov), (0x07, .vabs), (0x08, .vneg), (0x0A, .vsqrt), (0x0B, .vbcast), (0x28, .vrsum), (0x29, .vrmax), (0x40, .vexp), (0x41, .vlog),
   (0x42, .vrsqrt), (0x43, .vtanh), (0x44, .verf), (0x45, .vsigm)]

/-- Whether a type is reserved for an opcode: 4 to 7 everywhere, all but INT32 for the shifts, INT32 for the transcendental functions (05). -/
def typeReserved (op : Nat) (ty : BitVec 3) : Bool :=
  decide (4 ≤ ty.toNat) || (decide (0x1B ≤ op ∧ op ≤ 0x1D) && ty != 3) || (decide (0x40 ≤ op) && ty == 3)

/-- A reserved type raises ILLEGAL in slot 1 with the slot's bits (R73, R97). -/
def Obligations.VectorReserved : Prop :=
  (∀ p ∈ vec3Forms, ∀ (s : State) (c : CoreId) (ty pg : BitVec 3) (vb va vd : BitVec 5), runs s c → typeReserved p.1 ty = true →
    ∃ t, exec (p.2 c ty pg vb va vd) s = .next t ∧ faulted s t c 0x01 1
      (p.1 + vd.toNat * 2 ^ 8 + va.toNat * 2 ^ 13 + vb.toNat * 2 ^ 18 + pg.toNat * 2 ^ 23 + ty.toNat * 2 ^ 26) 0) ∧
  ∀ p ∈ vec2Forms, ∀ (s : State) (c : CoreId) (ty pg : BitVec 3) (va vd : BitVec 5), runs s c → typeReserved p.1 ty = true →
    ∃ t, exec (p.2 c ty pg va vd) s = .next t ∧ faulted s t c 0x01 1
      (p.1 + vd.toNat * 2 ^ 8 + va.toNat * 2 ^ 13 + pg.toNat * 2 ^ 23 + ty.toNat * 2 ^ 26) 0

/-- The INT32 operations of va and vb (and the old vd), modulo 2^32 (05, R146). -/
def intForms : List (Vec3 × (BitVec 32 → BitVec 32 → BitVec 32 → BitVec 32)) :=
  [(.vadd, fun a b _ => a + b), (.vsub, fun a b _ => a - b), (.vmul, fun a b _ => a * b), (.vfma, fun a b d => a * b + d),
   (.vmin, fun a b _ => if a.slt b then a else b), (.vmax, fun a b _ => if a.slt b then b else a), (.vand, fun a b _ => a &&& b),
   (.vor, fun a b _ => a ||| b), (.vxor, fun a b _ => a ^^^ b), (.vshl, fun a b _ => a <<< (b.toNat % 32)),
   (.vshr, fun a b _ => a >>> (b.toNat % 32)), (.vsra, fun a b _ => a.sshiftRight (b.toNat % 32))]

/-- The INT32 operations of va. -/
def intForms1 : List (Vec2 × (BitVec 32 → BitVec 32)) := [(.vmov, id), (.vabs, fun a => if a.slt 0 then -a else a), (.vneg, fun a => -a)]

/-- Lanes of vd that pg holds take the results, the others keep their value; nothing else of the core changes (R145). -/
def wroteLanes (s t : State) (c : Nat) (pg : BitVec 3) (vd : BitVec 5) (f : Nat → BitVec 32) : Prop :=
  (∀ i, i < 256 → lane t c vd i = if holds s c pg i then f i else lane s c vd i) ∧ (∀ r, r ≠ vd → t.vr c r = s.vr c r)

/-- q is a / b rounded to the nearest integer, ties to even, and r is the root of a so rounded (R133). -/
def roundsQuot (a b q : Int) : Prop := 2 * (a - q * b).natAbs ≤ b.natAbs ∧ (2 * (a - q * b).natAbs = b.natAbs → q % 2 = 0)
def roundsRoot (a r : Int) : Prop := 0 ≤ r ∧ 4 * a < (2 * r + 1) ^ 2 ∧ (0 < r → (2 * r - 1) ^ 2 < 4 * a)

/-- The INT32 forms: VADD, VSUB, VMUL, VFMA, VMIN, VMAX, VAND, VOR, VXOR, VSHL, VSHR, VSRA, VMOV,
VABS, VNEG; VDIV and VSQRT round the exact quotient and root to the nearest integer, ties to even
(R133, R146), but for a quotient by 0 and a root of a negative number, which the spec does not state
(log entry 23). -/
def Obligations.VectorInteger : Prop :=
  (∀ p ∈ intForms, ∀ (s : State) (c : CoreId) (pg : BitVec 3) (vb va vd : BitVec 5), canIssue s c →
    ∃ t, exec (p.1 c 3 pg vb va vd) s = .next t ∧ wroteLanes s t c pg vd (fun i => p.2 (lane s c va i) (lane s c vb i) (lane s c vd i)) ∧
      wentOn s t c ∧ coreFrame s t c noFld vectors ∧ sameBytes s t) ∧
  (∀ p ∈ intForms1, ∀ (s : State) (c : CoreId) (pg : BitVec 3) (va vd : BitVec 5), canIssue s c →
    ∃ t, exec (p.1 c 3 pg va vd) s = .next t ∧ wroteLanes s t c pg vd (fun i => p.2 (lane s c va i)) ∧ wentOn s t c ∧
      coreFrame s t c noFld vectors ∧ sameBytes s t) ∧
  ∀ (s : State) (c : CoreId) (pg : BitVec 3) (vb va vd : BitVec 5), canIssue s c →
    (∃ t, exec (.vdiv c 3 pg vb va vd) s = .next t ∧ wroteLanes s t c pg vd (lane t c vd) ∧
      (∀ i, i < 256 → holds s c pg i = true → lane s c vb i ≠ 0 →
        ∃ q, lane t c vd i = BitVec.ofInt 32 q ∧ roundsQuot (lane s c va i).toInt (lane s c vb i).toInt q) ∧
      wentOn s t c ∧ coreFrame s t c noFld vectors ∧ sameBytes s t) ∧
    ∃ t, exec (.vsqrt c 3 pg va vd) s = .next t ∧ wroteLanes s t c pg vd (lane t c vd) ∧
      (∀ i, i < 256 → holds s c pg i = true → 0 ≤ (lane s c va i).toInt →
        ∃ r, lane t c vd i = BitVec.ofInt 32 r ∧ roundsRoot (lane s c va i).toInt r) ∧
      wentOn s t c ∧ coreFrame s t c noFld vectors ∧ sameBytes s t

/-- The formats of the types FP32, BF16 and FP16, their elements in a register, and the lane that governs an element (R64). -/
def fmtOf (ty : BitVec 3) : Fmt := if ty = 0 then fp32 else if ty = 1 then ⟨8, 7, 127, .ieee⟩ else ⟨5, 10, 15, .ieee⟩
def width (ty : BitVec 3) : Nat := if ty = 0 then 32 else 16
def count (ty : BitVec 3) : Nat := if ty = 0 then 256 else 512
def governs (s : State) (c : Nat) (ty pg : BitVec 3) (i : Nat) : Bool := holds s c pg (if ty = 0 then i else i / 2)
def el (s : State) (c : Nat) (ty : BitVec 3) (r : BitVec 5) (i : Nat) : Nat := elem (s.vr c r) (width ty) i

/-- The value of element i. -/
def val (s : State) (c : Nat) (ty : BitVec 3) (r : BitVec 5) (i : Nat) : FVal := (fmtOf ty).decode (el s c ty r i)

/-- The floating-point operations of two values and of three: each an exact result, rounded once (R146). -/
def floatForms : List (Vec3 × (FVal → FVal → FVal)) :=
  [(.vadd, fun a b => a.add b), (.vsub, fun a b => a.add b.neg), (.vmul, fun a b => a.mul b), (.vdiv, fun a b => a.div b),
   (.vmin, fun a b => if a = .nan ∨ b = .nan then .nan else a.min2 b), (.vmax, fun a b => if a = .nan ∨ b = .nan then .nan else a.max2 b)]

/-- The floating-point operations of one value. -/
def floatForms1 : List (Vec2 × (Fmt → FVal → Nat)) :=
  [(.vabs, fun f a => f.rne a.abs), (.vneg, fun f a => f.rne a.neg), (.vsqrt, fun f a => f.rne a.sqrt), (.vexp, vExp), (.vlog, vLog),
   (.vrsqrt, vRsqrt), (.vtanh, vTanh), (.verf, vErf), (.vsigm, vSigm)]

/-- The governed elements of vd take the codes of f, and VEC_STATUS.INVALID is set when one of them is NaN by no NaN operand (R146). -/
def wroteElems (s t : State) (c : Nat) (ty pg : BitVec 3) (vd : BitVec 5) (f : Nat → Nat) (made : Nat → Prop) : Prop :=
  (∀ i, i < count ty → el t c ty vd i = if governs s c ty pg i then f i else el s c ty vd i) ∧ (∀ r, r ≠ vd → t.vr c r = s.vr c r) ∧
  ((∃ i, i < count ty ∧ governs s c ty pg i = true ∧ made i) → t.f .VEC_STATUS_INVALID c = 1) ∧
  ((∀ i, i < count ty → governs s c ty pg i = true → ¬made i) → t.f .VEC_STATUS_INVALID c = s.f .VEC_STATUS_INVALID c) ∧
  wentOn s t c ∧ coreFrame s t c (fldsAt [.VEC_STATUS_INVALID] c) vectors ∧ sameBytes s t

/-- The forms on FP32, BF16 and FP16: VADD, VSUB, VMUL, VDIV, VMIN, VMAX, VFMA, VABS, VNEG, VSQRT, the transcendental functions, and the bit
operations VAND, VOR, VXOR and VMOV. -/
def Obligations.VectorFloat : Prop :=
  ∀ (s : State) (c : CoreId) (ty pg : BitVec 3) (vb va vd : BitVec 5), canIssue s c → ty.toNat < 3 →
    (∀ p ∈ floatForms, ∃ t, exec (p.1 c ty pg vb va vd) s = .next t ∧
      wroteElems s t c ty pg vd (fun i => (fmtOf ty).rne (p.2 (val s c ty va i) (val s c ty vb i)))
        (fun i => p.2 (val s c ty va i) (val s c ty vb i) = .nan ∧ val s c ty va i ≠ .nan ∧ val s c ty vb i ≠ .nan)) ∧
    (∃ t, exec (.vfma c ty pg vb va vd) s = .next t ∧
      wroteElems s t c ty pg vd (fun i => (fmtOf ty).rne (((val s c ty va i).mul (val s c ty vb i)).add (val s c ty vd i)))
        (fun i => ((val s c ty va i).mul (val s c ty vb i)).add (val s c ty vd i) = .nan ∧ val s c ty va i ≠ .nan ∧ val s c ty vb i ≠ .nan ∧
          val s c ty vd i ≠ .nan)) ∧
    (∀ p ∈ floatForms1, ∃ t, exec (p.1 c ty pg va vd) s = .next t ∧
      wroteElems s t c ty pg vd (fun i => p.2 (fmtOf ty) (val s c ty va i))
        (fun i => (fmtOf ty).decode (p.2 (fmtOf ty) (val s c ty va i)) = .nan ∧ val s c ty va i ≠ .nan)) ∧
    (∃ t, exec (.vmov c ty pg va vd) s = .next t ∧ wroteElems s t c ty pg vd (el s c ty va) (fun _ => False)) ∧
    ∀ p ∈ [((.vand : Vec3), Nat.land), (.vor, Nat.lor), (.vxor, Nat.xor)], ∃ t, exec (p.1 c ty pg vb va vd) s = .next t ∧
      wroteElems s t c ty pg vd (fun i => p.2 (el s c ty va i) (el s c ty vb i)) (fun _ => False)

/-- The transcendental functions and the root at their special values, on FP32 codes (R152): NaN, the infinities, the zeros and one. -/
def Obligations.TranscendentalValues : Prop :=
  (∀ p ∈ floatForms1, ∀ ty : BitVec 3, ty.toNat < 3 → p.2 (fmtOf ty) .nan = (fmtOf ty).nanCode) ∧
  (floatForms1.map (fun p => p.2 fp32 (.inf false)) =
    [0x7F800000, 0xFF800000, 0x7F800000, 0x7F800000, 0x7F800000, 0, 0x3F800000, 0x3F800000, 0x3F800000]) ∧
  (floatForms1.map (fun p => p.2 fp32 (.inf true)) =
    [0x7F800000, 0x7F800000, 0x7FC00000, 0, 0x7FC00000, 0x7FC00000, 0xBF800000, 0xBF800000, 0]) ∧
  (∀ e : Int, floatForms1.map (fun p => p.2 fp32 (.fin false 0 e)) = [0, 0x80000000, 0, 0x3F800000, 0xFF800000, 0x7F800000, 0, 0, 0x3F000000]) ∧
  (∀ e : Int, floatForms1.map (fun p => p.2 fp32 (.fin true 0 e)) =
    [0, 0, 0x80000000, 0x3F800000, 0xFF800000, 0xFF800000, 0x80000000, 0x80000000, 0x3F000000]) ∧
  ∀ m (e : Int), m ≠ 0 → vLog fp32 (.fin true m e) = 0x7FC00000 ∧ vRsqrt fp32 (.fin true m e) = 0x7FC00000

/-- The comparisons: of INT32 lanes, and of floating-point values, unordered when one is NaN (R131). -/
def compareForms : List (Nat × Vec3 × (BitVec 32 → BitVec 32 → Bool) × (FVal → FVal → Bool)) :=
  [(0x10, .vcmpeq, fun a b => a == b, fun a b => !a.isNan && !b.isNan && !a.lt b && !b.lt a),
   (0x11, .vcmplt, fun a b => a.slt b, fun a b => a.lt b),
   (0x12, .vcmple, fun a b => !b.slt a, fun a b => !a.isNan && !b.isNan && !b.lt a)]

/-- Lanes of predicate pd take these bits, a write of p0 being discarded (R63); no other predicate changes. -/
def wrotePred (s t : State) (c : Nat) (pd : BitVec 3) (f : Nat → Bool) : Prop :=
  (∀ i, i < 256 → pd ≠ 0 → holds t c pd i = f i) ∧ (∀ p, p ≠ pd ∨ p = 0 → t.pr c p = s.pr c p)

/-- The predicate operations with their opcodes; PNOT has no vb. -/
def predForms : List ((CoreId → BitVec 3 → BitVec 5 → BitVec 5 → BitVec 5 → Instr) × (Bool → Bool → Bool)) :=
  [(.pand, and), (.por, or), (.pxor, xor), (fun c pg _ va vd => .pnot c pg va vd, fun a _ => !a)]

/-- VCMPEQ, VCMPLT, VCMPLE on INT32 and FP32 lanes, and on 16-bit elements where both elements of a lane agree (the rest is not stated, log entry
24); PAND, POR, PXOR, PNOT; VSEL and VBCAST; and a field above p7 raises ILLEGAL. -/
def Obligations.VectorPredicates : Prop :=
  (∀ p ∈ compareForms, ∀ (s : State) (c : CoreId) (ty pg : BitVec 3) (vb va vd : BitVec 5), canIssue s c → ty.toNat < 4 → vd.toNat < 8 →
    ∃ t, exec (p.2.1 c ty pg vb va vd) s = .next t ∧
      (ty = 3 → wrotePred s t c (vd.setWidth 3) (fun i => holds s c pg i && p.2.2.1 (lane s c va i) (lane s c vb i))) ∧
      (ty = 0 → wrotePred s t c (vd.setWidth 3) (fun i => holds s c pg i && p.2.2.2 (val s c ty va i) (val s c ty vb i))) ∧
      (∀ b i, ty = 1 ∨ ty = 2 → vd ≠ 0 → i < 256 → p.2.2.2 (val s c ty va (2 * i)) (val s c ty vb (2 * i)) = b →
        p.2.2.2 (val s c ty va (2 * i + 1)) (val s c ty vb (2 * i + 1)) = b → holds t c (vd.setWidth 3) i = (holds s c pg i && b)) ∧
      (∀ q, q ≠ vd.setWidth 3 ∨ q = 0 → t.pr c q = s.pr c q) ∧ wentOn s t c ∧ coreFrameFree s t c noFld predicates ∧ sameBytes s t) ∧
  (∀ p ∈ compareForms, ∀ (s : State) (c : CoreId) (ty pg : BitVec 3) (vb va vd : BitVec 5), runs s c → 8 ≤ vd.toNat →
    ∃ t, exec (p.2.1 c ty pg vb va vd) s = .next t ∧ faulted s t c 0x01 1
      (p.1 + vd.toNat * 2 ^ 8 + va.toNat * 2 ^ 13 + vb.toNat * 2 ^ 18 + pg.toNat * 2 ^ 23 + ty.toNat * 2 ^ 26) 0) ∧
  (∀ p ∈ predForms, ∀ (s : State) (c : CoreId) (pg pb pa pd : BitVec 3), canIssue s c →
    ∃ t, exec (p.1 c pg (pb.setWidth 5) (pa.setWidth 5) (pd.setWidth 5)) s = .next t ∧
      wrotePred s t c pd (fun i => if holds s c pg i then p.2 (holds s c pa i) (holds s c pb i) else holds s c pd i) ∧ wentOn s t c ∧
      coreFrame s t c noFld predicates ∧ sameBytes s t) ∧
  (∀ p ∈ predForms, ∀ (s : State) (c : CoreId) (pg : BitVec 3) (vb va vd : BitVec 5), runs s c → 8 ≤ va.toNat ∨ 8 ≤ vd.toNat →
    ∃ t detail, exec (p.1 c pg vb va vd) s = .next t ∧ faulted s t c 0x01 1 detail 0) ∧
  (∀ (s : State) (c : CoreId) (pg : BitVec 3) (vb va vd : BitVec 5), canIssue s c →
    ∃ t, exec (.vsel c 3 pg vb va vd) s = .next t ∧
      (∀ i, i < 256 → lane t c vd i = if holds s c pg i then lane s c va i else lane s c vb i) ∧ (∀ r, r ≠ vd → t.vr c r = s.vr c r) ∧
      wentOn s t c ∧ coreFrame s t c noFld vectors ∧ sameBytes s t) ∧
  (∀ (s : State) (c : CoreId) (ty pg : BitVec 3) (vb va vd : BitVec 5), canIssue s c → ty.toNat < 3 →
    ∃ t, exec (.vsel c ty pg vb va vd) s = .next t ∧
      (∀ i, i < count ty → el t c ty vd i = if governs s c ty pg i then el s c ty va i else el s c ty vb i) ∧ wentOn s t c ∧
      coreFrame s t c noFld vectors) ∧
  ∀ (s : State) (c : CoreId) (ty pg : BitVec 3) (ra vd : BitVec 5), canIssue s c → ty.toNat < 4 →
    ∃ t, exec (.vbcast c ty pg ra vd) s = .next t ∧
      (ty = 3 → wroteLanes s t c pg vd (fun _ => (gpr s c ra).setWidth 32)) ∧
      (ty ≠ 3 → ∀ i, i < count ty → el t c ty vd i = if governs s c ty pg i then (gpr s c ra).toNat % 2 ^ width ty else el s c ty vd i) ∧
      wentOn s t c ∧ coreFrame s t c noFld vectors ∧ sameBytes s t

/-- The format codes of VCVT, VWID and VMXSC (05, "Element formats"). -/
def fmtCode : Nat → Elem
  | 0 => .flt ⟨4, 3, 7, .e4m3⟩
  | 1 => .flt ⟨5, 2, 15, .ieee⟩
  | 2 => .flt ⟨2, 3, 1, .none⟩
  | 3 => .flt ⟨3, 2, 3, .none⟩
  | 4 => .flt ⟨2, 1, 1, .none⟩
  | 5 => .int 8
  | 6 => .flt ⟨8, 7, 127, .ieee⟩
  | 7 => .flt ⟨5, 10, 15, .ieee⟩
  | 8 => .flt fp32
  | _ => .int 32

/-- The format of a type. -/
def typeElem (ty : BitVec 3) : Elem := if ty = 3 then .int 32 else .flt (fmtOf ty)

/-- The value of element i of a register, of any type. -/
def anyVal (s : State) (c : Nat) (ty : BitVec 3) (r : BitVec 5) (i : Nat) : FVal :=
  (typeElem ty).decode (elem (s.vr c r) (typeElem ty).bits i)

/-- A sticky flag is set when one of the conversions raised it, else as it was (R135). -/
def stuck (s t : State) (c : Nat) (fl : Fld) (raised : Nat → Bool) : Prop :=
  t.f fl c = if (List.range 256).any raised then 1 else s.f fl c

/-- VCVT without scales, to nearest even or toward zero (R147, R133-R135), VWID without scales (R149), VMXSC (R148), and VRSUM and VRMAX on
INT32 (R150). -/
def Obligations.VectorConvert : Prop :=
  ∀ (s : State) (c : CoreId) (va vd : BitVec 5), canIssue s c →
    (∀ (ty : BitVec 3) (code rm : Nat) (vb : BitVec 5), ty.toNat < 4 → code < 10 → fmtCode code ≠ typeElem ty → rm = 0 ∨ rm = 2 →
      let q := fun i => (fmtCode code).conv (if rm = 2 then .rz else .rne) (anyVal s c ty va i)
      ∃ t, exec (.vcvt c (BitVec.ofNat 11 (code + 32 * rm)) ty 0 vb va vd) s = .next t ∧
        (∀ i, i < 256 → elem (t.vr c vd) (fmtCode code).bits i = (q i).code) ∧ (∀ r, r ≠ vd → t.vr c r = s.vr c r) ∧
        stuck s t c .VEC_STATUS_SAT (fun i => (q i).sat) ∧ stuck s t c .VEC_STATUS_NAN_LOST (fun i => (q i).nanLost) ∧ wentOn s t c ∧
        coreFrame s t c (fldsAt [.VEC_STATUS_SAT, .VEC_STATUS_NAN_LOST] c) vectors ∧ sameBytes s t) ∧
    (∀ (ty : BitVec 3) (code : Nat) (vb : BitVec 5), ty.toNat < 4 → code < 10 →
      let q := fun i => (typeElem ty).conv .rne ((fmtCode code).decode (elem (s.vr c va) (fmtCode code).bits i))
      ∃ t, exec (.vwid c (BitVec.ofNat 11 code) ty 0 vb va vd) s = .next t ∧
        (∀ i, i < 256 → elem (t.vr c vd) (typeElem ty).bits i = (q i).code) ∧ (∀ r, r ≠ vd → t.vr c r = s.vr c r) ∧
        stuck s t c .VEC_STATUS_SAT (fun i => (q i).sat) ∧ stuck s t c .VEC_STATUS_NAN_LOST (fun i => (q i).nanLost) ∧ wentOn s t c ∧
        coreFrame s t c (fldsAt [.VEC_STATUS_SAT, .VEC_STATUS_NAN_LOST] c) vectors ∧ sameBytes s t) ∧
    (∀ (ty : BitVec 3) (code emax : Nat) (vb : BitVec 5), ty.toNat < 4 → (code, emax) ∈ [(0, 8), (1, 15), (2, 2), (3, 4), (4, 2)] →
      ∃ t, exec (.vmxsc c (BitVec.ofNat 11 code) ty 0 vb va vd) s = .next t ∧
        (∀ b, 32 * b < 8192 / (typeElem ty).bits →
          ((∃ i, i < 32 ∧ ((anyVal s c ty va (32 * b + i)).isNan = true ∨ ∃ n, anyVal s c ty va (32 * b + i) = .inf n)) →
            elem (t.vr c vd) 8 b = 0xFF) ∧
          ((∀ i, i < 32 → (anyVal s c ty va (32 * b + i)).isZero = true) → elem (t.vr c vd) 8 b = 127)) ∧
        (∀ r, r ≠ vd → t.vr c r = s.vr c r) ∧ wentOn s t c ∧ coreFrame s t c noFld vectors ∧ sameBytes s t) ∧
    (∃ t, exec (.vrsum c 3 0 va vd) s = .next t ∧ lane t c vd 0 = ((List.range 256).map (lane s c va)).foldl (· + ·) 0 ∧
      (∀ i, 0 < i → i < 256 → lane t c vd i = 0) ∧ (∀ r, r ≠ vd → t.vr c r = s.vr c r) ∧ wentOn s t c ∧ coreFrame s t c noFld vectors ∧
      sameBytes s t) ∧
    ∃ t, exec (.vrmax c 3 0 va vd) s = .next t ∧ (∃ i, i < 256 ∧ lane t c vd 0 = lane s c va i) ∧
      (∀ i, i < 256 → (lane t c vd 0).slt (lane s c va i) = false) ∧ (∀ i, 0 < i → i < 256 → lane t c vd i = 0) ∧
      (∀ r, r ≠ vd → t.vr c r = s.vr c r) ∧ wentOn s t c ∧ coreFrame s t c noFld vectors ∧ sameBytes s t

/-- The address of a vector load or store: s[rs] + 64 * imm (05). -/
def vecAddr (s : State) (c : Nat) (imm : BitVec 14) (rs : BitVec 5) : Nat := (gpr s c rs + imm.signExtend 64 * 64).toNat

/-- The address of lane i of a gather or scatter: s[rs] + 4 * v[vi][i]. -/
def laneAddr (s : State) (c : Nat) (vi rs : BitVec 5) (i : Nat) : Nat := (gpr s c rs + (lane s c vi i).zeroExtend 64 * 4).toNat

/-- The 32-bit word at a local address of core c. -/
def storeWord (s : State) (c a : Nat) : BitVec 32 :=
  BitVec.ofNat 32 (((List.range 4).map (fun k => ((s.core c).store.rd (a + k)).toNat * 256 ^ k)).sum)

/-- VLD, VST, VGATH, VSCAT (R151, R74, R145): the governed lanes move, the others stay; the highest lane's word stands where several name one;
the checks. RAND (R155): word X of the generator at s[ri] + i. -/
def Obligations.VectorMemory : Prop :=
  (∀ (s : State) (c : CoreId) (imm : BitVec 14) (pg : BitVec 3) (rs vd : BitVec 5),
    let a := vecAddr s c imm rs
    (canIssue s c → a % 64 = 0 → a + 1024 ≤ storeBytes → (s.core c).eccHit a 1024 = none →
      ∃ t, exec (.vld c imm pg rs vd) s = .next t ∧ wroteLanes s t c pg vd (fun i => storeWord s c (a + 4 * i)) ∧ wentOn s t c ∧
        coreFrame s t c noFld vectors ∧ sameBytes s t) ∧
    (canIssue s c → a % 64 = 0 → a + 1024 ≤ s.progStart c →
      ∃ t, exec (.vst c imm pg rs vd) s = .next t ∧
        (∀ i, i < 256 → holds s c pg i = true → storeWord t c (a + 4 * i) = lane s c vd i) ∧
        (∀ x, (∀ i, i < 256 → holds s c pg i = true → x < storeAddr c (a + 4 * i) ∨ storeAddr c (a + 4 * i) + 4 ≤ x) → t.rdByte x = s.rdByte x) ∧
        wentOn s t c ∧ coreFrame s t c noFld storage) ∧
    (runs s c → storeBytes < a + 1024 → ∃ t, exec (.vld c imm pg rs vd) s = .next t ∧ faulted s t c 0x03 1 0 a) ∧
    (runs s c → s.progStart c < a + 1024 → ∃ t, exec (.vst c imm pg rs vd) s = .next t ∧ faulted s t c 0x03 1 0 a) ∧
    (runs s c → a % 64 ≠ 0 → a + 1024 ≤ s.progStart c → ∀ i ∈ [Instr.vld c imm pg rs vd, .vst c imm pg rs vd],
      ∃ t, exec i s = .next t ∧ faulted s t c 0x04 1 0 a)) ∧
  (∀ (s : State) (c : CoreId) (pg : BitVec 3) (vi rs vd : BitVec 5),
    let a := laneAddr s c vi rs
    (canIssue s c → (gpr s c rs).toNat % 4 = 0 → (s.core c).eccBad = [] → (∀ i, i < 256 → holds s c pg i = true → a i + 4 ≤ storeBytes) →
      ∃ t, exec (.vgath c pg vi rs vd) s = .next t ∧ wroteLanes s t c pg vd (fun i => storeWord s c (a i)) ∧ wentOn s t c ∧
        coreFrame s t c noFld vectors ∧ sameBytes s t) ∧
    (canIssue s c → (gpr s c rs).toNat % 4 = 0 → (∀ i, i < 256 → holds s c pg i = true → a i + 4 ≤ s.progStart c) →
      ∃ t, exec (.vscat c pg vi rs vd) s = .next t ∧
        (∀ i, i < 256 → holds s c pg i = true → (∀ j, i < j → j < 256 → holds s c pg j = true → a j ≠ a i) → storeWord t c (a i) = lane s c vd i) ∧
        (∀ x, (∀ i, i < 256 → holds s c pg i = true → x < storeAddr c (a i) ∨ storeAddr c (a i) + 4 ≤ x) → t.rdByte x = s.rdByte x) ∧
        wentOn s t c ∧ coreFrame s t c noFld storage) ∧
    (runs s c → (gpr s c rs).toNat % 4 ≠ 0 → (∀ i, i < 256 → holds s c pg i = true → a i + 4 ≤ s.progStart c) →
      ∀ i ∈ [Instr.vgath c pg vi rs vd, .vscat c pg vi rs vd], ∃ t, exec i s = .next t ∧ faulted s t c 0x04 1 0 (gpr s c rs).toNat)) ∧
  ∀ (s : State) (c : CoreId) (w : Fin 4) (pg : BitVec 3) (rt ri vd : BitVec 5), canIssue s c →
    ∃ t, exec (.rand c (BitVec.ofNat 11 w) 3 pg rt ri vd) s = .next t ∧
      wroteLanes s t c pg vd (fun i => BitVec.ofNat 32 (sg8 (s.f .VEC_SEED_SEED c) ((gpr s c rt).toNat % 2 ^ 32) (s.f .CORE_STEP_STEP c)
        (gpr s c ri + BitVec.ofNat 64 i).toNat / 2 ^ (32 * w.val))) ∧
      wentOn s t c ∧ coreFrame s t c noFld vectors ∧ sameBytes s t

/-! ### Tallies and the performance counter -/

/-- The digests of n granules of the store from a, under the keys from k on, of tensor x (R318). -/
def foldSum (s : State) (c a k x n : Nat) : Nat :=
  ((List.range n).map (fun g => tl128 ((List.range 32).map (fun j => leAt ((s.core c).store.rdBytes (a + 512 * g) 512) (16 * j) 16) ++
    [(k + g) % 2 ^ 64 + 2 ^ 64 * x]))).sum

/-- The runs of TALLY. -/
def tallyRuns (k l : Core) : Core := { l with tallies := k.tallies }

/-- TALLY begins a run that reads one granule a cycle from its issue on; the granules of the cycles before `cycle` are folded in order, unless the tallies
are off (R318, R319, R323). TEMIT emits with every fold of the core's earlier TALLYs (R321-R323). PMCRD (R326). -/
def Obligations.Tallies : Prop :=
  (∀ (s : State) (c : CoreId) (rk rt rn rs : BitVec 5),
    let a := (gpr s c rs).toNat
    let n := (gpr s c rn).toNat
    let x := (gpr s c rt).toNat % 2 ^ 16
    (canIssue s c → a % 512 = 0 → 0 < n → n ≤ 4096 → a + 512 * n ≤ storeBytes → (s.core c).eccHit a (512 * n) = none →
      ∃ t, exec (.tally c rk rt rn rs) s = .next t ∧
        (t.core c).tallies = (s.core c).tallies ++ [⟨(t.core c).issued, a, n, x, (gpr s c rk).toNat⟩] ∧
        wentOn s t c ∧ coreFrame s t c noFld tallyRuns ∧ sameBytes s t) ∧
    (runs s c → a % 512 = 0 → a + 512 * n ≤ storeBytes → n = 0 ∨ 4096 < n →
      ∃ t, exec (.tally c rk rt rn rs) s = .next t ∧ faulted s t c 0x05 1 (n % 2 ^ 32) 0)) ∧
  (∀ (s : State) (c cycle : Nat) (r : TallyRun), (s.core c).tallies = [r] →
    let t := s.tallyTo c cycle
    let k := min r.left (cycle - r.due)
    (s.f .TAL_CTRL_EN = 0 → t.ldg = s.ldg ∧ t.f .TAL_CNT_FOLD_COUNT = s.f .TAL_CNT_FOLD_COUNT) ∧
    (s.f .TAL_CTRL_EN = 1 → 0 < k →
      t.tally r.tensor = ⟨((s.tally r.tensor).sum + foldSum s c r.addr r.index r.tensor k) % 2 ^ 128, min ((s.tally r.tensor).folds + k) (2 ^ 32 - 1),
        (s.tally r.tensor).kinds ||| 1⟩ ∧
      (∀ y, y ≠ r.tensor → t.tally y = s.tally y) ∧
      t.f .TAL_CNT_FOLD_COUNT = min (s.f .TAL_CNT_FOLD_COUNT + k) (2 ^ Fld.TAL_CNT_FOLD_COUNT.w - 1)) ∧
    (t.core c).tallies = (if r.left ≤ k then [] else [⟨r.due + k, r.addr + 512 * k, r.left - k, r.tensor, r.index + k⟩]) ∧
    { t with regs := s.regs, cores := s.cores, ldg := { t.ldg with tallies := s.ldg.tallies } } = s ∧
    (∀ m, m ≠ c → t.core m = s.core m) ∧ tallyRuns (s.core c) (t.core c) = s.core c ∧
    sameRegs s t (fun fl i => pmcTouch c fl i || flds [.TAL_CNT_FOLD_COUNT] fl i) ∧ sameBytes s t) ∧
  (∀ (s : State) (c : CoreId) (rt : BitVec 5), canIssue s c →
    let x := (gpr s c rt).toNat % 2 ^ 16
    let head := s.f .TAL_SHEET_HEAD_HEAD
    let at_ := s.f .TAL_SHEET_BASE_BASE * 65536 + 64 * head
    ∃ t, exec (.temit c rt) s = .next t ∧ wentOn s t c ∧
      let v := s.tallyTo c (t.core c).issued
      (s.f .TAL_CTRL_EN = 0 → coreFrame s t c noFld tallyRuns ∧ sameBytes s t) ∧
      (s.f .TAL_CTRL_EN = 1 → t.tally x = ⟨0, 0, 0⟩ ∧ (∀ y, y ≠ x → t.tally y = v.tally y) ∧
        (s.ldg.sheetFull = true → t.f .TAL_CNT_LOST_COUNT = min (s.f .TAL_CNT_LOST_COUNT + 1) (2 ^ Fld.TAL_CNT_LOST_COUNT.w - 1) ∧
          t.f .TAL_STATUS_LOST = 1 ∧ t.ldg.tlost = true ∧ t.f .TAL_SHEET_HEAD_HEAD = head ∧ sameBytes s t) ∧
        (s.ldg.sheetFull = false → s.f .TAL_SHEET_CFG_HOST = 0 → at_ + 64 ≤ hbmBytes →
          t.f .TAL_SHEET_HEAD_HEAD = (head + 1) % 2 ^ s.f .TAL_SHEET_CFG_LOG2 ∧
          t.rdBytes at_ 16 = leBytes 8 (s.f .CORE_STEP_STEP c) ++ leBytes 8 (s.core c).lastWait ∧ t.rdBytes (at_ + 16) 16 = leBytes 16 (v.tally x).sum ∧
          t.rdBytes (at_ + 32) 2 = leBytes 2 x ∧ t.rdBytes (at_ + 40) 4 = leBytes 4 (v.tally x).folds ∧ sameBytesBut s t at_ 64)) ∧
      sameRegs s t (fun fl i => issueTouch c fl i ||
        flds [.TAL_CNT_FOLD_COUNT, .TAL_CNT_LOST_COUNT, .TAL_STATUS_LOST, .TAL_SHEET_HEAD_HEAD, .TAL_CNT_EMIT_COUNT, .TAL_STATUS_NEAR_FULL] fl i) ∧
      (s.f .TAL_CTRL_EN = 0 ∨ s.ldg.sheetFull = true ∨ s.f .TAL_SHEET_CFG_HOST = 1 ∨ at_ + 64 ≤ hbmBytes →
        (∀ m, m ≠ c.val → t.core m = s.core m) ∧ tallyRuns (s.core c) (issueCore (s.core c) (t.core c)) = s.core c)) ∧
  ∀ (s : State) (c : CoreId) (sel : BitVec 4) (rd : BitVec 5),
    (canIssue s c → sel.toNat ≤ 8 →
      let v := if sel = 8 then s.f .PMC_CYCLES_CYCLES c else s.f .PMC_CNT_COUNT (8 * c.val + sel.toNat)
      ∃ t, exec (.pmcrd c sel rd) s = .next t ∧
        (∀ r, gpr t c r = if r = rd ∧ r ≠ 0 then (if s.f .PMC_USER_EN_EN c = 1 then BitVec.ofNat 64 v else 0) else gpr s c r) ∧
        t.f .PMC_DENIED_COUNT c =
          (if s.f .PMC_USER_EN_EN c = 1 then s.f .PMC_DENIED_COUNT c else min (s.f .PMC_DENIED_COUNT c + 1) (2 ^ Fld.PMC_DENIED_COUNT.w - 1)) ∧
        wentOn s t c ∧ coreFrame s t c (fldsAt [.PMC_DENIED_COUNT] c) scalars ∧ sameBytes s t) ∧
    (runs s c → 8 < sel.toNat → ∃ t, exec (.pmcrd c sel rd) s = .next t ∧ faulted s t c 0x01 1 (0xC2 + rd.toNat * 2 ^ 8 + sel.toNat * 2 ^ 13) 0)

/-! ### Streams and HBM -/

/-- The stream instructions. -/
def streamForms : List ((CoreId → Bool → BitVec 4 → BitVec 5 → BitVec 5 → BitVec 5 → BitVec 5 → Bool → Instr) × Bool) := [(.sld, true), (.sst, false)]

/-- The first free stream slot of core c. -/
def freeStream (s : State) (c : Nat) : Option Nat := firstBelow 8 (fun j => !(s.core c).streams.any (fun y => y.slot == j))

/-- The checks of a stream's local side: within the store (below the program region for a load), aligned, whole granules under PS (R176). -/
abbrev localFits (s : State) (c : Nat) (load : Bool) (rn rl : BitVec 5) (ps : Bool) : Prop :=
  (gpr s c rl).toNat + (gpr s c rn).toNat % 2 ^ 32 * ((gpr s c rn).toNat / 2 ^ 32 % 2 ^ 16 + 1) ≤ (if load then s.progStart c else storeBytes) ∧
  (gpr s c rl).toNat % 64 = 0 ∧ (ps = true → load = true ∧ (gpr s c rl).toNat % 512 = 0 ∧ (gpr s c rn).toNat % 512 = 0)

/-- The checks of its far side that no address decides: sizes and stride in units of 64, reserved bits zero (log entry 34). -/
abbrev farAligned (s : State) (c : Nat) (rt rn rr : BitVec 5) : Prop :=
  (gpr s c rr).toNat % 64 = 0 ∧ (gpr s c rn).toNat % 2 ^ 32 % 64 = 0 ∧ (gpr s c rn).toNat % 2 ^ 32 ≠ 0 ∧ (gpr s c rt).toInt % 64 = 0 ∧
  (gpr s c rr).toNat < 2 ^ 46 ∧ (gpr s c rn).toNat < 2 ^ 48

/-- SLD and SST (R176, R177): a stream takes a free slot with its operands; with eight running the packet waits with kind 4; a far row outside
HBM and the window raises ADDR 1, a set reserved bit ADDR 2. -/
def Obligations.StreamIssue : Prop :=
  ∀ p ∈ streamForms, ∀ (s : State) (c : CoreId) (even : Bool) (ev : BitVec 4) (rt rn rr rl : BitVec 5) (ps : Bool),
    let far := (gpr s c rr).toNat
    let x := streamOf s c p.2 even ev rt rn rr rl ps
    localFits s c p.2 rn rl ps →
    (∀ j, canIssue s c → farAligned s c rt rn rr → farOk x = true → (s.core c).streams.length < 8 → freeStream s c = some j →
      ∃ t, exec (p.1 c even ev rt rn rr rl ps) s = .next t ∧
        (∃ y ∈ (t.core c).streams, y.slot = j ∧ y.load = p.2 ∧ y.local_ = (gpr s c rl).toNat ∧ y.far = far % 2 ^ 44 ∧
          y.rowBytes = (gpr s c rn).toNat % 2 ^ 32 ∧ y.rows = (gpr s c rn).toNat / 2 ^ 32 + 1 ∧ y.stride = (gpr s c rt).toInt ∧ y.ps = ps ∧
          y.ev = (if even then some ev.toNat else none)) ∧
        (far / 2 ^ 44 = s.f .CHIP_ADDR_POSITION → (∀ y ∈ (s.core c).streams, y.side = .own) →
          (t.core c).streams = (s.core c).streams ++ [{ x with slot := j }] ∧ coreFrame s t c noFld (fun k l => { l with streams := k.streams })) ∧
        wentOn s t c ∧ (∀ r, gpr t c r = gpr s c r) ∧ sameBytes s t) ∧
    (runs s c → farAligned s c rt rn rr → farOk x = true → 8 ≤ (s.core c).streams.length →
      ∃ t, exec (p.1 c even ev rt rn rr rl ps) s = .next t ∧ waits s t c 4 (p.1 c even ev rt rn rr rl ps)) ∧
    (runs s c → farAligned s c rt rn rr → farOk x = false → ∃ t, exec (p.1 c even ev rt rn rr rl ps) s = .next t ∧ faulted s t c 0x12 2 1 far) ∧
    (runs s c → far % 64 = 0 → (gpr s c rn).toNat % 2 ^ 32 % 64 = 0 → (gpr s c rn).toNat % 2 ^ 32 ≠ 0 → (gpr s c rt).toInt % 64 = 0 → 2 ^ 46 ≤ far →
      ∃ t, exec (p.1 c even ev rt rn rr rl ps) s = .next t ∧ faulted s t c 0x12 2 2 far)

/-- STREAM_COMPLETE (R178, R181), PCIE_READ_COMPLETION (R181) and FILL_PORT_ECC (R168): a stream of which every byte has moved leaves with its
event, and is counted when bytes stayed unwritten; a read's data lands and is counted as moved, a failed read's is not; an error that the fill port
finds faults the core with SLOT 3. -/
def Obligations.StreamEvents : Prop :=
  (∀ (s : State) (c : CoreId),
    ((s.core c).streams = [] → exec (.streamComplete c) s = .next s) ∧
    ∀ x r, (s.core c).streams = x :: r → x.side ≠ .own ∨ x.unitsIn 12 = [] →
      (x.whole = false → exec (.streamComplete c) s = .next s) ∧
      (x.whole = true → ∃ t, exec (.streamComplete c) s = .next t ∧ t.core c = { s.core c with streams := r } ∧ evDelivered s t c x.ev ∧
        t.f .PRT_CNT_FLUSHSTR_COUNT c =
          (if x.miss then min (s.f .PRT_CNT_FLUSHSTR_COUNT c + 1) (2 ^ Fld.PRT_CNT_FLUSHSTR_COUNT.w - 1) else s.f .PRT_CNT_FLUSHSTR_COUNT c) ∧
        onlyCore s t c ∧ sameBytes s t)) ∧
  (∀ (s : State) (c : CoreId) (data : List Byte) (err : Bool),
    let ws := (s.core c).streams.find? (fun x => x.side == .own && x.load && x.hostPiece.isSome)
    (ws = none → exec (.pcieReadCompletion c data err) s = .next s) ∧
    ∀ x o n, ws = some x → x.hostPiece = some (o, n) → (s.core c).streams = [x] → x.ps = false →
      ∃ t y, exec (.pcieReadCompletion c data err) s = .next t ∧ (t.core c).streams = [y] ∧ Map.get 0 y.done 12 = Map.get 0 x.done 12 + n ∧
        (err = true ∨ s.hostOn = false → y.miss = true ∧ sameBytes s t) ∧
        (err = false → s.hostOn = true → y.miss = x.miss ∧ (∀ k, k < n → (t.core c).store.rd (x.local_ + o + k) = byteAt data k) ∧
          sameBytesBut s t (storeAddr c (x.local_ + o)) n) ∧
        onlyCore s t c ∧ sameRegs s t (pmcTouch c)) ∧
  ∀ (s : State) (c : CoreId) (addr : BitVec 23),
    (s.cst c ≠ stRun → s.cst c ≠ stWait → (s.core c).fillErr = none →
      ∃ t, exec (.fillPortEcc c addr) s = .next t ∧ (t.core c).fillErr = some addr.toNat ∧ Map.get false (t.core c).eccBad (addr.toNat / 8) = true ∧
        { t with cores := s.cores } = s ∧ onlyCore s t c ∧ sameBytes s t) ∧
    (s.cst c = stRun ∨ s.cst c = stWait → (s.core c).fillErr = none →
      ∃ t, exec (.fillPortEcc c addr) s = .next t ∧ faulted s t c 0x0F 3 (addr.toNat / 512 % 32) addr.toNat ∧ (t.core c).fillErr = none ∧
        Map.get false (t.core c).eccBad (addr.toNat / 8) = true)

/-- The HBM plan gives an owner no slot, and nothing of this kind waits for one (R171). -/
def unslotted (s : State) (o : SlotOwner) (act : HbmAct) : Prop := (∀ k, k < 12 → s.slotted o k = false) ∧ s.asked act = false

/-- HBM_SLOT (R171-R173): refresh and margin slots, and the slots of a stack whose region is stopped (R45) or that is in self-refresh (R385, R388), move nothing; the added refresh of a hot stack takes its owner's slot, counted and noted once
a bell; a core's slot moves the next units of its stream, at most 768; another owner's slot serves its requests in issue order, up to 49,152 bytes, and what is left waits
for its next slot. HBM_TEMP_CHECK (R173, R174): a valid pair is taken, an invalid one marked; the
hot state by the pair in force. -/
def Obligations.HbmSlots : Prop :=
  (∀ (s : State) (st : StackId) (i : Fin 50),
    let k := st.val
    let margin := s.f .HBM_STATUS_MARGIN_ACT k
    let owner := Map.get SlotOwner.none (s.stack k).owners (50 * (s.bel.phase / (1000 * 2 ^ 32)) + i.val)
    let refresh := s.rgnStopped (20 + k / 3) = true ∨ (s.stack k).asleep = true ∨ i.val = 4 * k ∨ i.val = 4 * k + 1 ∨ (4 * k + 2 ≤ i.val ∧ i.val < 4 * k + 2 + margin)
    let extra := s.f .HBM_STATUS_HOT k = 1 ∧ (i.val = 4 * k + 2 ∨ i.val = 4 * k + 3)
    (refresh → exec (.hbmSlot st i) s = .next s) ∧
    (¬refresh → extra → owner ≠ .none →
      ∃ t, exec (.hbmSlot st i) s = .next t ∧ t.f .HBM_LATE_SLOTS k = min (s.f .HBM_LATE_SLOTS k + 1) (2 ^ Fld.HBM_LATE_SLOTS.w - 1) ∧
        (t.stack k).noted = true ∧ (s.f .LDG_CTRL_MODE = ldgOff → (∀ m, t.core m = s.core m) ∧ sameBytes s t) ∧
        ((s.stack k).noted = true → sameRegs s t (fldsAt [.HBM_LATE_SLOTS] k) ∧ onlyRegs s t)) ∧
    (¬refresh → ¬extra → owner = .none → exec (.hbmSlot st i) s = .next s) ∧
    (¬refresh → ¬extra → (∀ l, owner ≠ .core l) → owner ≠ .none → s.ownerStopped owner = false →
      let first := (s.stack k).queue.find? (fun q => q.owner == owner)
      (first = none → exec (.hbmSlot st i) s = .next s) ∧
      (∀ q, first = some q → 49152 < q.left → ∃ t, exec (.hbmSlot st i) s = .next t ∧
        (t.stack k).queue = (s.stack k).queue.replace q { q with left := q.left - 49152 } ∧ { t with hbms := s.hbms } = s) ∧
      ∀ q a bs, (s.stack k).queue = [q] → q.owner = owner → q.left ≤ 49152 → q.act = .write a bs → a + bs.length ≤ hbmBytes →
        ∃ t, exec (.hbmSlot st i) s = .next t ∧ (t.stack k).queue = [] ∧ (∀ j, j < bs.length → t.rdByte (a + j) = byteAt bs j) ∧
          sameBytesBut s t a bs.length ∧ { t with hbm := s.hbm, hbms := s.hbms } = s) ∧
    ∀ l (c : CoreId) x, ¬refresh → ¬extra → owner = .core l → s.physical l = some c.val → s.rgnStopped (c.val / 8) = false → (s.core c).streams = [x] → x.side = .own → x.load = true →
      x.ps = false → (∀ j, j < 13 → (s.stack j).bad = []) →
      let us := ((x.unitsIn k).drop (Map.get 0 x.done k / 64)).take 768
      ∃ t y, exec (.hbmSlot st i) s = .next t ∧ (t.core c).streams = [y] ∧ Map.get 0 y.done k = Map.get 0 x.done k + 64 * us.length ∧
        (∀ u ∈ us, ∀ b, b < 64 → (t.core c).store.rd (x.local_ + 64 * u + b) = s.hbm.rd (x.farAt (64 * u) + b)) ∧
        (∀ a, (∀ u ∈ us, a < storeAddr c (x.local_ + 64 * u) ∨ storeAddr c (x.local_ + 64 * u) + 64 ≤ a) → t.rdByte a = s.rdByte a) ∧
        onlyCore s t c ∧ sameRegs s t (pmcTouch c)) ∧
  ∀ (s : State) (st : StackId) (deg : BitVec 8),
    let k := st.val
    let good := s.f .HBM_TEMP_HOT_OFF k < s.f .HBM_TEMP_HOT_ON k
    let on := if good then s.f .HBM_TEMP_HOT_ON k else (s.stack k).hotOn
    let off := if good then s.f .HBM_TEMP_HOT_OFF k else (s.stack k).hotOff
    let hot := s.f .HBM_CTRL_HOT_FORCE k = 1 ∨ on ≤ deg.toNat ∨ (s.f .HBM_STATUS_HOT k = 1 ∧ off < deg.toNat)
    ∃ t, exec (.hbmTempCheck st deg) s = .next t ∧ t.f .HBM_TEMP_DEG k = deg.toNat ∧ (t.stack k).hotOn = on ∧ (t.stack k).hotOff = off ∧
      t.f .HBM_STATUS_CFG_MISMATCH k = (if good then s.f .HBM_STATUS_CFG_MISMATCH k else 1) ∧
      (hot → t.f .HBM_STATUS_HOT k = 1 ∧ t.f .HBM_HOT_US_US k = min (s.f .HBM_HOT_US_US k + 1) (2 ^ Fld.HBM_HOT_US_US.w - 1)) ∧
      (¬hot → t.f .HBM_STATUS_HOT k = 0 ∧ t.f .HBM_HOT_US_US k = s.f .HBM_HOT_US_US k) ∧
      sameRegs s t (fldsAt [.HBM_TEMP_DEG, .HBM_STATUS_CFG_MISMATCH, .HBM_STATUS_HOT, .HBM_HOT_US_US] k) ∧
      { t with regs := s.regs, hbms := s.hbms } = s

/-! ### Register space -/

/-- The registers that a write makes act, or of which a read does more than show the fields. -/
def actingRegs : List Reg :=
  [.CLK_FCHG_CTRL, .BEL_CTRL, .BEL_FT_INC, .BEL_WALL_INC, .BEL_FT_STEP, .BEL_FT_SETBELL, .BEL_COMMIT, .BEL_PARENT, .BEL_WALL_SET_NS, .BEL_TRIG_CTRL,
   .CORE_CTRL, .LNK_CTRL, .LNK_ENC, .STL_COMMIT, .OPN_COMMIT, .FLW_CTRL, .WGT_SWAP, .TAL_SHEET_TAIL, .CHIP_ADDR, .CHIP_HALT, .CHIP_GROUP_VIEW,
   .LDG_CTRL, .LDG_RING_TAIL, .LDG_PAY_TAIL, .CTL_MASTER, .CTL_WDOG, .CTL_PWR, .MBX_DATA, .MBX_LOCK, .HST_CTRL, .HST_CQ_TAIL, .HST_CPL_HEAD,
   .HST_MSIX_CTRL, .RST_CTRL, .RST_CLUSTER, .RST_CORE, .MBX_PEEK, .FLW_STATE, .PRT_STATUS, .MXE_CFG, .BEL_ROUND_POS, .BEL_WALL_S, .BEL_NOW,
   .BEL_WALL_NS, .BEL_PHASE, .LDG_WALL_NS]

/-- A register at its first byte, that a write only stores into: its fields have no lock, no set bit and no range of their own. -/
abbrev storesOnly (s : State) (off : Nat) (r : Reg) (i : Nat) : Prop :=
  s.target off = some ⟨r, i, 0⟩ ∧ r ∉ actingRegs ∧ r ≠ .CLK_REFMON_CFG ∧
    ∀ fl ∈ r.flds, gOnly fl i = false ∧ fl.acc ≠ .LK ∧ fl.acc ≠ .W1S ∧ fl ∉ actingFlds

/-- What a field holds after x is written to it (R8, R10, R12, R14): a reserved encoding is not stored. -/
def stored (s : State) (fl : Fld) (i x : Nat) : Nat :=
  match fl.acc with
  | .RW | .ST => if s.legal fl x then x else s.f fl i
  | .WO => x
  | .W1C => s.f fl i - (s.f fl i &&& x)
  | _ => s.f fl i

/-- A field of register r, in element i. -/
def fieldOf (r : Reg) (i : Nat) (fl : Fld) (j : Nat) : Bool := touches r.flds fl && j == i

/-- No clock region is stopped for a frequency change. -/
def allRun (s : State) : Prop := ∀ r, s.rgnStopped r = false

/-- The access i waits for the restart of a stopped region, behind those that wait already (R45). -/
def queued (s : State) (i : Instr) : State := { s with clk := { s.clk with waiting := s.clk.waiting ++ [i] } }

/-- A write of a register by its fields (R8-R15), in one access or two halves; the high half alone leaves the low fields; an unlisted offset
ignores a write (R13), the host's where its block is open; the host's write goes through the filter of BAR0, which counts what it discards
(R341). While the region of the target is stopped, the access waits (R45). -/
def Obligations.RegisterWrites : Prop :=
  (∀ (s : State) (m : Master) (off : BitVec 32) (v : BitVec 64) (r : Reg) (i : Nat), storesOnly s off.toNat r i →
    s.mayWrite m.toNat off.toNat = true → allRun s →
    (∃ t, exec (.registerWrite m off v) s = .next t ∧ (∀ fl ∈ r.flds, t.f fl i = stored s fl i (v.toNat / 2 ^ fl.lo % 2 ^ fl.w)) ∧
      sameRegs s t (fieldOf r i) ∧ onlyRegs s t) ∧
    (m = 0 → exec (.hostBar0Write off v) s = exec (.registerWrite m off v) s) ∧
    (r.width = 64 → s.target (off + 4).toNat = some ⟨r, i, 4⟩ → ∀ lo hi : BitVec 32,
      (∃ t u, exec (.lowHalfWrite m off lo) s = .next t ∧ { t with halves := s.halves } = s ∧ exec (.highHalfWrite m (off + 4) hi) t = .next u ∧
        (∀ fl ∈ r.flds, u.f fl i = stored s fl i ((hi ++ lo).toNat / 2 ^ fl.lo % 2 ^ fl.w)) ∧ sameRegs s u (fieldOf r i)) ∧
      (Map.get none s.halves.held m.toNat = none → ∃ u, exec (.highHalfWrite m (off + 4) hi) s = .next u ∧
        (∀ fl ∈ r.flds, fl.lo + fl.w ≤ 32 → u.f fl i = s.f fl i) ∧
        (∀ fl ∈ r.flds, 32 ≤ fl.lo → u.f fl i = stored s fl i (hi.toNat * 2 ^ 32 / 2 ^ fl.lo % 2 ^ fl.w)) ∧ sameRegs s u (fieldOf r i)))) ∧
  (∀ (s : State) (m : Master) (off : BitVec 32), s.target off.toNat = none → m ≠ 0 ∨ s.hostOpen off.toNat = true → reachesRegs m.toNat = true →
    allRun s → (∀ v, exec (.registerWrite m off v) s = .next s) ∧
    ∃ t, exec (.rcRead m off) s = .next t ∧ Map.get 0 t.rdata m.toNat = 0 ∧ { t with rdata := s.rdata } = s) ∧
  (∀ (s : State) (m : Master) (off : BitVec 32) (v : BitVec 64) (h : BitVec 32), s.stalls m.toNat off.toNat = true →
    exec (.registerWrite m off v) s = .next (queued s (.registerWrite m off v)) ∧
    exec (.lowHalfWrite m off h) s = .next (queued s (.lowHalfWrite m off h)) ∧ exec (.highHalfWrite m off h) s = .next (queued s (.highHalfWrite m off h)) ∧
    (m = 0 → exec (.hostBar0Write off v) s = .next (queued s (.hostBar0Write off v)))) ∧
  ∀ (s : State) (off : BitVec 32) (v : BitVec 64), s.mayWrite 0 off.toNat = false → allRun s →
    ∃ t, exec (.hostBar0Write off v) s = .next t ∧ t.f .HST_STATUS_BAR0_DENIED = 1 ∧
      t.f .HST_CNT_DENIED_COUNT = min (s.f .HST_CNT_DENIED_COUNT + 1) (2 ^ Fld.HST_CNT_DENIED_COUNT.w - 1) ∧ t.f .HST_DENIED_ADDR_VALID = 1 ∧
      (s.f .HST_DENIED_ADDR_VALID = 0 → t.f .HST_DENIED_ADDR_OFF = off.toNat % 2 ^ Fld.HST_DENIED_ADDR_OFF.w) ∧
      (s.f .HST_DENIED_ADDR_VALID = 1 → t.f .HST_DENIED_ADDR_OFF = s.f .HST_DENIED_ADDR_OFF) ∧
      sameRegs s t (flds [.HST_STATUS_BAR0_DENIED, .HST_CNT_DENIED_COUNT, .HST_DENIED_ADDR_OFF, .HST_DENIED_ADDR_VALID]) ∧ onlyRegs s t

/-- What a read shows of a register: its fields in their places, those that only take writes as zero (R8), a value that the outside sets as the
free value of the read (log entry 18). -/
def shown (s : State) (r : Reg) (i : Nat) : Nat :=
  (r.flds.map (fun fl => if fl.acc = .WO then 0 else (measured fl (Config.freeNat s.free)).getD (s.f fl i) * 2 ^ fl.lo)).sum

/-- A read shows the fields and clears those of type RC (R9); the low half of a 64-bit register captures the high half, which the next read of
that half returns; the high half without a capture clears the high bits of the RC fields and leaves the low ones (R15). While the region of the
target is stopped, the read waits (R45). -/
def Obligations.RegisterReads : Prop :=
  (∀ (s : State) (m : Master) (off : BitVec 32), s.stalls m.toNat off.toNat = true →
    exec (.rcRead m off) s = .next (queued s (.rcRead m off)) ∧ exec (.lowHalfRead m off) s = .next (queued s (.lowHalfRead m off)) ∧
    exec (.highHalfRead m off) s = .next (queued s (.highHalfRead m off))) ∧
  ∀ (s : State) (m : Master) (off : BitVec 32) (r : Reg) (i : Nat), storesOnly s off.toNat r i → reachesRegs m.toNat = true → allRun s →
    (∃ t, exec (.rcRead m off) s = .next t ∧ Map.get 0 t.rdata m.toNat = shown s r i ∧ (∀ fl ∈ r.flds, fl.acc = .RC → t.f fl i = 0) ∧
      sameRegs s t (fun fl j => fieldOf r i fl j && fl.acc == .RC) ∧ { t with regs := s.regs, rdata := s.rdata, free := s.free } = s) ∧
    (r.width = 64 → s.target (off + 4).toNat = some ⟨r, i, 4⟩ →
      (Map.get none s.halves.cap m.toNat = none → ∃ u, exec (.highHalfRead m (off + 4)) s = .next u ∧ Map.get 0 u.rdata m.toNat = shown s r i / 2 ^ 32 ∧
        (∀ fl ∈ r.flds, fl.acc = .RC → u.f fl i = s.f fl i % 2 ^ (32 - fl.lo)) ∧ sameRegs s u (fun fl j => fieldOf r i fl j && fl.acc == .RC)) ∧
      ∃ t u, exec (.lowHalfRead m off) s = .next t ∧ Map.get 0 t.rdata m.toNat = shown s r i % 2 ^ 32 ∧
        exec (.highHalfRead m (off + 4)) t = .next u ∧ Map.get 0 u.rdata m.toNat = shown s r i / 2 ^ 32 ∧
        sameRegs s u (fun fl j => fieldOf r i fl j && fl.acc == .RC) ∧ { u with regs := s.regs, rdata := s.rdata, halves := s.halves } = s)

/-! ### Clocks -/

/-- DROOP_EVENT and FLL_WINDOW (R36, R41), ALIGN_TIMEOUT (R39), REFERENCE_LOSS (R41, R48) and REFERENCE_PRESENT (R42). -/
def Obligations.ClockRegions : Prop :=
  (∀ (s : State) (r : Fin 24) (stretch drift : Nat),
    ∃ t, exec (.droopEvent r stretch drift) s = .next t ∧
      t.f .CLK_RGN_DROOP_EVENTS r = (if 20 < stretch then min (s.f .CLK_RGN_DROOP_EVENTS r + 1) (2 ^ Fld.CLK_RGN_DROOP_EVENTS.w - 1)
        else s.f .CLK_RGN_DROOP_EVENTS r) ∧
      t.f .CLK_RGN_DROOP_MAX_STRETCH r = min (max (s.f .CLK_RGN_DROOP_MAX_STRETCH r) stretch) (2 ^ Fld.CLK_RGN_DROOP_MAX_STRETCH.w - 1) ∧
      t.f .CLK_RGN_DROOP_XDRIFT r = min (s.f .CLK_RGN_DROOP_XDRIFT r + drift) (2 ^ Fld.CLK_RGN_DROOP_XDRIFT.w - 1) ∧
      sameRegs s t (fldsAt [.CLK_RGN_DROOP_EVENTS, .CLK_RGN_DROOP_MAX_STRETCH, .CLK_RGN_DROOP_XDRIFT] r) ∧ onlyRegs s t) ∧
  (∀ (s : State) (r : Fin 24) (cycles lost : Nat),
    let mhz := if s.f .CLK_RGN_STATUS_HALVED r = 1 then s.f .CLK_TARGET_MHZ / 2 else s.f .CLK_TARGET_MHZ
    ∃ t, exec (.fllWindow r cycles lost) s = .next t ∧ t.f .CLK_RGN_STATUS_AVG_MHZ r = min cycles 4095 ∧
      t.f .CLK_RGN_STATUS_DROOP_OVER r = (if 9 * mhz < 1000 * lost then 1 else s.f .CLK_RGN_STATUS_DROOP_OVER r) ∧
      Map.get 0 t.clk.owed r = Map.get 0 s.clk.owed r + lost - (cycles - mhz) ∧
      (s.f .CLK_RGN_STATUS_HOLDING r = 1 → Map.get (mhz * 1000) t.clk.base r = Map.get (mhz * 1000) s.clk.base r) ∧
      sameRegs s t (fldsAt [.CLK_RGN_STATUS_AVG_MHZ, .CLK_RGN_STATUS_DROOP_OVER] r) ∧ { t with regs := s.regs, clk := s.clk } = s) ∧
  (∀ (s : State) (r : Fin 24),
    ∃ t, exec (.alignTimeout r) s = .next t ∧ t.f .CLK_XALIGN_FAIL = 1 ∧ t.f .CLK_XALIGN_ALIGNED = 0 ∧
      t.f .CLK_XALIGN_FAIL_REGION = (if s.f .CLK_XALIGN_FAIL = 1 then min (s.f .CLK_XALIGN_FAIL_REGION) r.val else r.val) ∧
      t.clk.misaligned.testBit r = true ∧ t.rst.failed = (s.rst.failed || decide (s.rst.boot < 4)) ∧
      sameRegs s t (flds [.CLK_XALIGN_FAIL, .CLK_XALIGN_FAIL_REGION, .CLK_XALIGN_ALIGNED]) ∧
      { t with regs := s.regs, rst := s.rst, clk := { t.clk with misaligned := s.clk.misaligned } } = s) ∧
  (∀ s : State, s.f .BEL_STATUS_REF_HOLDOVER = 1 → exec .referenceLoss s = .next s) ∧
  (∀ s : State, s.f .BEL_STATUS_REF_HOLDOVER = 0 → ∃ t, exec .referenceLoss s = .next t ∧ t.f .CLK_REFLOSS_LOST = 1 ∧ t.f .CLK_REFLOSS_PRESENT = 0 ∧ t.f .BEL_STATUS_REF_HOLDOVER = 1 ∧
    t.f .CLK_REFLOSS_COUNT = min (s.f .CLK_REFLOSS_COUNT + 1) (2 ^ Fld.CLK_REFLOSS_COUNT.w - 1) ∧ (∀ r, r < 24 → t.f .CLK_RGN_STATUS_HOLDING r = 1) ∧
    (∀ c, s.clk.fchg = some c → t.clk.fchg = some (if c.stopped then { c with aborted := true } else c)) ∧
    sameRegs s t (flds [.CLK_REFLOSS_LOST, .CLK_REFLOSS_PRESENT, .BEL_STATUS_REF_HOLDOVER, .CLK_REFLOSS_COUNT, .CLK_RGN_STATUS_HOLDING]) ∧
    { t with regs := s.regs, clk := s.clk } = s) ∧
  ∀ s : State, ∃ t, exec .referencePresent s = .next t ∧ t.f .CLK_REFLOSS_PRESENT = 1 ∧ t.f .BEL_STATUS_REF_HOLDOVER = 0 ∧
    (∀ r, r < 24 → t.f .CLK_RGN_STATUS_HOLDING r = 0) ∧ t.clk.fchg = s.clk.fchg ∧
    sameRegs s t (flds [.CLK_REFLOSS_PRESENT, .BEL_STATUS_REF_HOLDOVER, .CLK_RGN_STATUS_HOLDING]) ∧ { t with regs := s.regs, clk := s.clk } = s

/-- The signed distance of the bell with these low 32 bits from the current one (R60). -/
def ahead (s : State) (b : Nat) : Int := (BitVec.ofNat 32 b - BitVec.ofNat 32 s.now).toInt

/-- The status of a refused ARM of a frequency change, 0 when it is accepted (R46, R47, R48). -/
def armRefusal (s : State) : Nat :=
  let mask := s.f .CLK_FCHG_MASK_REGIONS
  let mhz := s.f .CLK_FCHG_TARGET_MHZ
  let d := ahead s (s.f .CLK_FCHG_BELL_BELL)
  if d < 16 then 1
  else if ∃ i, i < (3 + max (s.f .BEL_ACTIVE_US) 1 - 1) / max (s.f .BEL_ACTIVE_US) 1 ∧ s.isQuiet (((s.now : Int) + d).toNat + i) = false then 2
  else if mhz < 800 ∨ s.fuse.mhz < mhz then 3
  else if s.clk.fchg ≠ none then 4
  else if s.f .CLK_REFLOSS_LOST = 1 then 5
  else if 2 ^ 16 ≤ mask ∧ mask ≠ 2 ^ 24 - 1 then 6
  else if mask = 0 then 0xA
  else if mask ≠ 2 ^ 24 - 1 ∧ mhz ≠ s.f .CLK_TARGET_MHZ then 6
  else 0

/-- FCHG_ARM (R46): the change is armed, or refused with its status and nothing else. FREQ_CHANGE_RESTART (R47, R48): the stopped regions run again, the
common target moves unless the change was aborted or was a partial one, and a region that met a thermal emergency restarts halved, their FLLs locked
and their crossings aligned but for those that failed (R39, R44). -/
def Obligations.FrequencyChange : Prop :=
  (∀ (s : State) (m : Master),
    (armRefusal s ≠ 0 → ∃ t, exec (.fchgArm m) s = .next t ∧ t.f .CLK_FCHG_CTRL_STATUS = armRefusal s ∧
      sameRegs s t (flds [.CLK_FCHG_CTRL_STATUS, .CLK_FCHG_CTRL_ARM]) ∧ onlyRegs s t) ∧
    (armRefusal s = 0 → ∃ t c, exec (.fchgArm m) s = .next t ∧ t.f .CLK_FCHG_CTRL_STATUS = 8 ∧ t.f .CLK_FCHG_CTRL_ARM = 1 ∧ t.clk.fchg = some c ∧
      c.target = s.f .CLK_FCHG_TARGET_MHZ ∧ c.mask = s.f .CLK_FCHG_MASK_REGIONS ∧ (c.whole = true ↔ c.mask = 2 ^ 24 - 1) ∧ (c.bell : Int) = (s.now : Int) + ahead s (s.f .CLK_FCHG_BELL_BELL) ∧
      c.stopped = false ∧ c.aborted = false ∧ sameRegs s t (flds [.CLK_FCHG_CTRL_STATUS, .CLK_FCHG_CTRL_ARM]) ∧
      { t with regs := s.regs, clk := { t.clk with fchg := s.clk.fchg } } = s)) ∧
  (∀ s : State, s.pwr.change = none → (∀ c, s.clk.fchg = some c → c.stopped = false) → exec .freqChangeRestart s = .next s) ∧
  ∀ (s : State) c, s.clk.fchg = some c → c.stopped = true → s.pwr.change = none → s.pwr.descent = false → s.clk.waiting = [] →
    ∃ t, exec .freqChangeRestart s = .next t ∧ t.clk.fchg = none ∧ t.f .CLK_FCHG_CTRL_ARM = 0 ∧
      t.f .CLK_FCHG_CTRL_STATUS = (if c.aborted then 7 else 0xF) ∧
      t.f .CLK_TARGET_MHZ = (if c.whole = true ∧ c.aborted = false then c.target % 2 ^ Fld.CLK_TARGET_MHZ.w else s.f .CLK_TARGET_MHZ) ∧
      t.f .CLK_XALIGN_ALIGNED = (if s.clk.misaligned = 0 then 1 else 0) ∧
      ∀ r, r < 24 →
        t.f .CLK_RGN_STATUS_STOPPED r = (if c.mask.testBit r then 0 else s.f .CLK_RGN_STATUS_STOPPED r) ∧ (c.mask.testBit r → t.f .CLK_RGN_STATUS_LOCKED r = 1) ∧
        t.f .CLK_RGN_STATUS_HALVED r = (if c.mask.testBit r ∧ c.aborted = false then (c.tripped.testBit r).toNat else s.f .CLK_RGN_STATUS_HALVED r)

/-! ### The bell and wall time -/

/-- The length of a bell, in units of 2^-32 ns. -/
def bellUnits (s : State) : Nat := s.f .BEL_ACTIVE_US * 1000 * 2 ^ 32

/-- BELL_PULSE (R49, R67): the next bell starts when the phase reaches the bell length, and every core that is not off has its number. The fabric
time written and joined (R51, R53-R56): BEL_COMMIT_ARM, BEL_FT_INC_WRITE, BEL_FT_SETBELL_WRITE, BEL_FT_STEP_WRITE, JOIN, BEL_PARENT_WRITE,
HOLDOVER_ENTRY. -/
def Obligations.BellUnit : Prop :=
  (∀ s : State, 0 < s.f .BEL_FT_INC_INC → s.bel.phase < bellUnits s →
    ∃ t k, exec .bellPulse s = .next t ∧ t.now = (s.now + 1) % 2 ^ 64 ∧ t.bel.phase + bellUnits s = s.bel.phase + k * s.f .BEL_FT_INC_INC ∧
      t.bel.phase < s.f .BEL_FT_INC_INC ∧
      ∀ c : CoreId, s.enabled c = true → s.f .PWR_CLU_OFF (c / 8) = 0 → (t.core c).bell = (s.now + 1) % 2 ^ 64) ∧
  (∀ (s : State) (bell : BitVec 32),
    let d := ahead s bell.toNat
    ∃ t, exec (.belCommitArm bell) s = .next t ∧ t.f .BEL_COMMIT_BELL = bell.toNat ∧ t.f .BEL_COMMIT_ARM = (if 64 ≤ d then 1 else 0) ∧
      t.f .BEL_COMMIT_STATUS = (if 64 ≤ d then 1 else 2) ∧ t.bel.commit = (if 64 ≤ d then some ((s.now : Int) + d).toNat else none) ∧
      t.bel.decided = none ∧ sameRegs s t (flds [.BEL_COMMIT_BELL, .BEL_COMMIT_ARM, .BEL_COMMIT_STATUS]) ∧
      Map.get 0 t.ctl.armers 0 = 0x10 + s.f .CTL_MASTER_CORE ∧
      { t with regs := s.regs, ctl := { t.ctl with armers := s.ctl.armers }, bel := { t.bel with commit := s.bel.commit, decided := s.bel.decided } } = s) ∧
  (∀ (s : State) (inc : BitVec 40),
    ∃ t, exec (.belFtIncWrite inc) s = .next t ∧ t.f .BEL_FT_INC_INC = min (max inc.toNat 0x0FFF2E48F) 0x1000D1B71 ∧
      t.f .BEL_STATUS_INC_CLAMP = (if 0x0FFF2E48F ≤ inc.toNat ∧ inc.toNat ≤ 0x1000D1B71 then s.f .BEL_STATUS_INC_CLAMP else 1) ∧
      sameRegs s t (flds [.BEL_FT_INC_INC, .BEL_STATUS_INC_CLAMP]) ∧ onlyRegs s t) ∧
  (∀ (s : State) (bell : BitVec 64) (step : BitVec 48), s.f .BEL_STATUS_JOINED = 1 →
    exec (.belFtSetbellWrite bell) s = .next s ∧ exec (.belFtStepWrite step) s = .next s) ∧
  (∀ (s : State) (bell : BitVec 64) (step : BitVec 48), s.f .BEL_STATUS_JOINED = 0 →
    (∃ t, exec (.belFtSetbellWrite bell) s = .next t ∧ t.now = bell.toNat ∧ sameRegs s t (flds [.BEL_NOW_BELL]) ∧ onlyRegs s t) ∧
    (0 < bellUnits s → 0 ≤ ((s.now * bellUnits s + s.bel.phase : Nat) : Int) + step.toInt * 2 ^ 16 →
      ∃ t, exec (.belFtStepWrite step) s = .next t ∧
        ((t.now * bellUnits s + t.bel.phase : Nat) : Int) = ((s.now * bellUnits s + s.bel.phase : Nat) : Int) + step.toInt * 2 ^ 16 ∧
        (0 ≤ (s.bel.phase : Int) + step.toInt * 2 ^ 16 → t.now = s.now) ∧ sameRegs s t (flds [.BEL_NOW_BELL, .BEL_PHASE_NS, .BEL_PHASE_FRAC]) ∧
        { t with regs := s.regs, bel := { t.bel with phase := s.bel.phase } } = s)) ∧
  (∀ s : State, ∃ t, exec .join s = .next t ∧ t.f .BEL_STATUS_JOINED = 1 ∧ sameRegs s t (flds [.BEL_STATUS_JOINED, .BEL_CTRL_JOIN]) ∧ onlyRegs s t) ∧
  (∀ (s : State) (v : BitVec 32),
    ∃ t, exec (.belParentWrite v) s = .next t ∧ t.f .BEL_PARENT_PARENT = v.toNat % 64 ∧ t.f .BEL_PARENT_ALT = v.toNat / 256 % 64 ∧
      t.f .BEL_PARENT_ALT_EN = v.toNat / 2 ^ 15 % 2 ∧ t.f .BEL_STATUS_ALT_ACTIVE = 0 ∧ t.bel.noMark = 0 ∧
      sameRegs s t (flds [.BEL_PARENT_PARENT, .BEL_PARENT_ALT, .BEL_PARENT_ALT_EN, .BEL_STATUS_ALT_ACTIVE, .BEL_STATUS_PARENT_FRESH]) ∧
      { t with regs := s.regs, bel := { t.bel with noMark := s.bel.noMark, freshFor := s.bel.freshFor } } = s) ∧
  ∀ s : State,
    let due := s.f .BEL_CTRL_ROOT = 0 ∧ max (s.f .BEL_HOLD_LIMIT_BELLS) 1 ≤ s.bel.noMark
    (¬due → exec .holdoverEntry s = .next s) ∧
    (due → ∃ t, exec .holdoverEntry s = .next t ∧ t.f .BEL_STATUS_HOLDOVER = 1 ∧
      t.f .BEL_STATUS_ALT_ACTIVE = (if s.f .BEL_PARENT_ALT_EN = 1 then 1 - s.f .BEL_STATUS_ALT_ACTIVE else s.f .BEL_STATUS_ALT_ACTIVE) ∧ t.bel.noMark = 0 ∧
      (s.f .BEL_STATUS_HOLDOVER = 0 → ∃ p, t.topo.toSend = s.topo.toSend ++ [⟨s.f .LNK_PEER_CHIP p, 0x5, s.now, p⟩]) ∧
      (s.f .BEL_STATUS_HOLDOVER = 1 → t.topo = s.topo) ∧ sameRegs s t (flds [.BEL_STATUS_HOLDOVER, .BEL_STATUS_ALT_ACTIVE]))

/-- WALL_SET (R57), PPS_CAPTURE (R58), WALL_NS_READ and PHASE_READ (R59), and TRIG_ARM (R60, R61): a trigger ahead is armed with its bell; one whose bell
has come fires, one whose bell has passed fires and is marked LATE. -/
def Obligations.WallTime : Prop :=
  (∀ (s : State) (ns : BitVec 30),
    (ns.toNat < 1000000000 → ∃ t, exec (.wallSet ns) s = .next t ∧ t.f .BEL_WALL_S_S = s.f .BEL_WALL_SET_S_S ∧ t.f .BEL_WALL_NS_NS = ns.toNat ∧
      t.bel.wallFrac = 0 ∧ sameRegs s t (flds [.BEL_WALL_S_S, .BEL_WALL_NS_NS]) ∧
      { t with regs := s.regs, bel := { t.bel with wallFrac := s.bel.wallFrac } } = s) ∧
    (1000000000 ≤ ns.toNat → ∃ t, exec (.wallSet ns) s = .next t ∧ t.f .BEL_STATUS_WALL_BADSET = 1 ∧
      sameRegs s t (flds [.BEL_STATUS_WALL_BADSET]) ∧ onlyRegs s t)) ∧
  (∀ s : State,
    (s.f .BEL_PPS_CTRL_EN = 0 → exec .ppsCapture s = .next s) ∧
    (s.f .BEL_PPS_CTRL_EN = 1 → ∃ t, exec .ppsCapture s = .next t ∧ t.f .BEL_PPS_CAP_S_S = s.f .BEL_WALL_S_S ∧
      t.f .BEL_PPS_CAP_NS_NS = s.f .BEL_WALL_NS_NS ∧ t.f .BEL_PPS_CAP_FT_TS = s.now % 2 ^ 32 * 2 ^ 32 + s.bel.phase / 2 ^ 16 % 2 ^ 32 ∧
      t.f .BEL_PPS_CTRL_EDGES = min (s.f .BEL_PPS_CTRL_EDGES + 1) (2 ^ Fld.BEL_PPS_CTRL_EDGES.w - 1) ∧
      sameRegs s t (flds [.BEL_PPS_CAP_S_S, .BEL_PPS_CAP_NS_NS, .BEL_PPS_CAP_FT_TS, .BEL_PPS_CTRL_EDGES]) ∧ onlyRegs s t)) ∧
  (∀ (s : State) (m : Master),
    (∃ t, exec (.wallNsRead m) s = .next t ∧ Map.get 0 t.rdata m.toNat = s.f .BEL_WALL_NS_NS ∧ t.bel.wallCap = some (s.f .BEL_WALL_S_S) ∧
      { t with rdata := s.rdata, bel := { t.bel with wallCap := s.bel.wallCap } } = s) ∧
    ∃ t, exec (.phaseRead m) s = .next t ∧ Map.get 0 t.rdata m.toNat = s.f .BEL_PHASE_NS * 2 ^ 16 + s.f .BEL_PHASE_FRAC ∧ t.bel.nowCap = some s.now ∧
      { t with rdata := s.rdata, bel := { t.bel with nowCap := s.bel.nowCap } } = s) ∧
  ∀ (s : State) (i : Fin 8) (v : BitVec 32),
    let d := ahead s (s.f .BEL_TRIG_CMP_BELL i)
    let core := v.toNat / 8 % 128
    let ev := v.toNat / 2 ^ 10 % 16
    let irq := v.getLsbD 2
    let late := if v.getLsbD 1 then 0 else s.f .BEL_TRIG_CTRL_LATE i
    let gets := s.enabled core = true ∧ s.cst core ≠ stFenced
    ∃ t, exec (.trigArm i v) s = .next t ∧ t.f .BEL_TRIG_CTRL_KIND i = irq.toNat ∧ t.f .BEL_TRIG_CTRL_CORE i = core ∧ t.f .BEL_TRIG_CTRL_EVENT i = ev ∧
      (0 < d → t.f .BEL_TRIG_CTRL_ARM i = 1 ∧ t.f .BEL_TRIG_CTRL_LATE i = late ∧ Map.get none t.bel.trig i = some ((s.now : Int) + d).toNat ∧ t.ctl = s.ctl) ∧
      (d ≤ 0 → t.f .BEL_TRIG_CTRL_ARM i = 0 ∧ Map.get none t.bel.trig i = none ∧
        t.f .BEL_TRIG_CTRL_LATE i = (if d < 0 ∨ (irq = false ∧ ¬gets) then 1 else late) ∧
        (irq = true → (⟨core % 8, false, .trigger i⟩ : Irq) ∈ t.ctl.irqs) ∧ (irq = false → t.ctl = s.ctl) ∧
        (irq = false → gets → evDelivered s t core (some ev))) ∧
      sameRegs s t (fun fl j => fldsAt [.BEL_TRIG_CTRL_KIND, .BEL_TRIG_CTRL_CORE, .BEL_TRIG_CTRL_EVENT, .BEL_TRIG_CTRL_ARM, .BEL_TRIG_CTRL_LATE] i fl j ||
        pmcTouch core fl j || fldsAt [.CORE_STATUS_EVT_SAT] core fl j || (touches [.CORE_EVT_COUNT] fl && j == 16 * core + ev)) ∧
      t.core core = s.core core

/-! ### Links -/

/-- Every other link is as it was. -/
def otherLinks (s t : State) (n : Nat) : Prop := ∀ m, m ≠ n → t.link m = s.link m

/-- The lane fields of link n. -/
def laneOf (n : Nat) (fl : Fld) (j : Nat) : Bool :=
  touches [.LNK_LANE_SIGNAL, .LNK_LANE_LOCK, .LNK_LANE_SNR, .LNK_LANE_SYMERR] fl && j / 4 == n

/-- Lanes of a mask of four, and lanes of a width. -/
def ones4 (m : Nat) : Nat := ((List.range 4).filter m.testBit).length
def lanesOf (w : Nat) : Nat := if w = 3 then 4 else w

/-- A width that both sides allow and the passing lanes carry (R200). -/
def fits (own peer pass w : Nat) : Prop := 1 ≤ w ∧ w ≤ 3 ∧ w ≤ own ∧ w ≤ peer ∧ lanesOf w ≤ ones4 pass

/-- Link n has left UP: grace runs, and firmware owes a LINK_DOWN notice (R202, R281). -/
def leftUp (s t : State) (n : Nat) : Prop :=
  t.f .LNK_STATUS_GRACE n = 1 ∧ t.topo.toSend = s.topo.toSend ++ [⟨s.peerOf n, 0x1, s.now, n⟩]

/-- The TRAIN frames that link n sends next are those: this side's identity, settings and resume token, with the REASON of a refusal and the answers to so
many exchanges (R199, R202). -/
def trains (s t : State) (n : Nat) (before : List TrainFrame) (ps : List (Option Nat × Nat)) : Prop :=
  ∃ xs : List TrainFrame, (t.link n).trains = before ++ xs ∧ xs.map (fun x => (x.refusal, x.exchanges.length)) = ps ∧
    ∀ x ∈ xs, x.chip = s.chipAddr ∧ x.link = n ∧ x.widthMax = (s.link n).widthMax ∧ x.speed = (s.link n).speed ∧ x.enc = (s.link n).enc ∧
      x.flushed = (s.link n).flushFlag ∧ x.accepted = s.f .LNK_SEQ_RX_LAST n ∧ x.next = s.f .LNK_SEQ_TX_NEXT n

/-- LINK_ENABLE, LINK_DISABLE, SIGNAL_DETECT, SIGNAL_LOSS, TRAIN_PASS and the timeouts of training and handshake (R198-R200). -/
def Obligations.LinkTraining : Prop :=
  ∀ (s : State) (n : LinkId),
    let st := s.f .LNK_STATUS_STATE n
    (∃ t, exec (.linkEnable n) s = .next t ∧ t.f .LNK_CTRL_EN n = 1 ∧ t.f .LNK_STATUS_STATE n = (if st = lkOff then lkDetect else st) ∧
      otherLinks s t n ∧ { t with regs := s.regs, links := s.links } = s ∧
      sameRegs s t (fun fl j => flds [.OPN_STATUS_CFG_MISMATCH] fl j || fldsAt [.LNK_CTRL_EN, .LNK_STATUS_STATE, .LNK_STATUS_CFG_MISMATCH,
        .LNK_MOD_RESET, .LNK_MOD_LPMODE, .OPN_RBUF_ACT_REQ, .OPN_RBUF_ACT_RPL] n fl j)) ∧
    (∃ t, exec (.linkDisable n) s = .next t ∧ t.f .LNK_CTRL_EN n = 0 ∧ t.f .LNK_STATUS_STATE n = lkOff ∧ t.f .LNK_STATUS_WIDTH_ACT n = 0 ∧
      t.f .LNK_STATUS_LANES_OK n = 0 ∧ (t.link n).keyZ = none ∧ (st = lkUp → leftUp s t n) ∧ (st ≠ lkUp → t.topo = s.topo) ∧ otherLinks s t n ∧
      sameRegs s t (fun fl j => laneOf n fl j || flds [.BEL_STATUS_PARENT_FRESH] fl j || fldsAt [.LNK_CTRL_EN, .LNK_STATUS_STATE,
        .LNK_STATUS_WIDTH_ACT, .LNK_STATUS_LANES_OK, .LNK_STATUS_RETRAIN_PEND, .LNK_STATUS_GRACE, .LNK_MOD_RESET, .LNK_MOD_LPMODE] n fl j)) ∧
    (∀ lanes : BitVec 4,
      let on := lanes.toNat &&& (s.link n).lanes
      (st ≠ lkDetect ∨ on = 0 → exec (.signalDetect n lanes) s = .next s) ∧
      (st = lkDetect → on ≠ 0 → ∃ t, exec (.signalDetect n lanes) s = .next t ∧
        t.f .LNK_STATUS_STATE n = (if (s.link n).coeffs = 0 then lkFull else lkFast) ∧
        (∀ l, l < 4 → t.f .LNK_LANE_SIGNAL (4 * n + l) = (on.testBit l).toNat ∧ t.f .LNK_LANE_LOCK (4 * n + l) = 0) ∧ onlyRegs s t ∧
        sameRegs s t (fun fl j => laneOf n fl j || fldsAt [.LNK_STATUS_STATE, .LNK_CNT_FULL_COUNT, .LNK_CNT_FAST_COUNT, .LNK_CTRL_RETRAIN,
          .LNK_CTRL_RESET] n fl j))) ∧
    (st ∉ [lkFull, lkFast, lkHand, lkUp] → exec (.signalLoss n) s = .next s) ∧
    (st ∈ [lkFull, lkFast, lkHand, lkUp] → ∃ t, exec (.signalLoss n) s = .next t ∧ t.f .LNK_STATUS_STATE n = lkDetect ∧
      t.f .LNK_STATUS_LANES_OK n = 0 ∧ (st = lkUp → leftUp s t n) ∧ (st ≠ lkUp → t.topo = s.topo) ∧ otherLinks s t n) ∧
    (∀ (lanes : BitVec 4) (pw : BitVec 2) (sp : Bool),
      let pass := lanes.toNat &&& (s.link n).lanes
      (st ≠ lkFull → st ≠ lkFast → exec (.trainPass n lanes pw sp) s = .next s) ∧
      ((∀ w, ¬fits (s.link n).widthMax pw.toNat pass w) → exec (.trainPass n lanes pw sp) s = .next s) ∧
      ∀ w, (st = lkFull ∨ st = lkFast) → fits (s.link n).widthMax pw.toNat pass w → (∀ v, w < v → ¬fits (s.link n).widthMax pw.toNat pass v) →
        ∃ t, exec (.trainPass n lanes pw sp) s = .next t ∧ t.f .LNK_STATUS_STATE n = lkHand ∧ t.f .LNK_STATUS_WIDTH_ACT n = w ∧
          t.f .LNK_STATUS_SPEED_ACT n = max (s.link n).speed sp.toNat % 2 ^ Fld.LNK_STATUS_SPEED_ACT.w ∧
          ones4 (t.f .LNK_STATUS_LANES_OK n) = lanesOf w ∧ t.f .LNK_STATUS_LANES_OK n &&& pass = t.f .LNK_STATUS_LANES_OK n ∧ otherLinks s t n ∧
          t.f .LNK_PEER_VALID n = 1 ∧ trains s t n [] [(none, 0)] ∧
          { t with regs := s.regs, links := s.links } = s) ∧
    (st ≠ lkFull → exec (.trainFullTimeout n) s = .next s) ∧
    (st = lkFull → ∃ t, exec (.trainFullTimeout n) s = .next t ∧ t.f .LNK_STATUS_STATE n = lkDetect ∧
      t.f .LNK_CNT_TFAIL_COUNT n = min (s.f .LNK_CNT_TFAIL_COUNT n + 1) (2 ^ Fld.LNK_CNT_TFAIL_COUNT.w - 1) ∧ onlyRegs s t) ∧
    (st ≠ lkFast → exec (.trainFastTimeout n) s = .next s) ∧
    (st = lkFast → ∃ t, exec (.trainFastTimeout n) s = .next t ∧ t.f .LNK_STATUS_STATE n = lkFull ∧
      sameRegs s t (fldsAt [.LNK_STATUS_STATE, .LNK_CNT_FULL_COUNT, .LNK_CTRL_RESET] n) ∧ onlyRegs s t) ∧
    (st ≠ lkHand → exec (.handshakeTimeout n) s = .next s) ∧
    (st = lkHand → ∃ t, exec (.handshakeTimeout n) s = .next t ∧ t.f .LNK_STATUS_STATE n = lkRefused ∧ t.f .LNK_STATUS_REASON n = 4 ∧
      otherLinks s t n ∧ sameRegs s t (fldsAt [.LNK_STATUS_STATE, .LNK_STATUS_REASON] n))

/-- Link n retrains fast from UP: its replay buffer is kept, and its numbering unless it must flush (R198, R202). -/
def fastRetrained (s t : State) (n : Nat) : Prop :=
  t.f .LNK_STATUS_STATE n = lkFast ∧ leftUp s t n ∧ (t.link n).rb = (s.link n).rb ∧ (t.link n).txq = (s.link n).txq ∧ (t.link n).assign = false ∧
  ((s.link n).flushFlag = false → ∀ fl ∈ [Fld.LNK_SEQ_TX_NEXT, .LNK_SEQ_TX_ACKED, .LNK_SEQ_RX_LAST, .LNK_ENC_EPOCH], t.f fl n = s.f fl n) ∧
  otherLinks s t n

/-- LANE_LOSS (R204), PEER_TRAINING_PATTERN (R413), LNK_RETRAIN_WRITE (R414), ERR_LIMIT_RETRAIN (R206), LNK_RESET_WRITE (R198, R366), LINK_RETRAIN and its
timeout (R205), and REKEY_ARM (R208). -/
def Obligations.LinkResets : Prop :=
  (∀ (s : State) (n : LinkId),
    let up := s.f .LNK_STATUS_STATE n = lkUp
    (∀ i ∈ [Instr.peerTrainingPattern n, .lnkRetrainWrite n],
      (¬up → exec i s = .next s) ∧ (up → ∃ t, exec i s = .next t ∧ fastRetrained s t n)) ∧
    (¬up ∨ (s.link n).retrainNow = false → exec (.errLimitRetrain n) s = .next s) ∧
    (up → (s.link n).retrainNow = true → ∃ t, exec (.errLimitRetrain n) s = .next t ∧ fastRetrained s t n) ∧
    (∀ lock : BitVec 4,
      let use := s.f .LNK_STATUS_LANES_OK n
      (¬up ∨ use &&& lock.toNat = use → exec (.laneLoss n lock) s = .next s) ∧
      (up → use &&& lock.toNat ≠ use → ∃ t, exec (.laneLoss n lock) s = .next t ∧ fastRetrained s t n ∧
        t.f .LNK_CNT_LANELOSS_COUNT n = min (s.f .LNK_CNT_LANELOSS_COUNT n + 1) (2 ^ Fld.LNK_CNT_LANELOSS_COUNT.w - 1))) ∧
    (s.f .LNK_STATUS_STATE n = lkOff → exec (.lnkResetWrite n) s = .next s) ∧
    (s.f .LNK_STATUS_STATE n ≠ lkOff → ∃ t, exec (.lnkResetWrite n) s = .next t ∧ t.f .LNK_STATUS_STATE n = lkFull ∧ (t.link n).coeffs = 0 ∧
      (t.link n).keyZ = none ∧ (up → leftUp s t n) ∧ otherLinks s t n) ∧
    (∀ width : BitVec 8, width.toNat = 0 ∨ 3 < width.toNat → exec (.linkRetrain n width) s = .next (s.refuse 0x42 0x0A)) ∧
    (∀ width : BitVec 8, 1 ≤ width.toNat → width.toNat ≤ 3 →
      (s.f .LNK_STATUS_STATE n = lkOff → exec (.linkRetrain n width) s = .next (s.refuse 0x42 0x07)) ∧
      (s.f .LNK_STATUS_STATE n ≠ lkOff → ∃ t, exec (.linkRetrain n width) s = .next t ∧ t.f .LNK_CFG_WIDTH_MAX n = width.toNat ∧
        t.f .LNK_STATUS_STATE n = (if s.f .LNK_STATUS_STATE n = lkUp then lkFast else lkFull) ∧ otherLinks s t n))) ∧
  (∀ s : State, exec .linkRetrainTimeout s =
    .next (if s.hst.taken.any (fun t => t.code == 0x42 && t.started) then s.refuse 0x42 0x07 else s)) ∧
  ∀ (s : State) (n : LinkId) (bell : BitVec 32),
    let d := ahead s bell.toNat
    let z := (s.link n).keyZ
    ∃ t, exec (.rekeyArm n bell) s = .next t ∧ t.f .LNK_ENC_REKEY_BELL n = bell.toNat ∧
      t.f .LNK_ENC_REKEY_STATUS n = (if d < 64 then 2 else if z = none then 3 else 1) ∧
      t.f .LNK_ENC_REKEY_ARM n = (if 64 ≤ d ∧ z ≠ none then 1 else 0) ∧
      (64 ≤ d → z ≠ none → (t.link n).rekey = some ((s.now : Int) + d).toNat ∧ (t.link n).nextKey ≠ none) ∧
      (d < 64 ∨ z = none → t.link n = s.link n) ∧ otherLinks s t n ∧
      sameRegs s t (fldsAt [.LNK_ENC_REKEY_BELL, .LNK_ENC_REKEY_STATUS, .LNK_ENC_REKEY_ARM] n) ∧ { t with regs := s.regs, links := s.links } = s

/-- Link n has flushed: what it held is dropped and its numbering starts afresh at the next UP (R203). -/
def flushed (s t : State) (n : Nat) : Prop :=
  t.f .LNK_STATUS_FLUSHED n = 1 ∧ (t.link n).rb = [] ∧ (t.link n).txq = [] ∧ (t.link n).flushFlag = true ∧ (t.link n).fresh = true ∧
  (t.link n).keyZ = none ∧ t.f .LNK_CNT_FLUSH_COUNT n = min (s.f .LNK_CNT_FLUSH_COUNT n + 1) (2 ^ Fld.LNK_CNT_FLUSH_COUNT.w - 1)

/-- LNK_FLUSH_WRITE and GRACE_EXPIRY (R203): a flush without booked flows leaves the step running. -/
def Obligations.LinkFlush : Prop :=
  ∀ (s : State) (n : LinkId),
    let up := s.f .LNK_STATUS_STATE n = lkUp
    (∃ t, exec (.lnkFlushWrite n) s = .next t ∧ flushed s t n ∧ t.f .LNK_STATUS_STATE n = (if up then lkFast else s.f .LNK_STATUS_STATE n)) ∧
    (up ∨ s.f .LNK_STATUS_GRACE n = 0 → exec (.graceExpiry n) s = .next s) ∧
    (¬up → s.f .LNK_STATUS_GRACE n = 1 → ∃ t, exec (.graceExpiry n) s = .next t ∧ flushed s t n ∧ t.f .LNK_STATUS_GRACE n = 0 ∧
      t.f .LNK_STATUS_STATE n = s.f .LNK_STATUS_STATE n ∧
      ((s.link n).live = false → t.f .CHIP_HALT_STOPPED = s.f .CHIP_HALT_STOPPED))

/-- The bytes of the last frame that link n sent end with the CRC of the others (R188). -/
def goodWire (t : State) (n : Nat) : Prop := ∃ body, (t.link n).wire = body ++ leBytes 4 (crc32c body)

/-- A frame as it arrives: the header with the fields of h, 512 payload bytes, the CRC (R186, R188). -/
abbrev headerFits (h : Hdr) (payload : List Byte) : Prop :=
  h.seq < 2 ^ 16 ∧ h.ack < 2 ^ 16 ∧ h.stall < 2 ^ 14 ∧ h.bell2 < 4 ∧ h.typ ≤ 6 ∧ payload.length = 512 ∧ (h.typ = tyNil → payload = zeros512)

/-- Stalls per transmit slot (R185). -/
def stallsPerSlot (s : State) (n : Nat) : Nat :=
  (if s.f .LNK_STATUS_WIDTH_ACT n = 3 then 1 else if s.f .LNK_STATUS_WIDTH_ACT n = 2 then 2 else 4) * (1 + s.f .LNK_STATUS_SPEED_ACT n)

/-- TX_SLOT (R194, R209): one frame a slot, its CRC last; the bell's first slot sends the mark with the bell number and the phase; a replay
sends the frame it has come to, with RPL. REPLAY_TIMEOUT (R193, R195): once LNK_RTT and TMO_EXTRA have passed since the oldest frame last left, and no replay
is still to send it, a replay from it, or past the limit a retrain; the replay from it that is being sent is first sent in full. -/
def Obligations.LinkTransmit : Prop :=
  (∀ (s : State) (n : LinkId),
    let k := (s.link n).slot
    let live := s.f .LNK_STATUS_STATE n = lkUp ∧ k < s.f .BEL_ACTIVE_US * 200
    (¬live → exec (.txSlot n) s = .next s) ∧
    (live → ∃ t, exec (.txSlot n) s = .next t ∧ (t.link n).slot = k + stallsPerSlot s n ∧ goodWire t n ∧
      leAt (t.link n).wire 2 2 = s.f .LNK_SEQ_RX_LAST n ∧
      (k = 0 → leAt (t.link n).wire 6 1 % 16 = 1 ∧ leAt (t.link n).wire 8 8 = s.now ∧ leAt (t.link n).wire 16 4 = s.bel.phase / 2 ^ 16 % 2 ^ 32 ∧
        leAt (t.link n).wire 22 1 = s.f .BEL_ACTIVE_US ∧ leAt (t.link n).wire 24 4 = s.chipAddr + n.val * 2 ^ 16 ∧
        (t.link n).wire.length = 524 ∧ t.f .LNK_SEQ_TX_NEXT n = s.f .LNK_SEQ_TX_NEXT n) ∧
      ∀ q f, k ≠ 0 → (s.link n).assign = false → (s.link n).rpl = some q → (s.link n).rb.find? (fun f => decide (0 ≤ seqDiff f.seq q)) = some f →
        leAt (t.link n).wire 0 2 = f.seq % 2 ^ 16 ∧ leAt (t.link n).wire 6 1 / 16 % 2 = 1 ∧ leAt (t.link n).wire 6 1 % 16 = f.typ % 16 ∧
        ((t.link n).wire.drop 8).take f.payload.length = f.payload ∧
        (t.link n).rb = (s.link n).rb.map (fun g => if g.seq = f.seq then { g with sentAt := s.nsNow } else g) ∧
        t.f .LNK_CNT_RPLFR_COUNT n = min (s.f .LNK_CNT_RPLFR_COUNT n + 1) (2 ^ Fld.LNK_CNT_RPLFR_COUNT.w - 1))) ∧
  ∀ (s : State) (n : LinkId),
    (s.f .LNK_STATUS_STATE n ≠ lkUp ∨ (s.link n).rb = [] → exec (.replayTimeout n) s = .next s) ∧
    ∀ f r, s.f .LNK_STATUS_STATE n = lkUp → (s.link n).rb = f :: r →
      let c := if (s.link n).rplFrom = some f.seq then (s.link n).rplCount else 0
      let due := (f.sentAt + s.f .LNK_RPL_CFG_TMO_EXTRA n) * 65536 + s.f .LNK_RTT_RTT n ≤ s.nsNow * 65536
      (¬due ∨ (∃ q, (s.link n).rpl = some q ∧ 0 ≤ seqDiff f.seq q) → exec (.replayTimeout n) s = .next s) ∧
      (∀ q, due → (s.link n).rpl = some q → seqDiff f.seq q < 0 → (s.link n).rplFrom = some f.seq → (∀ p, (s.link n).rplAt = some p → p.2 ≠ s.nsNow) →
        ∃ t, exec (.replayTimeout n) s = .next t ∧ (t.link n).rplDue = some true ∧ (t.link n).rpl = some q ∧ otherLinks s t n ∧ { t with links := s.links } = s) ∧
      (due → (s.link n).rpl = none → c < s.f .LNK_RPL_CFG_LIMIT n → ∃ t, exec (.replayTimeout n) s = .next t ∧ (t.link n).rpl = some f.seq ∧ (t.link n).rplCount = c + 1 ∧
        (t.link n).rb = (s.link n).rb ∧ t.f .LNK_CNT_RPL_COUNT n = min (s.f .LNK_CNT_RPL_COUNT n + 1) (2 ^ Fld.LNK_CNT_RPL_COUNT.w - 1) ∧
        t.f .LNK_CNT_TMO_COUNT n = min (s.f .LNK_CNT_TMO_COUNT n + 1) (2 ^ Fld.LNK_CNT_TMO_COUNT.w - 1) ∧ otherLinks s t n ∧
        sameRegs s t (fldsAt [.LNK_CNT_RPL_COUNT, .LNK_CNT_TMO_COUNT] n) ∧ { t with regs := s.regs, links := s.links } = s) ∧
      (due → (s.link n).rpl = none → s.f .LNK_RPL_CFG_LIMIT n ≤ c →
        ∃ t, exec (.replayTimeout n) s = .next t ∧ fastRetrained s t n ∧ (t.link n).rplCount = 0)

/-- A frame whose code corrected k symbols has been counted on link n (R184), and the receiver's stall count has moved (R209). -/
def arrived (s t : State) (n k : Nat) : Prop :=
  t.f .LNK_CNT_FECSYM_COUNT n = (if k = 0 then s.f .LNK_CNT_FECSYM_COUNT n else min (s.f .LNK_CNT_FECSYM_COUNT n + k) (2 ^ Fld.LNK_CNT_FECSYM_COUNT.w - 1)) ∧
  (t.link n).rxStall = ((s.link n).rxStall + stallsPerSlot s n) % max (s.f .BEL_ACTIVE_US * 200) 1 ∧ otherLinks s t n

/-- FRAME_RECEIVE (R184, R187-R191) and BELL_MARK_RECEIVE (R209, R52): outside UP nothing happens; a frame whose codeword cannot be corrected is counted
and asks for a NAK; an ACK frees the replay buffer; the expected frame enters the receive FIFO; a gap asks for a NAK; a duplicate changes nothing; a
mark gives its stamps, and one of another bell length is only counted. -/
def Obligations.LinkReceive : Prop :=
  ∀ (s : State) (n : LinkId),
    (∀ bytes fec, s.f .LNK_STATUS_STATE n ≠ lkUp →
      exec (.frameReceive n bytes fec) s = .next s ∧ exec (.bellMarkReceive n bytes fec) s = .next s) ∧
    (∀ bytes, s.f .LNK_STATUS_STATE n = lkUp → ∃ t, exec (.frameReceive n bytes none) s = .next t ∧
      t.f .LNK_CNT_CRC_COUNT n = min (s.f .LNK_CNT_CRC_COUNT n + 1) (2 ^ Fld.LNK_CNT_CRC_COUNT.w - 1) ∧
      (t.link n).nakDue = ((s.link n).nakDue || !(s.link n).nakHeld) ∧ (t.link n).rxFifo = (s.link n).rxFifo ∧
      t.f .LNK_SEQ_RX_LAST n = s.f .LNK_SEQ_RX_LAST n ∧ otherLinks s t n) ∧
    ∀ (h : Hdr) (payload : List Byte) (k : Nat), headerFits h payload → h.nak = false → s.f .LNK_STATUS_STATE n = lkUp → s.f .LNK_STATUS_ENC_ACT n = 0 →
      let d := (BitVec.ofNat 16 h.seq - BitVec.ofNat 16 (s.f .LNK_SEQ_RX_LAST n + 1)).toInt
      let a := s.f .LNK_SEQ_TX_ACKED n
      (h.typ = tyEmpty → 0 < seqDiff h.ack a → 0 < seqDiff (s.f .LNK_SEQ_TX_NEXT n) h.ack →
        ∃ t, exec (.frameReceive n (frameBytes h payload) (some k)) s = .next t ∧ t.f .LNK_SEQ_TX_ACKED n = h.ack ∧
          (t.link n).rb = (s.link n).rb.filter (fun f => decide (0 < seqDiff f.seq h.ack)) ∧ arrived s t n k ∧
          sameRegs s t (fldsAt [.LNK_SEQ_TX_ACKED, .LNK_CNT_FECSYM_COUNT] n) ∧ { t with regs := s.regs, links := s.links } = s) ∧
      (h.ack = a → 2 ≤ h.typ → h.typ ≤ 5 →
        (d < 0 → ∃ t, exec (.frameReceive n (frameBytes h payload) (some k)) s = .next t ∧ arrived s t n k ∧
          { t.link n with rxStall := (s.link n).rxStall } = s.link n ∧ sameRegs s t (fldsAt [.LNK_CNT_FECSYM_COUNT] n) ∧ onlyRegs s { t with links := s.links }) ∧
        (0 < d → ∃ t, exec (.frameReceive n (frameBytes h payload) (some k)) s = .next t ∧ arrived s t n k ∧
          (t.link n).nakDue = ((s.link n).nakDue || !(s.link n).nakHeld) ∧ { t.link n with rxStall := (s.link n).rxStall, nakDue := (s.link n).nakDue } = s.link n ∧
          sameRegs s t (fldsAt [.LNK_CNT_FECSYM_COUNT] n) ∧ onlyRegs s { t with links := s.links }) ∧
        (d = 0 → s.portRuns n = false → (s.link n).rxTags = [] → ∃ t b, exec (.frameReceive n (frameBytes h payload) (some k)) s = .next t ∧ arrived s t n k ∧
          t.f .LNK_SEQ_RX_LAST n = h.seq ∧ (t.link n).rxFifo = (s.link n).rxFifo ++ [⟨h.typ, b, h.stall, payload⟩] ∧ b % 4 = h.bell2 ∧
          s.f .STL_RXCUR_BELL n ≤ b ∧ b < s.f .STL_RXCUR_BELL n + 4 ∧ t.f .STL_RXCUR_BELL n = b % 2 ^ Fld.STL_RXCUR_BELL.w ∧
          sameRegs s t (fldsAt [.LNK_SEQ_RX_LAST, .STL_RXCUR_BELL, .STL_CNT_RXLATE_COUNT, .LNK_CNT_FECSYM_COUNT] n) ∧ { t with regs := s.regs, links := s.links } = s)) ∧
      (h.typ = tyMark →
        (h.ack = a → leAt payload 14 1 = s.f .BEL_ACTIVE_US → ∃ t, exec (.bellMarkReceive n (frameBytes h payload) (some k)) s = .next t ∧
          t.f .BEL_TS_DEP_TS n = leAt payload 0 4 * 2 ^ 32 + leAt payload 8 4 ∧ (t.link n).rxStall = stallsPerSlot s n ∧
          t.f .BEL_TS_ARR_TS n = s.now % 2 ^ 32 * 2 ^ 32 + s.bel.phase / 2 ^ 16 % 2 ^ 32 ∧ (t.link n).marks = (s.link n).marks + 1 ∧ otherLinks s t n ∧
          sameRegs s t (fun fl j => flds [.BEL_STATUS_PARENT_FRESH, .BEL_STATUS_HOLDOVER] fl j ||
            fldsAt [.BEL_TS_DEP_TS, .BEL_TS_ARR_TS, .STL_RXCUR_BELL, .LNK_CNT_FECSYM_COUNT] n fl j)) ∧
        (leAt payload 14 1 ≠ s.f .BEL_ACTIVE_US → ∃ t, exec (.bellMarkReceive n (frameBytes h payload) (some k)) s = .next t ∧ arrived s t n k ∧
          t.f .LNK_CNT_BELLMIS_COUNT n = min (s.f .LNK_CNT_BELLMIS_COUNT n + 1) (2 ^ Fld.LNK_CNT_BELLMIS_COUNT.w - 1) ∧
          { t.link n with rxStall := (s.link n).rxStall } = s.link n ∧
          sameRegs s t (fldsAt [.LNK_CNT_BELLMIS_COUNT, .LNK_CNT_FECSYM_COUNT] n) ∧ onlyRegs s { t with links := s.links }))

/-- TRAIN_FRAME_RECEIVE (R199, R202, R365, R412): outside HANDSHAKE nothing; a refusal, an unexpected peer, a different encryption setting and a failed key
exchange refuse the link with their reasons, two refusing TRAIN frames leaving unless the peer refused; otherwise this side answers with its resume token and
enters UP with the measured round trip, numbering afresh or resuming. -/
def Obligations.LinkHandshake : Prop :=
  ∀ (s : State) (n : LinkId) (x : TrainFrame),
    let st := s.f .LNK_STATUS_STATE n
    let stranger := s.f .LNK_EXPECT_CHECK_EN n = 1 ∧ (s.f .LNK_EXPECT_CHIP n ≠ x.chip ∨ s.f .LNK_EXPECT_LINK n ≠ x.link)
    let l := s.link n
    let rtt := ((x.exchanges.map (fun e => ((e.2.2.2 : Int) - e.1) - ((e.2.2.1 : Int) - e.2.1))).sum / 16).toNat
    let refusing := fun (t : State) (r : Nat) => t.f .LNK_STATUS_STATE n = lkRefused ∧ t.f .LNK_STATUS_REASON n = r ∧
      trains s t n l.trains [(some r, 0), (some r, 0)] ∧ otherLinks s t n
    (st ≠ lkHand → exec (.trainFrameReceive n x) s = .next s) ∧
    (st = lkHand → x.refusal ≠ none → ∃ t, exec (.trainFrameReceive n x) s = .next t ∧ t.f .LNK_STATUS_STATE n = lkRefused ∧
      t.f .LNK_STATUS_REASON n = 4 ∧ (t.link n).trains = l.trains ∧ otherLinks s t n) ∧
    (st = lkHand → x.refusal = none → x.chip < 2 ^ 15 → x.link < 64 →
      (stranger → ∃ t, exec (.trainFrameReceive n x) s = .next t ∧ refusing t 1 ∧
        t.f .LNK_PEER_CHIP n = x.chip ∧ t.f .LNK_PEER_LINK n = x.link) ∧
      (¬stranger → l.enc ≠ x.enc → ∃ t, exec (.trainFrameReceive n x) s = .next t ∧ refusing t 2) ∧
      (¬stranger → l.enc = true → x.enc = true → s.f .LNK_STATUS_GRACE n = 0 → s.f .SEC_STATUS_ZEROISED = 1 ∨ x.kex = none →
        ∃ t, exec (.trainFrameReceive n x) s = .next t ∧ refusing t 3 ∧
          t.f .SEC_CNT_KEXFAIL_COUNT = (if s.f .SEC_STATUS_ZEROISED = 1 then s.f .SEC_CNT_KEXFAIL_COUNT
            else min (s.f .SEC_CNT_KEXFAIL_COUNT + 1) (2 ^ Fld.SEC_CNT_KEXFAIL_COUNT.w - 1))) ∧
      (¬stranger → l.enc = false → x.enc = false → x.flushed = false → x.exchanges.length = 16 →
        ∃ t, exec (.trainFrameReceive n x) s = .next t ∧ t.f .LNK_STATUS_STATE n = lkUp ∧ t.f .LNK_STATUS_GRACE n = 0 ∧ t.f .LNK_STATUS_ENC_ACT n = 0 ∧
          t.f .LNK_PEER_CHIP n = x.chip ∧ t.f .LNK_PEER_LINK n = x.link ∧ t.f .LNK_PEER_VALID n = 1 ∧ (t.link n).peer = some x.chip ∧
          t.f .LNK_RTT_RTT n = rtt % 2 ^ Fld.LNK_RTT_RTT.w ∧ t.f .BEL_LINKDLY_DLY n = rtt / 2 % 2 ^ Fld.BEL_LINKDLY_DLY.w ∧
          trains s t n l.trains [(none, 16)] ∧
          (l.fresh = true ∨ l.flushFlag = true → t.f .LNK_SEQ_TX_NEXT n = 0 ∧ t.f .LNK_SEQ_TX_ACKED n = 0xFFFF ∧ t.f .LNK_SEQ_RX_LAST n = 0xFFFF ∧
            (t.link n).flushFlag = false ∧ (t.link n).fresh = false) ∧
          (l.fresh = false → l.flushFlag = false → t.f .LNK_SEQ_TX_NEXT n = s.f .LNK_SEQ_TX_NEXT n ∧ t.f .LNK_SEQ_RX_LAST n = s.f .LNK_SEQ_RX_LAST n ∧
            (t.link n).rxNext = x.next ∧ (t.link n).rpl = (t.link n).rb.head?.map (·.seq)) ∧ otherLinks s t n))

/-! ### Page loads, flows, commits and the flow watch -/

/-- Counter fl of instance i has gone up by one, saturating (R16). -/
def counted (s t : State) (fl : Fld) (i : Nat := 0) : Prop := t.f fl i = min (s.f fl i + 1) (2 ^ fl.w - 1)

/-- The runs of the page of bell b in the set at base, and whether they pass the check of R217. -/
def pageRuns (s : State) (base b : Nat) : List Run := (s.pageAt base b).map runOf
def pagePasses (s : State) (n base b : Nat) : Bool := s.pageOk n b (s.pageAt base b)

/-- The status of arming a commit for the bell with these low bits (R242): 2 too soon, 3 no round boundary, 1 armed. -/
def armStatus (s : State) (bell : Nat) : Nat := if ahead s bell < 64 then 2 else if s.boundaryArm ((s.now : Int) + ahead s bell).toNat then 1 else 3

/-- No code word of HBM has a symbol in error (R175). -/
def cleanHbm (s : State) : Prop := ∀ k, (s.stack k).bad = []

/-- What a page that fails leaves: it is flagged and counted, and the port runs the last good page, or the built-in one (R217). -/
def pageFailed (s t : State) (n : Nat) : Prop :=
  t.f .STL_STATUS_PAGE_BAD n = 1 ∧ counted s t .STL_CNT_PAGEBAD_COUNT n ∧ otherLinks s t n

/-- TX_PAGE_LOAD and RX_PAGE_LOAD (R216, R217), FLOW_VECTOR_START (R222), FLOW_RESET (R228), STL_COMMIT_ARM and OPN_COMMIT_ARM (R242), and
FLOW_WATCH_REPORT (R264). -/
def Obligations.Schedules : Prop :=
  (∀ (s : State) (n : LinkId),
    let b := s.now + 1
    let sets := s.setsAt n b
    let base := sets.tx
    let runs := pageRuns s base b
    (sets.live = false → exec (.txPageLoad n) s = .next s) ∧
    (cleanHbm s → sets.live = true → pagePasses s n base b = true →
      ∃ t, exec (.txPageLoad n) s = .next t ∧ (t.link n).txGood = runs ∧ (t.link n).txPages.find? (fun p => p.1 == b) = some (b, runs) ∧
        (sets = s.setsAt n s.now → ∀ r ∈ runs, r.kind = 0 → (t.tflow n r.flow).loaded = true ∧ (t.tflow n r.flow).desc = s.descAt base r.flow ∧
          (t.tflow n r.flow).refused = !s.dOk (s.descAt base r.flow) true) ∧
        otherLinks s t n ∧ sameRegs s t (fldsAt [.STL_STATUS_DESC_BAD] n) ∧ sameBytes s t) ∧
    (cleanHbm s → sets.live = true → pagePasses s n base b = false →
      ∃ t, exec (.txPageLoad n) s = .next t ∧ pageFailed s t n ∧ (t.link n).txGood = (s.link n).txGood ∧
        (t.link n).txPages.find? (fun p => p.1 == b) = some (b, if (s.link n).txGood = [] then s.builtIn n b else (s.link n).txGood) ∧
        sameRegs s t (fldsAt [.STL_STATUS_PAGE_BAD, .STL_CNT_PAGEBAD_COUNT] n) ∧ sameBytes s t)) ∧
  (∀ (s : State) (n : LinkId),
    ((s.link n).rxFifo = [] → exec (.rxPageLoad n) s = .next s) ∧
    ∀ f r, (s.link n).rxFifo = f :: r →
      let base := (s.setsAt n f.bell).rx
      let known := (s.setsAt n f.bell).live = false ∨ ((s.link n).rxPages.find? (fun p => p.1 == f.bell)).isSome = true
      (known → exec (.rxPageLoad n) s = .next s) ∧
      (cleanHbm s → ¬known → s.portRuns n = false → pagePasses s n base f.bell = true →
        ∃ t, exec (.rxPageLoad n) s = .next t ∧ (t.link n).rxGood = pageRuns s base f.bell ∧
          (t.link n).rxPages.find? (fun p => p.1 == f.bell) = some (f.bell, pageRuns s base f.bell) ∧ (t.link n).rxFifo = (s.link n).rxFifo ∧
          (∀ g ∈ pageRuns s base f.bell, g.kind = 0 → (t.rflow n g.flow).loaded = true ∧ (t.rflow n g.flow).desc = s.descAt base g.flow) ∧
          otherLinks s t n ∧ sameRegs s t (fldsAt [.STL_STATUS_DESC_BAD] n) ∧ sameBytes s t) ∧
      (cleanHbm s → ¬known → s.portRuns n = false → pagePasses s n base f.bell = false →
        ∃ t, exec (.rxPageLoad n) s = .next t ∧ pageFailed s t n ∧ (t.link n).rxGood = (s.link n).rxGood ∧
          sameRegs s t (fldsAt [.STL_STATUS_PAGE_BAD, .STL_CNT_PAGEBAD_COUNT] n) ∧ sameBytes s t)) ∧
  (∀ (s : State) (n : LinkId) (f : BitVec 12),
    let x := s.tflow n f.toNat
    let d := x.desc
    let can := x.loaded = true ∧ x.refused = false ∧ x.active = false ∧ (dKind d = kPut ∨ dKind d = kAcc) ∧ dPneed d ≤ x.permits ∧ dTrig d = false
    let now := s.setsAt n s.now
    (x.puts = [] → exec (.flowVectorStart n f) s = .next s) ∧
    (x.loaded = true ∨ now.live = false → ¬can → exec (.flowVectorStart n f) s = .next s) ∧
    (x.loaded = false → now.live = true → x.puts ≠ [] →
      (dTrig (s.descAt now.tx f.toNat) = true → exec (.flowVectorStart n f) s = .next s) ∧
      (dTrig (s.descAt now.tx f.toNat) = false → exec (.flowVectorStart n f) s = exec (.flowVectorStart n f) (s.loadTx n now.tx f.toNat))) ∧
    ∀ c i r, x.puts = (c, i) :: r → can → dSpace d ≠ 1 → (∀ m, (s.core m).eccOne = [] ∧ (s.core m).eccBad = []) →
      ∃ t, exec (.flowVectorStart n f) s = .next t ∧ (t.tflow n f.toNat).active = true ∧ (t.tflow n f.toNat).permits = x.permits - dPneed d ∧
        (t.tflow n f.toNat).cursor = 0 ∧ (t.tflow n f.toNat).puts = r ∧ (t.tflow n f.toNat).staged.length = dVlen d ∧
        (∀ g ∈ (t.tflow n f.toNat).staged, g ≠ none) ∧ (t.core c).port i = ((s.core c).port i).map (fun o => { o with readDone := true }) ∧ otherLinks s t n ∧
        { t with links := s.links, cores := s.cores } = s ∧ sameBytes s t) ∧
  (∀ (s : State) (n : LinkId),
    let f := s.f .FLW_SEL_FLOW n
    let x := s.tflow n f
    let y := s.rflow n f
    let tx := s.f .FLW_SEL_DIR n = 0
    let going := if dKind x.desc = kMcast then x.cursor ≠ 0 ∨ ∃ g, Map.get none s.transit (dTransit x.desc x.slot 0) = some g ∧ (n.val, f) ∉ g.takers
      else x.active = true
    let busy := if tx then going ∨ x.puts ≠ [] else y.cursor ≠ 0 ∨ y.got ≠ []
    (busy → ∃ t, exec (.flowReset n) s = .next t ∧ t.f .FLW_STATE_RESET_BUSY n = 1 ∧ sameRegs s t (fldsAt [.FLW_STATE_RESET_BUSY] n) ∧ onlyRegs s t) ∧
    (¬busy → ∃ t, exec (.flowReset n) s = .next t ∧
      (tx → t.tflow n f = { x with permits := if x.loaded then min (dPermits x.desc * dPneed x.desc) 255 else 0, slot := 0, cursor := 0 }) ∧
      (¬tx → t.rflow n f = { y with slot := 0, cursor := 0, got := [], whole := 0, rel := 0 }) ∧ otherLinks s t n ∧
      { t with links := s.links } = s)) ∧
  (∀ (s : State) (n : LinkId) (bell : BitVec 32),
    ∃ t, exec (.stlCommitArm n bell) s = .next t ∧ t.f .STL_COMMIT_BELL n = bell.toNat ∧ t.f .STL_COMMIT_STATUS n = armStatus s bell.toNat ∧
      (t.f .STL_COMMIT_ARM n = 1 ↔ armStatus s bell.toNat = 1) ∧ (t.link n).base = none ∧
      (t.link n).commit = (if armStatus s bell.toNat = 1 then some ((s.now : Int) + ahead s bell.toNat).toNat else none) ∧ otherLinks s t n ∧
      sameRegs s t (fldsAt [.STL_COMMIT_BELL, .STL_COMMIT_STATUS, .STL_COMMIT_ARM] n) ∧
      { t with regs := s.regs, links := s.links, ctl := { t.ctl with armers := s.ctl.armers } } = s) ∧
  (∀ (s : State) (bell : BitVec 32),
    ∃ t, exec (.opnCommitArm bell) s = .next t ∧ t.f .OPN_COMMIT_BELL = bell.toNat ∧ t.f .OPN_COMMIT_STATUS = armStatus s bell.toNat ∧
      (t.f .OPN_COMMIT_ARM = 1 ↔ armStatus s bell.toNat = 1) ∧ t.opn.base = none ∧
      t.opn.commit = (if armStatus s bell.toNat = 1 then some ((s.now : Int) + ahead s bell.toNat).toNat else none) ∧
      sameRegs s t (flds [.OPN_COMMIT_BELL, .OPN_COMMIT_STATUS, .OPN_COMMIT_ARM]) ∧
      { t with regs := s.regs, opn := s.opn, ctl := { t.ctl with armers := s.ctl.armers } } = s ∧
      { t.opn with commit := s.opn.commit, base := s.opn.base, moving := s.opn.moving } = s.opn ∧ t.opn.moving = []) ∧
  ∀ (s : State) (n : LinkId) (rx : Bool) (f : BitVec 12),
    let x := s.tflow n f.toNat
    let y := s.rflow n f.toNat
    let d := if rx then y.desc else x.desc
    let code := if rx then y.code else x.code
    let wait := if rx then y.wait else x.wait
    (s.watcher d = none → exec (.flowWatchReport n rx f) s = .next s) ∧
    ∀ c, s.watcher d = some c → c < 128 →
      let lim := s.f .PRT_WATCH_CFG_LIMIT c
      ((if rx then y.reported else x.reported) = true ∨ lim = 0 ∨ wait < lim → exec (.flowWatchReport n rx f) s = .next s) ∧
      ((if rx then y.reported else x.reported) = false → lim ≠ 0 → lim ≤ wait →
        ∃ t, exec (.flowWatchReport n rx f) s = .next t ∧ counted s t .PRT_CNT_WATCH_COUNT c ∧ t.f .PRT_WATCH_VALID c = 1 ∧
          (s.f .PRT_WATCH_VALID c = 1 → t.f .PRT_WATCH_OVERRUN c = 1 ∧ t.f .PRT_WATCH_FLOW c = s.f .PRT_WATCH_FLOW c) ∧
          (s.f .PRT_WATCH_VALID c = 0 → t.f .PRT_WATCH_WAIT c = code % 2 ^ Fld.PRT_WATCH_WAIT.w ∧ t.f .PRT_WATCH_DIR c = rx.toNat ∧
            t.f .PRT_WATCH_LINK c = n ∧ t.f .PRT_WATCH_FLOW c = f.toNat ∧ t.f .PRT_WATCH_BELL_BELL c = s.now % 2 ^ Fld.PRT_WATCH_BELL_BELL.w) ∧
          t.topo.toSend = s.topo.toSend ++ [⟨if rx then dRetChip d else s.peerOf n, 0x3, s.now, n⟩] ∧
          (if rx then (t.rflow n f.toNat).reported = true else (t.tflow n f.toNat).reported = true) ∧ otherLinks s t n ∧
          sameRegs s t (fldsAt [.PRT_CNT_WATCH_COUNT, .PRT_WATCH_VALID, .PRT_WATCH_OVERRUN, .PRT_WATCH_WAIT, .PRT_WATCH_DIR, .PRT_WATCH_LINK,
            .PRT_WATCH_FLOW, .PRT_WATCH_BELL_BELL] c))

/-! ### The open market -/

/-- The same packets wait in both lists, apart from what the port has decided of their launch bells (R62). -/
def waiting (ps qs : List OpenPkt) : Prop := ps.map (fun p => { p with launch := none }) = qs.map (fun p => { p with launch := none })

/-- The reply to request p that leaves this chip: back to the requester with its SRC_ID and TAG; to this chip itself when it asked, else into the
reply queue of the link that the route names (R236, R248). -/
def answered (s t : State) (p : OpenPkt) (op : Nat) (data : List Byte) : Prop :=
  ∃ q : OpenPkt, q.cls = clsRpl ∧ q.op = op ∧ q.dst = p.src ∧ q.src = s.chipAddr ∧ q.srcId = p.srcId ∧ q.tag = p.tag ∧ q.addr = 0 ∧ q.data = data ∧
    (p.src = s.chipAddr → t.opn.arrived = s.opn.arrived.erase p ++ [q]) ∧
    ∀ n, p.src ≠ s.chipAddr → t.routeOf p.src = some n → ∃ qs, Map.get [] (t.link n).openQ clsRpl = qs ++ [q] ∧ waiting qs (Map.get [] (s.link n).openQ clsRpl)

/-- The word of n bytes at chip-local address a, low byte first. -/
def wordAt (s : State) (a n : Nat) : Nat := leVal ((List.range n).map (fun i => s.rdByte (a + i)))

/-- A failed operation of core c is recorded with these, unless an earlier record stands; it is counted (R253). -/
def portFailed (s t : State) (c op status tag addr : Nat) : Prop :=
  counted s t .PRT_CNT_ERR_COUNT c ∧ t.f .PRT_ERR_VALID c = 1 ∧ (s.f .PRT_ERR_VALID c = 1 → t.f .PRT_ERR_OVERRUN c = 1) ∧
  (s.f .PRT_ERR_VALID c = 0 → t.f .PRT_ERR_OP c = op % 2 ^ Fld.PRT_ERR_OP.w ∧ t.f .PRT_ERR_STATUS c = status % 2 ^ Fld.PRT_ERR_STATUS.w ∧
    t.f .PRT_ERR_TAG c = tag % 2 ^ Fld.PRT_ERR_TAG.w ∧ t.f .PRT_ERR_ADDR_ADDR c = addr % 2 ^ Fld.PRT_ERR_ADDR_ADDR.w)

/-- Whether open operation o of core c has waited its limit for the reply (R252). -/
def lateOp (s : State) (c : Nat) (o : PortOp) : Bool := !o.booked && (o.sent.map (fun b => decide (b + s.f .PRT_CFG_OPEN_TMO c ≤ s.now))).getD false

/-- OPEN_PACKET_START (R234, R239), THROTTLE_CHECK (R241), OPEN_REQUEST_ARRIVAL (R250, R254-R262), OPEN_REPLY_ARRIVAL (R251-R255) and
OPEN_TIMEOUT (R252). -/
def Obligations.OpenMarket : Prop :=
  (∀ (s : State) (n : LinkId) (cls : Fin 3),
    let l := s.link n
    (Map.get none l.cur cls ≠ none ∨ Map.get [] l.openQ cls = [] →
      ∃ t, exec (.openPacketStart n cls) s = .next t ∧ (t.link n).cur = l.cur ∧ (t.link n).used = l.used) ∧
    ∀ p r, Map.get none l.cur cls = none → Map.get [] l.openQ cls = p :: r → s.eligible p = true → p.data.length ≤ 8192 →
      let k := p.creditKey n
      let out := Map.get [] l.used k
      (s.sectionUnits n cls < out.sum + p.units ∨ 64 ≤ out.length →
        ∃ t, exec (.openPacketStart n cls) s = .next t ∧ (t.link n).cur = l.cur ∧ (t.link n).used = l.used ∧ counted s t .OPN_CNT_CREDIT_COUNT) ∧
      (out.sum + p.units ≤ s.sectionUnits n cls → out.length < 64 →
        ∃ t x, exec (.openPacketStart n cls) s = .next t ∧ Map.get none (t.link n).cur cls = some x ∧ x.pkt = p ∧
          Map.get [] (t.link n).used k = out ++ [p.units] ∧ (cls = 2 → x.left = []) ∧
          (cls ≠ 2 → x.left.flatten.take (16 + p.data.length) = p.header ++ p.data ∧ ∀ y ∈ x.left, y.length = 512) ∧
          t.f .OPN_CNT_CREDIT_COUNT = s.f .OPN_CNT_CREDIT_COUNT)) ∧
  (∀ s : State,
    let a := s.f .OPN_THROTTLE_ON
    let b := s.f .OPN_THROTTLE_OFF
    let on := if b < a then a else s.opn.thrOn
    let off := if b < a then b else s.opn.thrOff
    ∃ t, exec .throttleCheck s = .next t ∧ t.opn.thrOn = on ∧ t.opn.thrOff = off ∧
      t.f .OPN_STATUS_CFG_MISMATCH = (if b < a then s.f .OPN_STATUS_CFG_MISMATCH else 1) ∧
      (∀ n cls, n < 64 → cls < 3 → (t.link n).throttled.testBit cls =
        (if (s.link n).throttled.testBit cls then decide (off * 1024 < s.queueBytes n cls) else decide (on * 1024 ≤ s.queueBytes n cls))) ∧
      (t.f .OPN_STATUS_THROTTLING = 1 ↔ ∃ n, n < 64 ∧ (t.link n).throttled ≠ 0)) ∧
  (∀ s : State, (∀ p ∈ s.opn.arrived, p.cls ≠ clsReq) → exec .openRequestArrival s = .next s) ∧
  (∀ (s : State) (p : OpenPkt), s.opn.arrived.find? (fun p => p.cls == clsReq) = some p →
    let st := s.openCheck p
    let store := 0xC0000000000 ≤ p.addr
    (∀ n a, s.serveWait p = some (n, a) → ∃ t, exec .openRequestArrival s = .next t ∧ t.opn.arrived = s.opn.arrived.erase p ∧
      (t.stack (stackOf a)).queue = (s.stack (stackOf a)).queue ++ [⟨.port n, p.reach, .serve p⟩] ∧ { t with opn := s.opn, hbms := s.hbms } = s) ∧
    (s.serveWait p = none →
    (st ≠ 0 → ∃ t, exec .openRequestArrival s = .next t ∧ answered s t p 0x20 (leBytes 4 st) ∧ sameBytes s t) ∧
    (st = 0 → store → p.op = 0x01 → p.data.length = p.len →
      ∃ t, exec .openRequestArrival s = .next t ∧ answered s t p 0x20 (leBytes 4 0) ∧
        (∀ i, i < p.len → t.rdByte (p.addr + i) = byteAt p.data i) ∧ sameBytesBut s t p.addr p.len ∧
        ∀ c g, p.addr ≤ storeAddr c (512 * g) → storeAddr c (512 * g) + 512 ≤ p.addr + p.len → g < 16384 → (t.core c).tag g = 1) ∧
    (st = 0 → store → p.op = 0x06 → p.data.length = p.len →
      ∃ t, exec .openRequestArrival s = .next t ∧ answered s t p 0x20 (leBytes 4 0) ∧ sameBytesBut s t p.addr p.len ∧
        ∀ i, i < p.len / 4 → wordAt t (p.addr + 4 * i) 4 = (wordAt s (p.addr + 4 * i) 4 + leAt p.data (4 * i) 4) % 2 ^ 32) ∧
    (st = 0 → store → p.op = 0x02 →
      ∃ t, exec .openRequestArrival s = .next t ∧ answered s t p 0x21 ((List.range (leAt p.data 0 4)).map (fun i => s.rdByte (p.addr + i))) ∧
        sameBytes s t) ∧
    (st = 0 → store → p.op = 0x0A →
      ∃ t, exec .openRequestArrival s = .next t ∧ answered s t p 0x22 ((List.range 8).map (fun i => s.rdByte (p.addr + i))) ∧
        wordAt t p.addr 8 = (wordAt s p.addr 8 + leAt p.data 0 8) % 2 ^ 64 ∧ sameBytesBut s t p.addr 8))) ∧
  (∀ s : State, (∀ p ∈ s.opn.arrived, p.cls ≠ clsRpl) → exec .openReplyArrival s = .next s) ∧
  (∀ (s : State) (p : OpenPkt), s.opn.arrived.find? (fun p => p.cls == clsRpl) = some p → 0x80 ≤ p.srcId →
    let c := p.srcId - 0x80
    let i := p.tag % 256
    let status := if p.op = 0x20 then (byteAt p.data 0).toNat else 0
    (p.tag ≠ (s.core c).tagOf i → ∃ t, exec .openReplyArrival s = .next t ∧ counted s t .PRT_CNT_STALE_COUNT c ∧
      t.opn.arrived = s.opn.arrived.erase p ∧ t.cores = s.cores ∧ sameRegs s t (fldsAt [.PRT_CNT_STALE_COUNT] c) ∧ sameBytes s t) ∧
    ∀ o, p.tag = (s.core c).tagOf i → i < 128 → (s.core c).port i = some o → o.booked = false → o.sent ≠ none →
      ∃ t, exec .openReplyArrival s = .next t ∧ (t.core c).port i = none ∧ (o.locDone = false → evDelivered s t c o.ev) ∧
        (1 < status → portFailed s t c o.code status p.tag (o.chip * 2 ^ 44 + o.remote) ∧ sameBytes s t) ∧
        (status ≤ 1 → t.f .PRT_ERR_VALID c = s.f .PRT_ERR_VALID c ∧
          (o.kind = .get → p.op = 0x21 → p.data.length = o.len → o.local_ + o.len ≤ 0x800000 → s.enabled c = true →
            (∀ j, j < o.len → t.rdByte (storeAddr c (o.local_ + j)) = byteAt p.data j) ∧ sameBytesBut s t (storeAddr c o.local_) o.len) ∧
          (p.op = 0x20 → sameBytes s t)) ∧
        ((o.kind = .get → o.local_ + o.len ≤ 0x800000) → ∀ m, m ≠ c → t.core m = s.core m)) ∧
  ∀ (s : State) (c : CoreId),
    ((∀ x ∈ (s.core c).ops, lateOp s c x.2 = false) → (s.core c).streams = [] → exec (.openTimeout c) s = .next s) ∧
    ∀ i o, (s.core c).ops.find? (fun x => lateOp s c x.2) = some (i, o) →
      ∃ t, exec (.openTimeout c) s = .next t ∧ (t.core c).port i = none ∧ counted s t .PRT_CNT_TMO_COUNT c ∧
        (o.locDone = false → evDelivered s t c o.ev) ∧ portFailed s t c o.code 6 ((s.core c).tagOf i) (o.chip * 2 ^ 44 + o.remote) ∧
        t.topo.toSend = s.topo.toSend ++ [⟨o.chip, 0x4, s.now, 0⟩] ∧ onlyCore { s with ctl := t.ctl, topo := t.topo } t c ∧ sameBytes s t

/-! ### Topology -/

/-- A control packet for chip c has left: into this chip's own arrivals, or into the control queue of the link that the route names (R236, R279). -/
def ctlSent (s t : State) (c op : Nat) (data : List Byte) : Prop :=
  (c = s.chipAddr → ∃ q ∈ t.opn.arrived, q.dst = c ∧ q.src = s.chipAddr ∧ q.cls = clsCtl ∧ q.op = op ∧ q.data = data) ∧
  ∀ n, c ≠ s.chipAddr → c < 2 ^ 15 → s.routeOf c = some n →
    ∃ q ∈ Map.get [] (t.link n).openQ clsCtl, q.dst = c ∧ q.src = s.chipAddr ∧ q.cls = clsCtl ∧ q.op = op ∧ q.data = data

/-- The steward is the lowest-indexed healthy chip of the group (R284). -/
def stewardLowest (t : State) : Prop :=
  ∀ i, i < 32 → (t.f .CHIP_GROUP_VIEW_HEALTHY).testBit i = true → (∀ j, j < i → (t.f .CHIP_GROUP_VIEW_HEALTHY).testBit j = false) →
    t.f .CHIP_STEWARD_INDEX = i ∧ (t.f .CHIP_STEWARD_SELF = 1 ↔ t.f .CHIP_ADDR_BOARD * 4 + t.f .CHIP_ADDR_POSITION = i)

/-- The in-group index that L-link n of index i reaches (R268). -/
def farIndex (i n : Nat) : Nat := if n = 3 then (BitVec.ofNat 5 i ^^^ 1).toNat else (BitVec.ofNat 5 i ^^^ BitVec.ofNat 5 n ^^^ 3).toNat

/-- The agreement on plan p that this chip holds. -/
def held (t : State) (p : Nat) : Option Agreement := t.topo.agreements.find? (fun a => a.plan == p)

/-- This chip has been named in a notice of class 7 (R280). -/
def namedSelf (s t : State) : Prop := t.topo.toSend.getLast? = some ⟨s.chipAddr, 0x7, s.now, 0⟩

/-- The payload of PROPOSE, ACCEPT, COUNTER and CONFIRM (R279). -/
def planBell (p b : Nat) : List Byte := leBytes 4 p ++ leBytes 8 b

/-- Bring-up of the machine (R267, R268, R270, R284, R347, R348), plans (R279, R280, R346) with the agreement's packets, and fault notices (R281-R286):
CHIP_ADDR_LOCK, SET_MACHINE_CONFIG, COMMIT_PLAN, PROPOSE, ACCEPT, COUNTER, CONFIRM, DONE, the two deadlines, NOTICE_SEND, NOTICE, MERGE_CLOSE,
RECORD_DELIVER, SET_HEALTHY and FENCE_CORE. The plan ids of START_ROUND and LOAD_BUNDLE are the model's own (log entry 38). -/
def Obligations.Topology : Prop :=
  (∀ (s : State) (g : BitVec 10),
    (s.f .CHIP_ADDR_LOCK = 1 → exec (.chipAddrLock g) s = .next s) ∧
    (s.f .CHIP_ADDR_LOCK = 0 → ∃ t, exec (.chipAddrLock g) s = .next t ∧ t.f .CHIP_ADDR_GROUP = g.toNat ∧ t.f .CHIP_ADDR_LOCK = 1 ∧
      stewardLowest t ∧ sameRegs s t (flds [.CHIP_ADDR_GROUP, .CHIP_ADDR_LOCK, .CHIP_STEWARD_INDEX, .CHIP_STEWARD_SELF]) ∧ onlyRegs s t)) ∧
  (∀ (s : State) (m : MachineConfig),
    (∀ k, s.topo.machine = some k → exec (.setMachineConfig m) s = .next (if k = m then s.ok 0x2 else s.refuse 0x2 0x08)) ∧
    (s.topo.machine = none →
      (cablesOk m = false ∨ m.groups ≤ m.group ∨ (s.f .CHIP_ADDR_LOCK = 1 ∧ s.f .CHIP_ADDR_GROUP ≠ m.group) →
        exec (.setMachineConfig m) s = .next (s.refuse 0x2 0x08)) ∧
      (cablesOk m = true → m.group < m.groups → m.groups ≤ 1024 → (s.f .CHIP_ADDR_LOCK = 1 → s.f .CHIP_ADDR_GROUP = m.group) →
        ∃ u : State, exec (.setMachineConfig m) s = .next (u.ok 0x2) ∧ u.topo = { s.topo with machine := some m } ∧ u.f .CHIP_ADDR_GROUP = m.group ∧
          u.f .CHIP_ADDR_LOCK = 1 ∧ u.f .CTL_LOCK_LOCK = 1 ∧ (s.f .CTL_LOCK_LOCK = 0 → u.f .CTL_HOSTWR_MASK = m.hostwr % 2 ^ 11) ∧
          u.f .RST_CFG_PERST_MODE = m.perst % 2 ∧
          (∀ n, n < 32 → u.f .LNK_EXPECT_CHIP n = m.group * 32 + farIndex s.index n ∧ u.f .LNK_EXPECT_LINK n = n ∧ u.f .LNK_EXPECT_CHECK_EN n = 1) ∧
          (∀ c ∈ m.cables, ∀ k, k < 32 → c.group = m.group → c.port = 32 * s.index + k →
            u.f .LNK_EXPECT_CHIP (32 + k) = c.peerGroup * 32 + c.peerPort / 32 ∧ u.f .LNK_EXPECT_LINK (32 + k) = 32 + c.peerPort % 32 ∧
            u.f .LNK_EXPECT_CHECK_EN (32 + k) = 1) ∧ { u with regs := s.regs, topo := s.topo } = s))) ∧
  (∀ (s : State) (plan : BitVec 32) (bell : BitVec 64),
    let p := plan.toNat
    (s.outstanding 0x10 = true → exec (.commitPlan plan bell) s = .next (s.refuse 0x12 0x07)) ∧
    (s.outstanding 0x10 = false →
      (s.topo.plans.find? (fun x => x.id == p) = none → exec (.commitPlan plan bell) s = .next (s.refuse 0x12 0x0A)) ∧
      ∀ x, s.topo.plans.find? (fun x => x.id == p) = some x →
        let good := s.planWritten x = true ∧ s.permitsFit ((x.route.map (fun r => s.routeIn r)).getD s.routeOf) (x.sets.map (fun y => (y.1, y.2.2.2.1))) = true
        (¬good → exec (.commitPlan plan bell) s = .next (s.refuse 0x12 0x04)) ∧
        (good → cleanHbm s → p < 0x80000000 →
          let low := ∀ e ∈ x.ends, s.chipAddr ≤ e.1
          let first := if x.ends = [] then s.initiates p = true else (∃ e ∈ x.ends, e.1 = s.chipAddr) ∧ low
          let rest := x.chips.filter (fun c => c != s.chipAddr)
          (bell = 0 → ¬first → exec (.commitPlan plan bell) s = .next (s.markStarted 0x12 false)) ∧
          (bell = 0 → first → rest ≠ [] → ∃ t, exec (.commitPlan plan bell) s = .next t ∧
            held t p = some ⟨p, s.nextBoundary 512, true, s.chipAddr, rest, [], 0, false, false, []⟩ ∧
            ∀ c ∈ rest, ctlSent s t c 0x31 (planBell p (s.nextBoundary 512))) ∧
          (bell ≠ 0 → (s.armPlan p bell.toNat).2 = 0 → ∃ t, exec (.commitPlan plan bell) s = .next t ∧
            ∃ a, held t p = some a ∧ a.bell = bell.toNat ∧ a.armed = true ∧ a.initiator = false) ∧
          (bell ≠ 0 → (s.armPlan p bell.toNat).2 ≠ 0 →
            exec (.commitPlan plan bell) s = .next (s.refuse 0x12 0x09 (s.armPlan p bell.toNat).2))))) ∧
  (∀ (s : State) (src : ChipAddr) (plan : BitVec 32) (bell : BitVec 64),
    let p := plan.toNat
    let b := bell.toNat
    (∃ t, exec (.propose src plan bell) s = .next t ∧
      (s.acceptable p b = true → held t p = some ⟨p, b, false, src.toNat, [], [], 0, false, false, []⟩ ∧ ctlSent s t src.toNat 0x32 (planBell p b)) ∧
      (s.acceptable p b = false → t.topo = s.topo ∧ ctlSent s t src.toNat 0x33 (planBell p (s.counterBell p).2) ∧
        (s.planReady p = true → (∀ n ∈ s.planLinks p, (s.link n).commit = none) → (s.counterBell p).2 = s.planBoundary p 256)) ∧ sameBytes s t) ∧
    (held s p = none → exec (.accept src plan bell) s = .next (s.takeCtl src.toNat 0x32) ∧
      exec (.counter src plan bell) s = .next (s.takeCtl src.toNat 0x33) ∧ exec (.confirm src plan bell) s = .next (s.takeCtl src.toNat 0x34) ∧
      (∀ r, exec (.done src plan bell r) s = .next (s.takeCtl src.toNat 0x35)) ∧ exec (.agreeDeadline plan) s = .next s ∧
      exec (.doneDeadline plan) s = .next s) ∧
    ∀ a, held s p = some a →
      let rest := a.answers.filter (fun x => x.1 != src.toNat)
      let asks := a.initiator = true ∧ a.confirmed = false ∧ src.toNat ∈ a.chips
      (¬asks ∨ a.bell ≠ b → exec (.accept src plan bell) s = .next (s.takeCtl src.toNat 0x32)) ∧
      (asks → a.bell = b → rest.length + 1 < a.chips.length → ∃ t, exec (.accept src plan bell) s = .next t ∧
        held t p = some { a with answers := (src.toNat, none) :: rest } ∧ sameBytes s t) ∧
      (asks → a.bell = b → a.chips.length ≤ rest.length + 1 → (∀ x ∈ rest, x.2 = none) → p = 0xC0000001 →
        ∃ t, exec (.accept src plan bell) s = .next t ∧ (∀ c ∈ a.chips, ctlSent s t c 0x34 (planBell p b)) ∧
          (∃ x, held t p = some x ∧ x.confirmed = true ∧ x.armed = true ∧ x.bell = b) ∧
          ∀ n, n < 128 → s.cst n = stLoaded → (t.core n).startBell = some b) ∧
      (¬asks → exec (.counter src plan bell) s = .next (s.takeCtl src.toNat 0x33)) ∧
      (asks → rest.length + 1 < a.chips.length → ∃ t, exec (.counter src plan bell) s = .next t ∧
        held t p = some { a with answers := (src.toNat, some b) :: rest } ∧ sameBytes s t) ∧
      (asks → a.chips.length ≤ rest.length + 1 → a.rounds < 3 → ∃ t, exec (.counter src plan bell) s = .next t ∧
        ∃ x, held t p = some x ∧ x.rounds = a.rounds + 1 ∧ x.answers = [] ∧ x.bell = (rest.filterMap (·.2)).foldl max b ∧
          ∀ c ∈ a.chips, ctlSent s t c 0x31 (planBell p x.bell)) ∧
      (asks → a.chips.length ≤ rest.length + 1 → 3 ≤ a.rounds → ∃ u : State, exec (.counter src plan bell) s = .next (u.complete (planCode p) cAgree) ∧
        held u p = none ∧ namedSelf s u) ∧
      (a.initiator = true ∨ a.armed = true ∨ a.bell ≠ b ∨ a.from_ ≠ src.toNat →
        exec (.confirm src plan bell) s = .next (s.takeCtl src.toNat 0x34)) ∧
      (a.initiator = false → a.armed = false → a.bell = b → a.from_ = src.toNat → p = 0xC0000001 → ∃ t, exec (.confirm src plan bell) s = .next t ∧
        held t p = some { a with confirmed := true, armed := true } ∧ ∀ n, n < 128 → s.cst n = stLoaded → (t.core n).startBell = some b) ∧
      (∀ r, a.initiator = false ∨ a.bell ≠ b ∨ r = true ∨ src.toNat ∉ a.chips →
        exec (.done src plan bell r) s = .next (s.takeCtl src.toNat 0x35)) ∧
      (a.initiator = true → a.bell = b → src.toNat ∈ a.chips → ∃ t x, exec (.done src plan bell false) s = .next t ∧ held t p = some x ∧
        (∀ c, c ∈ x.dones ↔ c = src.toNat ∨ c ∈ a.dones) ∧ x.chips = a.chips ∧ sameBytes s t) ∧
      (a.confirmed = true ∨ s.now + 64 < a.bell → exec (.agreeDeadline plan) s = .next s) ∧
      (a.confirmed = false → a.bell ≤ s.now + 64 → ∃ u : State, exec (.agreeDeadline plan) s = .next (u.complete (planCode p) cAgree) ∧ held u p = none ∧
        namedSelf s u ∧ u.f .CHIP_HALT_STOPPED = 1 ∧ ∀ n ∈ s.planLinks p, u.f .LNK_STATUS_STATE n = lkOff) ∧
      (a.initiator = false ∨ a.confirmed = false ∨ s.now < a.bell + 64 → exec (.doneDeadline plan) s = .next s) ∧
      (a.initiator = true → a.confirmed = true → a.bell + 64 ≤ s.now → ∃ t, exec (.doneDeadline plan) s = .next t ∧ held t p = none ∧
        (∀ c ∈ a.chips, c ∉ a.dones → (⟨c, 0x7, s.now, 0⟩ : Notice) ∈ t.topo.toSend) ∧ { t with topo := s.topo } = s)) ∧
  (∀ s : State,
    (s.topo.toSend = [] → exec .noticeSend s = .next s) ∧
    ∀ n r, s.topo.toSend = n :: r →
      let again := ∃ x ∈ s.topo.sent, x.suspect = n.suspect ∧ x.cls = n.cls ∧ s.now < x.bell + 64
      (again → ∃ t, exec .noticeSend s = .next t ∧ t.topo = { s.topo with toSend := r } ∧ counted s t .CHIP_CNT_SUPPR_COUNT ∧
        sameRegs s t (flds [.CHIP_CNT_SUPPR_COUNT]) ∧ { t with regs := s.regs, topo := s.topo } = s) ∧
      (¬again → ∃ t, exec .noticeSend s = .next t ∧ t.topo.toSend = r ∧ counted s t .CHIP_CNT_NOTICE_COUNT ∧
        t.topo.sent.head? = some { n with bell := s.now } ∧
        ∀ i, i < 32 → (s.f .CHIP_GROUP_VIEW_HEALTHY).testBit i = true → s.f .CHIP_ADDR_GROUP * 32 + i ≠ n.suspect → n.suspect < 2 ^ 15 →
          (∀ j, j < i → (s.f .CHIP_GROUP_VIEW_HEALTHY).testBit j = true → s.f .CHIP_ADDR_GROUP * 32 + j = n.suspect) →
          (i = s.index → ∃ m ∈ t.topo.merges, m.suspect = n.suspect ∧ m.cls = n.cls ∧ m.reporters.testBit i = true ∧ m.first ≤ n.bell) ∧
          (i ≠ s.index → ctlSent s t (s.f .CHIP_ADDR_GROUP * 32 + i) 0x30
            (leBytes 2 n.suspect ++ leBytes 1 n.cls ++ leBytes 1 0 ++ leBytes 8 n.bell ++ leBytes 2 n.detail ++ leBytes 2 0)))) ∧
  (∀ (s : State) (src suspect : ChipAddr) (cls : BitVec 8) (bell : BitVec 64) (detail : BitVec 16),
    let same := fun m : Merge => m.suspect = suspect.toNat ∧ m.cls = cls.toNat
    (cls = 0 ∨ 7 < cls.toNat → exec (.notice src suspect cls bell detail) s = .next (s.takeCtl src.toNat 0x30)) ∧
    (1 ≤ cls.toNat → cls.toNat ≤ 7 → ∃ t, exec (.notice src suspect cls bell detail) s = .next t ∧ sameBytes s t ∧
      ((∀ m ∈ s.topo.merges, ¬same m) → t.topo.merges = s.topo.merges ++ [⟨suspect.toNat, cls.toNat, 2 ^ (src.toNat % 32), bell.toNat,
        s.f .BEL_WALL_S_S, s.f .BEL_WALL_NS_NS, detail.toNat, s.now⟩]) ∧
      ∀ m ∈ s.topo.merges, same m → ∃ x ∈ t.topo.merges, same x ∧ x.first = min m.first bell.toNat ∧ x.reporters.testBit (src.toNat % 32) = true ∧
        ∀ i, m.reporters.testBit i = true → x.reporters.testBit i = true)) ∧
  (∀ s : State,
    ((∀ m ∈ s.topo.merges, s.now < m.opened + s.f .CHIP_STEWARD_MERGE) → exec .mergeClose s = .next s) ∧
    ∀ m, s.topo.merges.find? (fun m => decide (m.opened + s.f .CHIP_STEWARD_MERGE ≤ s.now)) = some m →
      let blames := (m.cls = 2 ∨ m.cls = 6 ∨ m.cls = 7) ∧ m.suspect / 32 % 1024 = s.f .CHIP_ADDR_GROUP
      ∃ t, exec .mergeClose s = .next t ∧ t.topo.merges = s.topo.merges.erase m ∧ t.topo.recSeq = s.topo.recSeq + 1 ∧
        (∀ i, (t.f .CHIP_GROUP_VIEW_HEALTHY).testBit i = ((s.f .CHIP_GROUP_VIEW_HEALTHY).testBit i && !decide (blames ∧ i = m.suspect % 32))) ∧
        (blames → stewardLowest t) ∧
        (256 ≤ s.topo.recWait.length → t.topo.recWait = s.topo.recWait ∧ counted s t .CHIP_CNT_RECLOST_COUNT) ∧
        (s.topo.recWait.length < 256 → ∃ r, t.topo.recWait = s.topo.recWait ++ [(s.topo.recBase + 64 * s.topo.recNext, r)] ∧ r.length = 32 ∧
          leAt r 0 2 = m.suspect % 2 ^ 16 ∧ leAt r 2 1 = m.cls % 2 ^ 8 ∧ leAt r 4 4 = m.reporters % 2 ^ 32 ∧ leAt r 8 8 = m.first % 2 ^ 64 ∧
          leAt r 26 2 = s.chipAddr % 2 ^ 16 ∧ leAt r 28 2 = m.detail % 2 ^ 16)) ∧
  (∀ s : State,
    let ch := 63
    (s.topo.recSent = true → s.f .MBX_STAT_TAKEN ch = 0 → exec .recordDeliver s = .next s) ∧
    (s.topo.recSent = true → s.f .MBX_STAT_TAKEN ch = 1 → s.topo.recWait.length ≤ 1 → ∃ t, exec .recordDeliver s = .next t ∧
      t.topo = { s.topo with recSent := false, recWait := [] } ∧ { t with topo := s.topo } = s) ∧
    (s.topo.recSent = false → s.topo.recWait = [] → exec .recordDeliver s = .next s) ∧
    ∀ a r w, s.topo.recSent = false → s.topo.recWait = (a, r) :: w → r.length = 32 → a < 2 ^ 48 → s.mbxSender 0x14 ch = true → s.f .MBX_BIND_EN ch = 1 →
      s.f .MBX_STAT_LOCKED ch = 0 → ∃ t, exec .recordDeliver s = .next t ∧ t.f .MBX_DATA_NOTICE ch = (0xFA00 + leAt r 30 1) * 2 ^ 48 + a ∧
        t.f .MBX_STAT_FULL ch = 1 ∧ t.f .MBX_STAT_TAKEN ch = 0 ∧ t.topo = { s.topo with recSent := true } ∧ counted s t .CHIP_CNT_RECORD_COUNT) ∧
  (∀ (s : State) (v : BitVec 32), ∃ u : State, exec (.setHealthy v) s = .next (u.ok 0x15) ∧ u.f .CHIP_GROUP_VIEW_HEALTHY = v.toNat ∧ stewardLowest u ∧
    sameRegs s u (flds [.CHIP_GROUP_VIEW_HEALTHY, .CHIP_STEWARD_INDEX, .CHIP_STEWARD_SELF]) ∧ onlyRegs s u) ∧
  ∀ (s : State) (c : CoreId) (clear : Bool),
    (s.enabled c = false → exec (.fenceCore c clear) s = .next (s.refuse 0x14 0x0A)) ∧
    (s.enabled c = true → ∃ u : State, exec (.coreFenceWrite c (!clear)) s = .next u ∧ exec (.fenceCore c clear) s = .next (u.ok 0x14) ∧
      u.f .CORE_CTRL_FENCE c = (!clear).toNat)

/-! ### Loading and weights -/

/-- Whether bank b of region r is in state st, and whether region r has a LOADED bank. -/
def bankIs (s : State) (r b st : Nat) : Prop := (if b = 0 then s.f .WGT_RGN_STATE_A r else s.f .WGT_RGN_STATE_B r) = st
def hasLoaded (s : State) (r : Nat) : Prop := bankIs s r 0 bkLoaded ∨ bankIs s r 1 bkLoaded

/-- A swap of region r can be agreed: its banks are two, in local HBM, one LOADED and the other ACTIVE or FREE (R291, R300). -/
def canSwap (s : State) (r : Nat) : Prop := s.swappable r = true

/-- The mask's regions. -/
def regionIn (mask : BitVec 32) (r : Nat) : Prop := r < 32 ∧ mask.toNat.testBit r = true

/-- The commands that a load or an agreement must not meet (R346). -/
def busyLoad (s : State) : Prop :=
  s.outstanding 0x11 = true ∨ s.outstanding 0x12 = true ∨ s.outstanding 0x21 = true ∨ s.f .PWR_STATUS_DEGRADED = 1 ∨
    ∃ n : CoreId, s.cst n = stRun ∨ s.cst n = stWait

/-- Why a round cannot start (R104): a load is outstanding, a local region has no ACTIVE bank, or no bound core is LOADED. -/
def cannotStart (s : State) : Prop :=
  s.outstanding 0x10 = true ∨ (∃ r, r < 32 ∧ s.f .WGT_RGN_CFG_VALID r = 1 ∧ s.f .WGT_RGN_CFG_TIER r = 0 ∧ ¬bankIs s r 0 bkActive ∧ ¬bankIs s r 1 bkActive) ∨
    ∀ n : CoreId, s.bound n = true → s.cst n ≠ stLoaded

/-- Where job slot i of the crier's ring lies, and the ring's free places (R296). -/
def jobSlot (s : State) (i : Nat) : Nat := s.f .CRI_JOB_BASE_BASE * 65536 + 32 * (i % 2 ^ s.f .CRI_JOB_BASE_LOG2)
def jobRoom (s : State) : Nat := 2 ^ s.f .CRI_JOB_BASE_LOG2 - 1 - s.criUsed

/-- The crier's ring lies in HBM. -/
def ringInHbm (s : State) : Prop := s.f .CRI_JOB_BASE_BASE * 65536 + 32 * 2 ^ s.f .CRI_JOB_BASE_LOG2 ≤ hbmBytes

/-- The job at the ring's tail: tree, source, region, source bank, shard id (R296). -/
def tailWord (s : State) : Nat := leVal ((List.range 8).map (fun i => s.rdByte (jobSlot s (s.f .CRI_JOB_TAIL_TAIL) + i)))
def tailTree (s : State) : Nat := tailWord s % 2 ^ 16
def tailSrc (s : State) : Nat := tailWord s / 2 ^ 16 % 4
def tailRegion (s : State) : Nat := tailWord s / 2 ^ 18 % 32
def tailShard (s : State) : Option Nat := (s.shardsOf (tailRegion s)).findIdx? (fun e => e.id == tailWord s / 2 ^ 32 % 2 ^ 32)

/-- The slot at the tail is refused with status st: the byte in the slot, the error bit, the tail moved on (R296). -/
def jobRefused (s t : State) (st : Nat) : Prop :=
  t.rdByte (jobSlot s (s.f .CRI_JOB_TAIL_TAIL) + 24) = BitVec.ofNat 8 st ∧ t.f .CRI_STATUS_JOB_ERR = 1 ∧ t.wgt = s.wgt ∧
  t.f .CRI_JOB_TAIL_TAIL = (s.f .CRI_JOB_TAIL_TAIL + 1) % 2 ^ s.f .CRI_JOB_BASE_LOG2 % 2 ^ 16 ∧
  sameBytesBut s t (jobSlot s (s.f .CRI_JOB_TAIL_TAIL) + 24) 1

/-- LOAD_BUNDLE (R103, R346), START_ROUND (R104), LOAD_SHARDS, the crier's rows (R294-R296), SWAP_BANK and WGT_SWAP_ARM (R300), and the scrub (R303,
R304). The plan id of START_ROUND is the model's own (log entry 38). -/
def Obligations.LoadingAndWeights : Prop :=
  (∀ (s : State) (job : JobConfig) (bundle : Bundle) (bell : BitVec 64),
    let b := bundleFor bundle job
    let t := s.writeSets (b.sets ++ b.planSets)
    (busyLoad s → exec (.loadBundle job bundle bell) s = .next (s.refuse 0x10 0x07)) ∧
    (∀ r sub, r ≠ 4 → s.loadRefusal t job b = some (r, sub) → exec (.loadBundle job bundle bell) s = .next (s.refuse 0x10 r sub)) ∧
    (job.reshape ≠ 1 → job.reshape ≠ 3 → b = bundle) ∧
    (∀ a, bundle.alts = [a] → job.reshape = 1 → a.ranks = job.ranks → (∀ c ∈ a.ranks, c ∈ bundle.ranks) → b = { bundle with ranks := a.ranks, sets := a.sets }) ∧
    (s.loadRefusal t job b = none → job.cls = s.f .PWR_CLASS_ACT → job.ranks = b.ranks → bell = 0 → s.f .CHIP_STEWARD_SELF = 0 →
      (b.sets.map (·.link)).Nodup → ∃ u, exec (.loadBundle job bundle bell) s = .next u ∧ u.load.job = some job ∧ u.load.loading = some 0 ∧
        u.topo.partition = job.ranks ++ job.spares ∧ u.topo.ranks = job.ranks ∧ u.topo.spares = job.spares ∧
        u.f .BEL_LEN_US = bundle.bellUs % 2 ^ 7 ∧ u.f .BEL_ROUND_LEN_LEN_M1 = (bundle.roundLen - 1) % 2 ^ 12 ∧
        u.f .BEL_ROUND_ORIGIN_BELL = bundle.origin % 2 ^ 64 ∧
        u.load.before = (s.load.job, s.load.bundle) ∧
        (∀ x ∈ b.sets, u.f .STL_TXBASE_BASE x.link = x.tx / 65536 % 2 ^ 28 ∧ u.f .STL_RXBASE_BASE x.link = x.rx / 65536 % 2 ^ 28 ∧
          u.f .STL_CFG_REQ x.link = bundle.req % 2 ^ Fld.STL_CFG_REQ.w) ∧ u.cores = s.cores)) ∧
  (∀ (s : State) (bell : BitVec 64),
    (cannotStart s → exec (.startRound bell) s = .next (s.refuse 0x11 0x07)) ∧
    (¬cannotStart s → bell ≠ 0 → bell.toNat < s.now + 64 → exec (.startRound bell) s = .next (s.refuse 0x11 0x0A)) ∧
    (¬cannotStart s → s.now + 64 ≤ bell.toNat → ∃ t a, exec (.startRound bell) s = .next t ∧ t.f .CHIP_HALT_STOPPED = 0 ∧ t.f .CHIP_HALT_CAUSE = 0 ∧
      held t 0xC0000001 = some a ∧ a.bell = bell.toNat ∧ a.armed = true ∧
      (∀ n, n < 128 → (t.core n).startBell = if s.cst n = stLoaded then some bell.toNat else (s.core n).startBell) ∧
      sameRegs s t (flds [.CHIP_HALT_STOPPED, .CHIP_HALT_CAUSE]) ∧ sameBytes s t) ∧
    (¬cannotStart s → bell = 0 → s.f .CHIP_STEWARD_SELF = 0 → ∃ t, exec (.startRound bell) s = .next t ∧ t.f .CHIP_HALT_STOPPED = 0 ∧
      t.f .CHIP_HALT_CAUSE = 0 ∧ t.topo = s.topo ∧ t.cores = s.cores ∧ sameRegs s t (flds [.CHIP_HALT_STOPPED, .CHIP_HALT_CAUSE]))) ∧
  (∀ (s : State) (jobs : List (Word × Word × Word × Word)),
    (jobs.all jobForm = false → exec (.loadShards jobs) s = .next (s.refuse 0x20 0x0A)) ∧
    (jobs.all jobForm = true → jobRoom s < jobs.length → exec (.loadShards jobs) s = .next (s.refuse 0x20 0x07)) ∧
    (jobs.all jobForm = true → jobs ≠ [] → jobs.length ≤ jobRoom s → ringInHbm s → ∃ u : State, exec (.loadShards jobs) s = .next (u.ok 0x20) ∧
      u.f .CRI_JOB_HEAD_HEAD = (s.f .CRI_JOB_HEAD_HEAD + jobs.length) % 2 ^ s.f .CRI_JOB_BASE_LOG2 ∧
      (∀ k j, jobs[k]? = some j → ∀ i, i < 32 → u.rdByte (jobSlot s (s.f .CRI_JOB_HEAD_HEAD + k) + i) = byteAt (jobBytes j) i) ∧
      sameRegs s u (flds [.CRI_JOB_HEAD_HEAD]) ∧ u.cores = s.cores ∧ u.wgt = s.wgt)) ∧
  (∀ s : State,
    let go := s.f .CRI_CTRL_EN = 1 ∧ s.criUsed ≠ 0 ∧ s.wgt.jobs.length < 8 ∧ ∀ j ∈ s.wgt.jobs, j.tree ≠ tailTree s
    (¬go → exec .crierJobStart s = .next s) ∧
    (go → ringInHbm s → cleanHbm s →
      (s.treeOf (tailTree s) = none → ∃ t, exec .crierJobStart s = .next t ∧ jobRefused s t 2) ∧
      (∀ x, s.treeOf (tailTree s) = some x → tailShard s = none → ∃ t, exec .crierJobStart s = .next t ∧ jobRefused s t 3) ∧
      (∀ x i, s.treeOf (tailTree s) = some x → tailShard s = some i →
        let b := tailWord s / 2 ^ 24 % 2
        let usable := bankIs s (tailRegion s) b bkLoaded ∨ bankIs s (tailRegion s) b bkActive
        (tailSrc s = 2 → ¬usable → ∃ t, exec .crierJobStart s = .next t ∧ jobRefused s t 4) ∧
        (tailSrc s ≠ 2 ∨ usable → 0 < ((s.shardsOf (tailRegion s)).getD i ⟨0, 0, 0, 0, 0⟩).len → x.dests ≠ [] →
          ∃ t j, exec .crierJobStart s = .next t ∧ t.wgt.jobs = s.wgt.jobs ++ [j] ∧ j.tree = tailTree s ∧ j.src = tailSrc s ∧ j.region = tailRegion s ∧
            j.shard = i ∧ j.next = [] ∧ j.host = [] ∧ t.f .CRI_STATUS_RUNNING = s.wgt.jobs.length + 1 ∧ t.f .CRI_STATUS_BUSY = 1 ∧
            t.f .CRI_JOB_TAIL_TAIL = (s.f .CRI_JOB_TAIL_TAIL + 1) % 2 ^ s.f .CRI_JOB_BASE_LOG2 % 2 ^ 16 ∧ sameBytes s t)))) ∧
  (∀ (s : State) (tree : BitVec 16) (feed : Fin 5) (data : List Byte) (err : Bool),
    let job := s.wgt.jobs.find? (fun j => j.tree == tree.toNat)
    let act := HbmAct.crier tree.toNat feed.val
    (job = none ∨ s.treeOf tree.toNat = none →
      exec (.crierPieceWrite tree feed) s = .next s ∧ exec (.crierHostReadCompletion tree data err) s = .next s) ∧
    ∀ j x, job = some j → s.treeOf tree.toNat = some x →
      let v := Map.get 0 j.next feed
      let n := ceilDiv (s.jobShard j).len (x.vlen - 1)
      let ready := s.pieceHere j x v = true ∧ v < n ∧ feed.val ∈ x.dests
      let clear := ∀ g, g < x.vlen → s.transitFull (s.feedGran j x feed g) = false
      (¬ready ∨ (feed ≠ 4 ∧ ¬clear) ∨ s.asked act = true → exec (.crierPieceWrite tree feed) s = .next s) ∧
      (ready → feed = 4 ∨ clear → s.asked act = false → (∃ k, k < 12 ∧ s.slotted .crier k = true ∧ 0 < bytesIn k (s.pieceReads j x feed)) →
        ∃ t, exec (.crierPieceWrite tree feed) s = .next t ∧ t.asked act = true ∧ { t with hbms := s.hbms } = s) ∧
      (ready → feed ≠ 4 → clear → unslotted s .crier act → ∃ t, exec (.crierPieceWrite tree feed) s = .next t ∧
        (∀ g, g < x.vlen → t.transitFull (s.feedGran j x feed g) = true) ∧
        (∃ y, Map.get none t.transit (s.feedGran j x feed 0) = some y ∧ y.nil = false ∧ leAt y.bytes 0 4 = (s.jobShard j).id % 2 ^ 32 ∧
          leAt y.bytes 8 4 = v % 2 ^ 32 ∧ y.bytes.length = 512) ∧
        Map.get 0 t.wgt.feeds (feedKey j.tree feed) = Map.get 0 s.wgt.feeds (feedKey j.tree feed) + 1) ∧
      (ready → feed = 4 ∨ clear → unslotted s .crier act → ∃ t, exec (.crierPieceWrite tree feed) s = .next t ∧
        ∀ j' ∈ t.wgt.jobs, j'.tree = tree.toNat → Map.get 0 j'.next feed = v + 1) ∧
      (j.src ≠ 0 ∨ j.err = true ∨ s.hst.busMaster = false → exec (.crierHostReadCompletion tree data err) s = .next s) ∧
      (j.src = 0 → j.err = false → s.hst.busMaster = true →
        (∃ t, exec (.crierHostReadCompletion tree data true) s = .next t ∧ counted s t .CRI_CNT_HOSTERR_COUNT) ∧
        ((∃ f ∈ x.dests, Map.get 0 j.next f < n) → ∃ t j', exec (.crierHostReadCompletion tree data false) s = .next t ∧ j' ∈ t.wgt.jobs ∧
          j' = { j with host := (j.host ++ data).take ((s.jobShard j).len * 512) } ∧ { t with wgt := s.wgt } = s))) ∧
  (∀ (s : State) (mask : BitVec 32),
    (s.outstanding 0x10 = true → exec (.swapBank mask) s = .next (s.refuse 0x21 0x07)) ∧
    (s.outstanding 0x10 = false → (∃ r, regionIn mask r ∧ ¬canSwap s r) → exec (.swapBank mask) s = .next (s.refuse 0x21 0x07 0x4)) ∧
    (s.outstanding 0x10 = false → (∀ r, regionIn mask r → canSwap s r) → s.f .CHIP_STEWARD_SELF = 0 →
      ∃ t, exec (.swapBank mask) s = .next t ∧ t.wgt = { s.wgt with asked := some mask.toNat, seq := s.wgt.seq + 1 } ∧
        { t with wgt := s.wgt, hst := s.hst } = s)) ∧
  (∀ (s : State) (bell : BitVec 32),
    let d := ahead s bell.toNat
    let b := ((s.now : Int) + d).toNat
    let masked := fun r => r < 32 ∧ (s.f .WGT_SWAP_MASK_REGIONS).testBit r = true
    let all := ∀ r, masked r → hasLoaded s r
    ∃ t, exec (.wgtSwapArm bell) s = .next t ∧ t.f .WGT_SWAP_BELL = bell.toNat ∧
      (d < 64 → t.f .WGT_SWAP_STATUS = 2) ∧ (64 ≤ d → s.boundaryArm b = false → t.f .WGT_SWAP_STATUS = 3) ∧
      (64 ≤ d → s.boundaryArm b = true → ¬all → t.f .WGT_SWAP_STATUS = 4) ∧
      (d < 64 ∨ s.boundaryArm b = false ∨ ¬all → t.wgt = { s.wgt with swap := none } ∧ t.f .WGT_SWAP_ARM = 0 ∧
        sameRegs s t (flds [.WGT_SWAP_BELL, .WGT_SWAP_STATUS, .WGT_SWAP_ARM])) ∧
      (64 ≤ d → s.boundaryArm b = true → all → t.f .WGT_SWAP_STATUS = 1 ∧ t.f .WGT_SWAP_ARM = 1 ∧ t.wgt = { s.wgt with swap := some b, swapBad := false } ∧
        (∀ r, masked r → (bankIs s r 0 bkLoaded → bankIs t r 0 bkArmed) ∧ (¬bankIs s r 0 bkLoaded → bankIs t r 1 bkArmed)) ∧
        sameRegs s t (flds [.WGT_SWAP_BELL, .WGT_SWAP_STATUS, .WGT_SWAP_ARM, .WGT_RGN_STATE_A, .WGT_RGN_STATE_B])) ∧
      { t with regs := s.regs, wgt := s.wgt, ctl := { t.ctl with armers := s.ctl.armers } } = s) ∧
  (∀ s : State,
    let go := s.f .WGT_CTRL_SCRUB_EN = 1 ∧ s.f .WGT_STATUS_SCRUB_BUSY = 0
    (¬go → exec .scrubPassStart s = .next s) ∧
    (go → ∃ t, exec .scrubPassStart s = .next t ∧ t.wgt = { s.wgt with scrub := s.scrubList } ∧
      t.f .WGT_STATUS_SCRUB_BUSY = (if s.scrubList = [] then 0 else 1) ∧ (s.scrubList = [] → counted s t .WGT_CNT_PASSES_COUNT) ∧
      sameRegs s t (flds [.WGT_STATUS_SCRUB_BUSY, .WGT_CNT_PASSES_COUNT]) ∧ { t with regs := s.regs, wgt := s.wgt } = s)) ∧
  ∀ s : State,
    (s.wgt.scrub = [] ∨ s.f .WGT_CTRL_SCRUB_EN = 0 → exec .scrubShard s = .next s) ∧
    (s.asked .scrub = true → exec .scrubShard s = .next s) ∧
    (s.f .WGT_CTRL_SCRUB_EN = 1 → s.asked .scrub = false → (∃ k, k < 12 ∧ s.slotted .scrub k = true ∧ 0 < bytesIn k s.scrubReads) →
      ∃ t, exec .scrubShard s = .next t ∧ t.asked .scrub = true ∧ { t with hbms := s.hbms } = s) ∧
    ∀ r b i rest, s.wgt.scrub = (r, b, i) :: rest → s.f .WGT_CTRL_SCRUB_EN = 1 → unslotted s .scrub .scrub →
      let free := if b = 0 then s.f .WGT_RGN_STATE_A r = bkFree else s.f .WGT_RGN_STATE_B r = bkFree
      ∃ t, exec .scrubShard s = .next t ∧ t.wgt.scrub = rest ∧ t.f .WGT_SCRUB_POS_REGION = r % 32 ∧ t.f .WGT_SCRUB_POS_BANK = b % 2 ∧
        t.f .WGT_SCRUB_POS_SHARD = i % 2 ^ 18 ∧ (rest = [] → counted s t .WGT_CNT_PASSES_COUNT ∧ t.f .WGT_STATUS_SCRUB_BUSY = 0) ∧
        ((s.shard r b i).st ≠ 2 ∨ free → t.wgt = { s.wgt with scrub := rest } ∧ onlyRegs { s with wgt := t.wgt } t ∧
          sameRegs s t (flds [.WGT_SCRUB_POS_REGION, .WGT_SCRUB_POS_BANK, .WGT_SCRUB_POS_SHARD, .WGT_CNT_PASSES_COUNT, .WGT_STATUS_SCRUB_BUSY])) ∧
        ((s.shard r b i).st = 2 → ¬free → counted s t .WGT_CNT_SCRUBBED_COUNT ∧
          ((t.shard r b i).st = 2 ∧ t.f .WGT_CNT_BAD_COUNT = s.f .WGT_CNT_BAD_COUNT ∨
            (t.shard r b i).st = 3 ∧ counted s t .WGT_CNT_BAD_COUNT ∧ t.f .WGT_BAD_VALID = 1))

/-! ### Host writes, replay and the ledger's commands -/

/-- A write joins the run of host writes that ends where it begins, or begins one; a run of 1 MiB closes (R308). -/
def runAfter (s : State) (a : Nat) (data : List Byte) : Option HostRun :=
  let r : HostRun := match s.ldg.run with
    | some r => if r.addr + r.data.length = a then ⟨r.addr, r.data ++ data⟩ else ⟨a, data⟩
    | none => ⟨a, data⟩
  if 2 ^ 20 ≤ r.data.length then none else some r

/-- The n bytes from address a are the bytes of a list, zero past its end. -/
def bytesAre (t : State) (a n : Nat) (data : List Byte) : Prop := ∀ i, i < n → t.rdByte (a + i) = byteAt data i

/-- The replay cursor has moved past entry i, or the replay has ended there and recording goes on (R314, R317). -/
def cursorPast (t : State) (i : Nat) : Prop :=
  t.f .LDG_RPL_CUR_CUR = (i + 1) % 2 ^ 24 ∨
    (t.f .LDG_CTRL_MODE = ldgRecord ∧ t.f .LDG_RPL_CUR_CUR = 0 ∧ (t.f .LDG_STATUS_RPL_DONE = 1 ∨ t.f .LDG_STATUS_RPL_END = 1))

/-- BAR2_WRITE (R157, R308, R342), HOST_WRITE_RUN_CLOSE (R308), REPLAY_FEED (R314), LDG_WALL_NS_READ (R311), LEDGER_MODE (R313), PUT_BATCH and
BATCH_LANDED (R306). What the ledger itself writes is excluded by its mode OFF, where the bytes of memory are stated. -/
def Obligations.LedgerCommands : Prop :=
  (∀ (s : State) (off : BitVec 40) (data : List Byte),
    let a := s.f .HST_BAR2_OFF_OFF * 2 ^ 30 + off.toNat
    let waits := s.rgnStopped 16 = true ∨ ∃ g, g < 4 ∧ s.rgnStopped (20 + g) = true
    let reaches := off.toNat + data.length ≤ 2 ^ s.hst.bar2 ∧ a + data.length ≤ hbmBytes ∧ data ≠ []
    (waits → exec (.bar2Write off data) s = .next { s with clk := { s.clk with waiting := s.clk.waiting ++ [.bar2Write off data] } }) ∧
    (¬waits → ¬reaches → exec (.bar2Write off data) s = .next s) ∧
    (¬waits → reaches → s.slotted .host (stackOf a) = true → s.f .LDG_CTRL_MODE = ldgOff → ∃ t, exec (.bar2Write off data) s = .next t ∧
      (t.stack (stackOf a)).queue = (s.stack (stackOf a)).queue ++ [⟨.host, data.length, .write a data⟩] ∧
      t.ldg = { s.ldg with run := runAfter s a data } ∧ { t with hbms := s.hbms, ldg := s.ldg } = s) ∧
    (¬waits → reaches → s.slotted .host (stackOf a) = false → s.f .LDG_CTRL_MODE = ldgOff → ∃ t, exec (.bar2Write off data) s = .next t ∧
      bytesAre t a data.length data ∧ sameBytesBut s t a data.length ∧ t.ldg = { s.ldg with run := runAfter s a data } ∧
      { t with hbm := s.hbm, ldg := s.ldg } = s)) ∧
  (∀ s : State,
    (s.ldg.run = none → exec .hostWriteRunClose s = .next s) ∧
    (s.ldg.run ≠ none →
      (s.f .LDG_CTRL_MODE = ldgOff → ∃ t, exec .hostWriteRunClose s = .next t ∧ t.ldg = { s.ldg with run := none } ∧ { t with ldg := s.ldg } = s) ∧
      (s.f .LDG_CTRL_MODE = ldgRecord → s.ldg.cycle = none → s.ldg.ringFull = false → ∃ t, exec .hostWriteRunClose s = .next t ∧ t.ldg.run = none ∧
        t.f .LDG_SEQ_SEQ = (s.f .LDG_SEQ_SEQ + 1) % 2 ^ 32 ∧ counted s t .LDG_CNT_ENTRIES_COUNT ∧ sameRegs s t (flds ledgerFlds)) ∧
      (s.f .LDG_CTRL_MODE = ldgRecord → s.ldg.cycle = none → s.ldg.ringFull = true → ∃ t, exec .hostWriteRunClose s = .next t ∧ t.ldg.run = none ∧ t.ldg.lost = true ∧
        t.f .LDG_SEQ_SEQ = (s.f .LDG_SEQ_SEQ + 1) % 2 ^ 32 ∧ counted s t .LDG_CNT_LOST_COUNT ∧ t.f .LDG_STATUS_LOST = 1 ∧ sameBytes s t))) ∧
  (∀ s : State,
    let i := s.rplCursor
    let k := (byteAt (s.rplBytes i) 18).toNat % 128
    let feeds := s.f .LDG_CTRL_MODE = ldgFeed ∧ i < s.f .LDG_RPL_CFG_COUNT ∧ (k = 1 ∨ k = 2) ∧ (byteAt (s.rplBytes i) 53).toNat % 2 = 1
    (¬feeds → exec .replayFeed s = .next s) ∧
    (feeds → k = 1 → ∃ t, exec .replayFeed s = .next t ∧ counted s t .LDG_CNT_FED_COUNT ∧ cursorPast t i) ∧
    (feeds → k = 2 → ∃ u : State, exec .replayFeed s = .next (u.ok 0x30) ∧ counted s u .LDG_CNT_FED_COUNT ∧ cursorPast u i ∧
      u.ldg.batch = none)) ∧
  (∀ (s : State) (m : Master),
    let i := s.rplCursor
    let b := s.rplBytes i
    let fed := s.f .LDG_CTRL_MODE = ldgFeed ∧ i < s.f .LDG_RPL_CFG_COUNT ∧ (byteAt b 18).toNat % 128 = 4
    (¬fed → ∃ t, exec (.ldgWallNsRead m) s = .next t ∧ t.f .LDG_WALL_S_S = s.f .BEL_WALL_S_S ∧ t.f .LDG_WALL_NS_NS = s.f .BEL_WALL_NS_NS ∧
      Map.get 0 t.rdata m.toNat = s.f .BEL_WALL_NS_NS ∧
      (s.f .LDG_CTRL_MODE = ldgOff → sameRegs s t (flds [.LDG_WALL_S_S, .LDG_WALL_NS_NS]) ∧ { t with regs := s.regs, rdata := s.rdata } = s)) ∧
    (fed → ∃ t, exec (.ldgWallNsRead m) s = .next t ∧ t.f .LDG_WALL_S_S = leAt b 8 6 ∧ t.f .LDG_WALL_NS_NS = leAt b 14 4 % 2 ^ 30 ∧
      Map.get 0 t.rdata m.toNat = leAt b 14 4 % 2 ^ 30 ∧ counted s t .LDG_CNT_FED_COUNT)) ∧
  (∀ (s : State) (mode : BitVec 2) (mask : BitVec 16) (stop : BitVec 32) (rings : Option (List Word)),
    (2 ≤ mode.toNat → mode.toNat ≠ s.f .LDG_CTRL_MODE → s.jobRuns = true → ∃ u : State, exec (.ledgerMode mode mask stop rings) s = .next (u.refuse 0x31 0x07) ∧
      u.f .LDG_STATUS_MODE_REFUSED = 1 ∧ sameRegs s u (flds [.LDG_STATUS_MODE_REFUSED]) ∧ onlyRegs s u) ∧
    (mode.toNat < 2 ∨ s.jobRuns = false ∨ mode.toNat = s.f .LDG_CTRL_MODE → ∃ u : State, exec (.ledgerMode mode mask stop rings) s = .next (u.ok 0x31) ∧
      u.f .LDG_CTRL_PAY_MASK = mask.toNat ∧ u.f .LDG_RPL_STOP_SEQ = stop.toNat ∧
      (mode.toNat < 2 ∨ mode.toNat = s.f .LDG_CTRL_MODE → u.f .LDG_CTRL_MODE = mode.toNat) ∧
      (2 ≤ mode.toNat → u.f .LDG_CTRL_MODE = mode.toNat ∨ (u.f .LDG_CTRL_MODE = ldgRecord ∧ (u.f .LDG_STATUS_RPL_DONE = 1 ∨ u.f .LDG_STATUS_RPL_END = 1))) ∧
      (mode.toNat ≠ s.f .LDG_CTRL_MODE → u.f .LDG_RPL_CUR_CUR = 0 ∧ u.ldg.mbxCur = 0) ∧
      (mode.toNat = s.f .LDG_CTRL_MODE → u.f .LDG_RPL_CUR_CUR = s.f .LDG_RPL_CUR_CUR ∧ u.ldg.mbxCur = s.ldg.mbxCur) ∧
      ∀ w0 w1 w2 w3 w4 w5 w6, rings = some [w0, w1, w2, w3, w4, w5, w6] → u.f .LDG_RING_BASE_BASE = w0.toNat / 65536 ∧
        u.f .LDG_RING_CFG_LOG2 = (if 10 ≤ w1.toNat % 32 ∧ w1.toNat % 32 ≤ 24 then w1.toNat % 32 else s.f .LDG_RING_CFG_LOG2) ∧
        u.f .LDG_RING_CFG_HOST = w1.toNat / 256 % 2 ∧ u.f .LDG_PAY_BASE_BASE = w2.toNat / 65536 ∧ u.f .LDG_RPL_BASE_BASE = w4.toNat / 65536 ∧
        u.f .LDG_RPL_PAY_BASE_BASE = w5.toNat / 65536 ∧ u.f .LDG_RPL_CFG_COUNT = w6.toNat / 2 ^ 32 % 2 ^ 24)) ∧
  (∀ (s : State) (host target : BitVec 64) (len batch : BitVec 32),
    let bad := len = 0 ∨ len.toNat % 64 ≠ 0 ∨ 2 ^ 30 < len.toNat ∨ hbmBytes < target.toNat + len.toNat
    (bad → exec (.putBatch host target len batch) s = .next (s.refuse 0x30 0x0A)) ∧
    (¬bad → ∃ t, exec (.putBatch host target len batch) s = .next t ∧ t.ldg = { s.ldg with batch := some (target.toNat, len.toNat, batch.toNat) } ∧
      { t with ldg := s.ldg, hst := s.hst } = s)) ∧
  ∀ (s : State) (data : List Byte),
    (s.ldg.batch = none ∨ s.batchFed = true → exec (.batchLanded data) s = .next s) ∧
    ∀ target len batch, s.ldg.batch = some (target, len, batch) → target + len ≤ hbmBytes → s.f .LDG_CTRL_MODE = ldgOff →
      ∃ u : State, exec (.batchLanded data) s = .next (u.ok 0x30) ∧ bytesAre u target len data ∧ sameBytesBut s u target len ∧
        u.ldg = { s.ldg with batch := none } ∧ { u with hbm := s.hbm, ldg := s.ldg } = s

/-! ### Control cores, mailboxes and the host -/

/-- Whether master m may send on channel c: its identity agrees with SEND in the bits that SMASK keeps (R331). -/
def maySend (s : State) (m : Master) (c : Nat) : Prop :=
  (m ^^^ BitVec.ofNat 8 (s.f .MBX_BIND_SEND c)) &&& ~~~(BitVec.ofNat 8 (s.f .MBX_BIND_SMASK c)) = 0

/-- The lock of channel c is another master's (R333). -/
def lockedAway (s : State) (m : Master) (c : Nat) : Prop := s.f .MBX_STAT_LOCKED c = 1 ∧ s.f .MBX_STAT_OWNER c ≠ m.toNat

/-- The host's write at offset off of register space has been denied (R341). -/
def barDenied (s t : State) (off : Nat) : Prop :=
  t.f .HST_STATUS_BAR0_DENIED = 1 ∧ counted s t .HST_CNT_DENIED_COUNT ∧ t.f .HST_DENIED_ADDR_VALID = 1 ∧
  t.f .HST_DENIED_ADDR_OFF = (if s.f .HST_DENIED_ADDR_VALID = 1 then s.f .HST_DENIED_ADDR_OFF else off) ∧
  sameRegs s t (flds [.HST_STATUS_BAR0_DENIED, .HST_CNT_DENIED_COUNT, .HST_DENIED_ADDR_VALID, .HST_DENIED_ADDR_OFF]) ∧ onlyRegs s t

/-- The value a master's last read returned. -/
def readBack (t : State) (m : Master) (v : Nat) : Prop := Map.get 0 t.rdata m.toNat = v

/-- The mailboxes (R331-R336): MBX_SEND, MBX_TAKE, MBX_LOCK_ACQUIRE and MBX_LOCK_RELEASE; mastership and watchdogs (R328, R330): MASTER_CHANGE, WDOG_KICK
and WATCHDOG_EXPIRY; the L2 serves a writeback, then the control cores in ascending order, each after the store of the one before (R329). -/
def Obligations.MailboxesAndMasters : Prop :=
  (∀ (s : State) (m : Master) (ch : Fin 64) (v : BitVec 64),
    let c := ch.val
    let off := 0x40011000 + 0x40 * c
    (reachesRegs m.toNat = false → exec (.mbxSend m ch v) s = .next s) ∧
    (m = 0x00 → ¬maySend s m c → ∃ t, exec (.mbxSend m ch v) s = .next t ∧ barDenied s t (off + 8)) ∧
    (reachesRegs m.toNat = true → (m ≠ 0x00 ∨ maySend s m c) → (¬maySend s m c ∨ s.f .MBX_BIND_EN c = 0 ∨ v = 0 ∨ lockedAway s m c) →
      ∃ t, exec (.mbxSend m ch v) s = .next t ∧ t.f .MBX_STAT_DENIED c = 1 ∧ sameRegs s t (fldsAt [.MBX_STAT_DENIED] c) ∧ onlyRegs s t) ∧
    (reachesRegs m.toNat = true → maySend s m c → s.f .MBX_BIND_EN c = 1 → v ≠ 0 → ¬lockedAway s m c →
      ∃ t, exec (.mbxSend m ch v) s = .next t ∧ t.f .MBX_DATA_NOTICE c = v.toNat ∧ t.f .MBX_STAT_FULL c = 1 ∧ t.f .MBX_STAT_TAKEN c = 0 ∧
        t.f .MBX_STAT_ABORTED c = 0 ∧ t.f .MBX_STAT_LOCKED c = 0 ∧ counted s t .MBX_CNT_NOTICE_COUNT ∧
        (s.f .MBX_STAT_FULL c = 1 → t.f .MBX_STAT_COLLISION c = 1 ∧ counted s t .MBX_CNT_COLL_COUNT) ∧
        (s.f .MBX_STAT_FULL c = 0 → t.f .MBX_STAT_COLLISION c = s.f .MBX_STAT_COLLISION c ∧ t.f .MBX_CNT_COLL_COUNT = s.f .MBX_CNT_COLL_COUNT) ∧
        (s.f .MBX_BIND_RECV c = 0x20 → c ∈ t.sec.doorbell) ∧
        (∀ i, i < 8 → s.f .MBX_BIND_RECV c = 0x10 + i → (⟨i, false, .mailbox c⟩ : Irq) ∈ t.ctl.irqs))) ∧
  (∀ (s : State) (m : Master) (ch : Fin 64),
    let c := ch.val
    let same := fun t : State => { t with regs := s.regs, rdata := s.rdata } = s
    (reachesRegs m.toNat = false →
      exec (.mbxTake m ch) s = .next s ∧ exec (.mbxLockAcquire m ch) s = .next s ∧ exec (.mbxLockRelease m ch) s = .next s) ∧
    (reachesRegs m.toNat = true →
    (s.f .MBX_BIND_RECV c ≠ m.toNat → ∃ t, exec (.mbxTake m ch) s = .next t ∧ readBack t m 0 ∧ t.f .MBX_STAT_DENIED c = 1 ∧
      sameRegs s t (fldsAt [.MBX_STAT_DENIED] c) ∧ same t) ∧
    (s.f .MBX_BIND_RECV c = m.toNat → s.f .MBX_STAT_FULL c = 0 → ∃ t, exec (.mbxTake m ch) s = .next t ∧ readBack t m 0 ∧ { t with rdata := s.rdata } = s) ∧
    (s.f .MBX_BIND_RECV c = m.toNat → s.f .MBX_STAT_FULL c = 1 → ∃ t, exec (.mbxTake m ch) s = .next t ∧ readBack t m (s.f .MBX_DATA_NOTICE c) ∧
      t.f .MBX_STAT_FULL c = 0 ∧ t.f .MBX_STAT_TAKEN c = 1 ∧ sameRegs s t (fldsAt [.MBX_STAT_FULL, .MBX_STAT_TAKEN] c) ∧
      (m = 0x20 → c ∉ t.sec.doorbell) ∧ same { t with sec := s.sec }) ∧
    let grant := maySend s m c ∧ s.f .MBX_STAT_FULL c = 0 ∧ ¬lockedAway s m c
    (grant → ∃ t, exec (.mbxLockAcquire m ch) s = .next t ∧ readBack t m 0 ∧ t.f .MBX_STAT_LOCKED c = 1 ∧ t.f .MBX_STAT_OWNER c = m.toNat ∧
      sameRegs s t (fldsAt [.MBX_STAT_LOCKED, .MBX_STAT_OWNER] c) ∧ same t) ∧
    (¬grant → ∃ t, exec (.mbxLockAcquire m ch) s = .next t ∧ { t with rdata := s.rdata } = s ∧
      (lockedAway s m c → readBack t m (s.f .MBX_STAT_OWNER c + 2 ^ 8 + 2 ^ 9 * s.f .MBX_STAT_FULL c)) ∧
      (¬lockedAway s m c → readBack t m (2 ^ 9 * s.f .MBX_STAT_FULL c))) ∧
    (m = 0x00 → ¬maySend s m c → ∃ t, exec (.mbxLockRelease m ch) s = .next t ∧ barDenied s t (0x40011000 + 0x40 * c + 0x18)) ∧
    (m ≠ 0x00 ∨ maySend s m c →
      (s.f .MBX_STAT_LOCKED c = 0 ∨ lockedAway s m c → exec (.mbxLockRelease m ch) s = .next s) ∧
      (s.f .MBX_STAT_LOCKED c = 1 → ¬lockedAway s m c → ∃ t, exec (.mbxLockRelease m ch) s = .next t ∧ t.f .MBX_STAT_LOCKED c = 0 ∧
        sameRegs s t (fldsAt [.MBX_STAT_LOCKED, .MBX_STAT_OWNER] c) ∧ onlyRegs s t)))) ∧
  (∀ (s : State) (m : Master) (i : Fin 8) (limit : BitVec 16),
    (m.toNat ≠ 0x10 + s.f .CTL_MASTER_CORE → exec (.masterChange m i) s = .next s) ∧
    (m.toNat = 0x10 + s.f .CTL_MASTER_CORE → s.runsImmediate = true →
      exec (.masterChange m i) s = .next { s with ctl := { s.ctl with handover := some i.val } }) ∧
    (m.toNat = 0x10 + s.f .CTL_MASTER_CORE → s.runsImmediate = false → ∃ t, exec (.masterChange m i) s = .next t ∧ t.f .CTL_MASTER_CORE = i.val ∧
      (∀ q ∈ t.ctl.irqs, q.viaMaster = true → q.ctl = i.val) ∧ t.ctl.irqs.length = s.ctl.irqs.length ∧ sameRegs s t (flds [.CTL_MASTER_CORE]) ∧
      t.ctl.handover = none ∧ { t with regs := s.regs, ctl := { t.ctl with irqs := s.ctl.irqs, handover := s.ctl.handover } } = s) ∧
    (∃ t, exec (.wdogKick i limit) s = .next t ∧ t.f .CTL_WDOG_LIMIT i = limit.toNat ∧ sameRegs s t (fldsAt [.CTL_WDOG_LIMIT] i) ∧ onlyRegs s t)) ∧
  (∀ (s : State) (i : Fin 8),
    (s.f .CTL_WDOG_LIMIT i = 0 ∨ (s.f .CTL_STATUS_RUNNING).testBit i = false → exec (.watchdogExpiry i) s = .next s) ∧
    (s.f .CTL_WDOG_LIMIT i ≠ 0 → (s.f .CTL_STATUS_RUNNING).testBit i = true → ∃ t, exec (.watchdogExpiry i) s = .next t ∧
      (t.f .CTL_STATUS_RESTARTED).testBit i = true ∧ (t.f .CTL_STATUS_RUNNING).testBit i = true ∧ counted s t .CTL_CNT_RESTART_COUNT ∧
      (∀ c, c < 64 → s.f .MBX_BIND_RECV c = 0x10 + i.val → t.f .MBX_STAT_FULL c = 0 ∧ t.f .MBX_DATA_NOTICE c = 0 ∧ t.f .MBX_STAT_ABORTED c = 1) ∧
      (∀ c, c < 64 → s.f .MBX_STAT_LOCKED c = 1 → s.f .MBX_STAT_OWNER c = 0x10 + i.val → t.f .MBX_STAT_LOCKED c = 0) ∧
      (⟨t.f .CTL_MASTER_CORE, true, .watchdog i⟩ : Irq) ∈ t.ctl.irqs ∧
      (s.f .CTL_MASTER_CORE ≠ i → t.f .CTL_MASTER_CORE = s.f .CTL_MASTER_CORE ∧ t.hst = s.hst) ∧
      (s.f .CTL_MASTER_CORE = i → t.f .CTL_MASTER_CORE = (if i.val = 2 then 0 else 2) ∧ t.f .CTL_MASTER_TAKEOVER = 1 ∧ t.hst.multi = none ∧
        (∀ x ∈ t.hst.taken, x ∈ s.hst.taken ∧ x.started = true) ∧
        (s.hst.multi = none → t.hst.taken = s.hst.taken.filter (fun x => x.started))))) ∧
  ∀ s : State, s.ctl.l2 ≠ [] → (s.l2Cycle).ctl.l2 = [] ∧ { s.l2Cycle with ctl := s.ctl } = s ∧
    ∀ (line : Nat) (c d w : Nat) (p q r : List (Nat × Byte)), 0x10 ≤ c → c < d → d ≤ 0x17 → 0x10 ≤ w → w ≤ 0x17 →
      s.ctl.l2 = [⟨d, line, .own, p⟩, ⟨c, line, .own, q⟩, ⟨w, line, .writeback, r⟩] →
      ∃ x y, s.l2Cycle.ctl.answers = s.ctl.answers ++ [⟨c, line, x⟩, ⟨d, line, y⟩] ∧ Map.get none s.l2Cycle.ctl.owner line = some d ∧
        (r = [] → x = s.ctl.sram.rdBytes (64 * line) 64) ∧ (q = [] → y = x) ∧
        (∀ o b, o < 64 → q = [(o, b)] → byteAt y o = b ∧ ∀ o', o' ≠ o → byteAt y o' = byteAt x o')

/-- The command entry as the master reads it (R343). -/
def entryOf (s : State) (e : List Byte) (x : Taken) : Prop :=
  x.idx = s.f .HST_CQ_HEAD_HEAD ∧ x.code = leAt e 0 2 ∧ x.cmdId = leAt e 4 4 ∧ x.step = leAt e 2 1 ∧ x.last = (byteAt e 3).getLsbD 0 ∧
  x.irq = (byteAt e 3).getLsbD 1 ∧ x.ptr = leAt e 8 8 ∧ x.started = false ∧ x.armed = false

/-- The entry has been read: HEAD moved on, and one command counted (R344). -/
def entryRead (s t : State) : Prop :=
  t.f .HST_CQ_HEAD_HEAD = (s.f .HST_CQ_HEAD_HEAD + 1) % 2 ^ s.f .HST_CQ_CFG_LOG2 % 2 ^ 16 ∧ counted s t .HST_CNT_CMD_COUNT

/-- The entry at HEAD completes at once with a status and nothing else: no command is outstanding by it (R345, R349). -/
def rejectedAs (s : State) (e : List Byte) (ok : Bool) (status : Nat) : Prop :=
  ∃ u : State, exec (.commandTake e ok) s = .next (u.cplDeliver ⟨s.f .HST_CQ_HEAD_HEAD, leAt e 4 4, leAt e 2 1, (byteAt e 3).getLsbD 1, status, 0⟩) ∧
    entryRead s u ∧ u.hst.taken = s.hst.taken ∧ u.hst.multi = none

/-- The host interface (R342-R350): DOORBELL, COMMAND_TAKE, CPL_HEAD_WRITE, NOP_COMMAND, SET_WALL_TIME (R57), FUNCTION_LEVEL_RESET, CONFIG_REQUEST (R386),
SIDEBAND_READ and TELEMETRY_REFRESH (R352, R353). -/
def Obligations.HostCommands : Prop :=
  (∀ (s : State) (tail : BitVec 16),
    let shut := s.f .HST_STATUS_READY = 0 ∨ s.f .HST_CTRL_CQ_EN = 0
    ∃ t, exec (.doorbell tail) s = .next t ∧ t.ldg.run = none ∧
      (shut → t.f .HST_STATUS_DB_LOST = 1 ∧ counted s t .HST_CNT_DBLOST_COUNT ∧ t.f .HST_CQ_TAIL_TAIL = s.f .HST_CQ_TAIL_TAIL) ∧
      (¬shut → t.f .HST_CQ_TAIL_TAIL = tail.toNat ∧ t.f .HST_STATUS_DB_LOST = s.f .HST_STATUS_DB_LOST) ∧
      (s.ldg.run = none → sameRegs s t (flds [.HST_STATUS_DB_LOST, .HST_CNT_DBLOST_COUNT, .HST_CQ_TAIL_TAIL]) ∧ onlyRegs s t)) ∧
  (∀ (s : State) (e : List Byte) (ok : Bool),
    let can := s.f .HST_STATUS_READY = 1 ∧ s.f .HST_CTRL_CQ_EN = 1 ∧ s.f .HST_CQ_HEAD_HEAD ≠ s.f .HST_CQ_TAIL_TAIL % 2 ^ s.f .HST_CQ_CFG_LOG2 ∧
      s.hst.cplFull = false ∧ s.hst.held = [] ∧ (∀ x ∈ s.hst.taken, x.started = true) ∧ s.rgnStopped 16 = false ∧
      (∀ p ∈ s.hbms, ∀ q ∈ p.2.queue, q.owner ≠ .host) ∧ s.ctl.handover = none ∧ s.fedCommand = true
    let code := leAt e 0 2
    let step := leAt e 2 1
    let last := (byteAt e 3).getLsbD 0
    (¬can → exec (.commandTake e ok) s = .next s) ∧
    (can → s.hst.multi = none →
      (step ≠ 0 → rejectedAs s e ok 0x04) ∧
      (step = 0 → (∀ r ∈ cmdTable, r.1 ≠ code) → rejectedAs s e ok 0x03) ∧
      ∀ kind args, step = 0 → (code, kind, args) ∈ cmdTable →
        (badBytes e code step last args = true → rejectedAs s e ok 0x03) ∧
        (badBytes e code step last args = false →
          (kind ≠ .immediate → s.outstanding code = true → rejectedAs s e ok 0x05) ∧
          (kind = .immediate ∨ s.outstanding code = false →
            (leAt e 8 8 ≠ 0 → ok = false → rejectedAs s e ok 0x06) ∧
            (leAt e 8 8 = 0 ∨ ok = true → ¬(kind = .multi ∧ last = false ∧ code = 0x10) →
              ∃ t x, exec (.commandTake e ok) s = .next t ∧ entryRead s t ∧ entryOf s e x ∧ t.hst.taken = s.hst.taken ++ [x] ∧
                t.hst.multi = if kind = .multi ∧ last = false then some x else none)))) ∧
    (∀ o, can → s.hst.multi = some o → (code ≠ o.code ∨ leAt e 4 4 ≠ o.cmdId ∨ step ≠ o.step + 1) →
      ∃ t, exec (.commandTake e ok) s = .next t ∧ entryRead s t ∧ t.hst.multi = none ∧
        t.hst.taken = s.hst.taken.filter (fun x => x.idx != o.idx || x.code != o.code))) ∧
  (∀ (s : State) (head : BitVec 16), ∃ t l, exec (.cplHeadWrite head) s = .next t ∧ t.f .HST_CPL_HEAD_HEAD = head.toNat ∧ s.hst.held = l ++ t.hst.held ∧
    (t.f .HST_STATUS_CPL_STALL = 1 ↔ t.hst.cplFull = true ∨ t.hst.held ≠ []) ∧
    (s.hst.held = [] → t.hst.cplFull = false ∧ sameRegs s t (flds [.HST_CPL_HEAD_HEAD, .HST_STATUS_CPL_STALL]))) ∧
  (∀ s : State, exec .nopCommand s = .next (s.ok 0x01)) ∧
  (∀ (s : State) (secs : BitVec 64) (ns : BitVec 32) (sample : Bool),
    let bad := 1000000000 ≤ ns.toNat ∨ 2 ^ 48 ≤ secs.toNat
    (bad → exec (.setWallTime secs ns sample) s = .next (s.refuse 0x41 0x0A)) ∧
    (¬bad → ∃ u : State, exec (.setWallTime secs ns sample) s = .next (u.ok 0x41) ∧
      (sample = true → u.ctl = { s.ctl with sample := some (secs.toNat, ns.toNat) } ∧ { u with ctl := s.ctl } = s) ∧
      (sample = false → u.f .BEL_WALL_S_S = secs.toNat ∧ u.f .BEL_WALL_NS_NS = ns.toNat ∧ u.bel.wallFrac = 0 ∧
        sameRegs s u (flds [.BEL_WALL_SET_S_S, .BEL_WALL_SET_NS_NS, .BEL_WALL_S_S, .BEL_WALL_NS_NS])))) ∧
  (∀ s : State, ∃ t, exec .functionLevelReset s = .next t ∧ counted s t .RST_CNT_FUNC_COUNT ∧ t.hst.taken = [] ∧ t.hst.multi = none ∧ t.hst.held = [] ∧
    t.hst.busMaster = false ∧ t.hst.phase = true ∧ t.f .HST_STATUS_READY = s.f .HST_STATUS_READY ∧ t.f .HST_CTRL_CQ_EN = 0 ∧ t.f .HST_CQ_HEAD_HEAD = 0 ∧
    t.f .HST_CPL_CFG_LOG2 = 6 ∧ t.f .HST_MSIX_CTRL_MASK 5 = 1 ∧
    (s.hst.taken = [] → s.hst.multi = none → t.f .HST_STATUS_ABORTS = s.f .HST_STATUS_ABORTS ∧ t.cores = s.cores ∧ t.hbm = s.hbm) ∧
    (∀ x, s.hst.taken = [x] → s.hst.multi = none → s.f .HST_ABORT_VALID 0 = 0 → t.f .HST_STATUS_ABORTS = 1 ∧ t.f .HST_ABORT_VALID 0 = 1 ∧
      t.f .HST_ABORT_CMD_ID 0 = x.cmdId % 2 ^ 32 ∧ t.f .HST_ABORT_CODE 0 = x.code % 2 ^ 16 ∧ t.f .HST_ABORT_ARMED 0 = x.armed.toNat) ∧
    ∀ c, c < 64 → s.f .MBX_BIND_RECV c = 0 → s.hst.taken = [] → s.hst.multi = none → t.f .MBX_STAT_FULL c = 0 ∧ t.f .MBX_STAT_ABORTED c = 1) ∧
  (∀ (s : State) (a : BitVec 12),
    ((s.f .CTL_STATUS_RUNNING).testBit 0 = false → exec (.configRequest a) s = .next { s with hst := { s.hst with cfgStatus := 2 } }) ∧
    ((s.f .CTL_STATUS_RUNNING).testBit 0 = true → ∃ t v, exec (.configRequest a) s = .next t ∧ t.hst = { s.hst with cfgStatus := 0 } ∧ readBack t 0x00 v ∧
      (a.toNat / 4 = 0 → v / 2 ^ 16 = 0x0901) ∧ (a.toNat / 4 = 2 → v / 2 ^ 8 = 0x120000) ∧ { t with hst := s.hst, rdata := s.rdata } = s)) ∧
  (∀ (s : State) (i : BitVec 8),
    let word := if i.toNat = 3 then s.f .CTL_FW_VER_VER else if 0x08 ≤ i.toNat ∧ i.toNat ≤ 0x13 then s.f .HBM_TEMP_DEG (i.toNat - 8) else Map.get 0 s.ctl.telem i.toNat
    (s.rst.boot = 0 → exec (.sidebandRead i) s = .next { s with ctl := { s.ctl with sbOut := [] } }) ∧
    (s.rst.boot ≠ 0 → ∃ t, exec (.sidebandRead i) s = .next t ∧ (3 ≤ i.toNat → readBack t 0x01 word) ∧
      (i = 2 → readBack t 0x01 (s.f .CHIP_ADDR_POSITION + 4 * s.f .CHIP_ADDR_BOARD + 32 * s.f .CHIP_ADDR_GROUP + 2 ^ Fld.CHIP_ADDR_LOCK.lo * s.f .CHIP_ADDR_LOCK)) ∧
      t.ctl.sbOut.take 4 = leBytes 4 (Map.get 0 t.rdata 0x01) ∧ t.ctl.sbOut.length = (if s.fuse.sbI3c then 4 else 5) ∧
      (s.fuse.sbI3c = true → t.ctl.sbIdx = i.toNat) ∧ { t with rdata := s.rdata, ctl := { t.ctl with sbOut := s.ctl.sbOut, sbIdx := s.ctl.sbIdx } } = s)) ∧
  ∀ s : State, ∃ t, exec .telemetryRefresh s = .next t ∧ { t with ctl := { t.ctl with telem := s.ctl.telem } } = s ∧
    Map.get 0 t.ctl.telem 0x05 = s.f .PWR_PKG_W ∧ Map.get 0 t.ctl.telem 0x06 = s.f .PWR_CLASS_ACT ∧ Map.get 0 t.ctl.telem 0x07 = s.f .PWR_TEMP_COMPUTE ∧
    (∀ n, n < 32 → (Map.get 0 t.ctl.telem 0x18).testBit n = decide (s.f .LNK_STATUS_STATE n = lkUp) ∧
      (Map.get 0 t.ctl.telem 0x19).testBit n = decide (s.f .LNK_STATUS_STATE (32 + n) = lkUp)) ∧
    Map.get 0 t.ctl.telem 0x22 = s.f .LIF_POH_S / 3600 ∧ ∀ i, 0x24 ≤ i → Map.get 0 t.ctl.telem i = Map.get 0 s.ctl.telem i

/-! ### Security -/

/-- The chip has been zeroised for this cause (R363, R364): no identity key, DRBG state or RAM of the module is left, no link has a key, the module is not
in its approved mode, and the step has stopped. -/
def zeroised (t : State) (cause : Fld) : Prop :=
  t.f .SEC_STATUS_ZEROISED = 1 ∧ t.f cause = 1 ∧ t.f .SEC_STATUS_APPROVED = 0 ∧ t.sec.idKey = 0 ∧ t.sec.drbg = 0 ∧ t.sec.ram = [] ∧
  t.f .CHIP_HALT_STOPPED = 1 ∧ ∀ n, n < 64 → (t.link n).keyZ = none ∧ (t.link n).nextKey = none

/-- ZEROISE, TAMPER, ENTROPY_FAILURE (R356, R363, R364), ATTEST (R361) and DEBUG_UNLOCK (R362). -/
def Obligations.SecurityModule : Prop :=
  (∀ (s : State) (word : BitVec 32) (clear : Bool),
    (word ≠ 0x5A45524F → exec (.zeroise word clear) s = .next (s.refuse 0x52 0x0A)) ∧
    (word = 0x5A45524F → ∃ u : State, exec (.zeroise word clear) s = .next (u.ok 0x52) ∧ zeroised u .SEC_ZCAUSE_COMMAND ∧
      (clear = true → u.hbm = [] ∧ ∀ n, (u.core n).store = []))) ∧
  (∀ (s : State) (cause : Fin 4), ∃ t, exec (.tamper cause) s = .next t ∧ t.f .SEC_STATUS_TAMPER = 1 ∧
    zeroised t (if cause = 0 then .SEC_ZCAUSE_LID else if cause = 1 then .SEC_ZCAUSE_VOLT else if cause = 2 then .SEC_ZCAUSE_TEMP else .SEC_ZCAUSE_CLOCK) ∧
    (t.sec.lidClosed = if cause = 0 then false else s.sec.lidClosed) ∧ t.sec.otp = s.sec.otp) ∧
  (∀ s : State, ∃ t, exec .entropyFailure s = .next t ∧ zeroised t .SEC_ZCAUSE_ENTROPY ∧ t.sec.otp = s.sec.otp) ∧
  (∀ (s : State) (buf : Word) (plen : BitVec 32) (nonce : List Byte),
    (plen.toNat < 1024 → exec (.attest buf plen nonce) s = .next (s.refuse 0x51 0x0A)) ∧
    (1024 ≤ plen.toNat → s.f .SEC_STATUS_ZEROISED = 1 → exec (.attest buf plen nonce) s = .next (s.refuse 0x51 0x07)) ∧
    (1024 ≤ plen.toNat → s.f .SEC_STATUS_ZEROISED = 0 → ∃ u : State, exec (.attest buf plen nonce) s = .next (u.ok 0x51) ∧
      counted s u .SEC_CNT_ATTEST_COUNT ∧ sameRegs s u (flds [.SEC_CNT_ATTEST_COUNT]) ∧
      (s.hst.busMaster = true → (∀ i, i < 48 → u.hst.hostMem.rd (buf.toNat + 8 + i) = byteAt nonce i) ∧
        leVal ((List.range 2).map (fun i => u.hst.hostMem.rd (buf.toNat + 56 + i))) = s.chipAddr ∧ u.hst.hostMem.rd buf.toNat = 1) ∧
      (s.hst.busMaster = false → onlyRegs s u))) ∧
  ∀ (s : State) (token : List Byte),
    (s.tokenOk token = true → ∃ t, exec (.debugUnlock token) s = .next t ∧ zeroised t .SEC_ZCAUSE_DEBUG ∧ t.f .SEC_STATUS_DEBUG = 1) ∧
    (s.tokenOk token = false → ∃ t, exec (.debugUnlock token) s = .next t ∧ t.f .SEC_DBG_NONCE_NONCE = Config.freeNat s.free % 2 ^ 64 ∧
      sameRegs s t (flds [.SEC_DBG_NONCE_NONCE]) ∧ { t with regs := s.regs, free := s.free } = s)

/-! ### The lifetime store and firmware update -/

/-- The NOR after an operation: each byte programmed, a whole sector of 64 KiB erased, every other byte as it was (R368). The NOR holds each byte
complemented, so that an erased byte is the unlisted one. -/
def norDid (s t : State) (o : NorOp) : Prop :=
  (∀ bs, o.data = some bs → ∀ x, t.lif.nor.rd x =
    if o.addr ≤ x ∧ x < o.addr + bs.length then ~~~(byteAt bs (x - o.addr)) else s.lif.nor.rd x) ∧
  (o.data = none → ∀ x, t.lif.nor.rd x = if x / 0x10000 = o.addr / 0x10000 then 0 else s.lif.nor.rd x)

/-- An update's step is refused for a reason: the update is gone, and so is the open multi-step command (R349, R372). -/
def updateRefused (s : State) (i : Instr) (reason : Nat) : Prop :=
  ∃ u : State, exec i s = .next (u.refuse 0x50 reason) ∧ u.fwu = none ∧ u.hst.multi = none

/-- NOR_OP_START, NOR_OP_COMPLETE, HOLDUP_RETRY and HOLDUP_REFUSAL_TIMEOUT (R368, R369, R372), JOURNAL_RECORD (R370), FW_UPDATE (R359, R372),
FW_CORE_RESTART and FW_RESTART_TIMEOUT (R373). -/
def Obligations.LifetimeAndFirmware : Prop :=
  (∀ s : State,
    (s.lif.running ≠ none ∨ s.lif.queue = [] → exec .norOpStart s = .next s) ∧
    ∀ o r, s.lif.running = none → s.lif.queue = o :: r →
      (s.f .LIF_HOLDUP_OK = 0 → ∃ t, exec .norOpStart s = .next t ∧ t.lif.queue = r ∧ t.lif.running = none ∧ o ∈ t.lif.waiting ∧
        (∀ x ∈ s.lif.waiting, x ∈ t.lif.waiting) ∧ t.lif.nor = s.lif.nor ∧ t.f .LIF_STATUS_REFUSED = 1 ∧ counted s t .LIF_CNT_REFUSED_COUNT ∧
        sameRegs s t (flds [.LIF_STATUS_REFUSED, .LIF_CNT_REFUSED_COUNT])) ∧
      (s.f .LIF_HOLDUP_OK = 1 → ∃ t, exec .norOpStart s = .next t ∧ t.lif = { s.lif with queue := r, running := some o } ∧ t.f .LIF_STATUS_BUSY = 1 ∧
        sameRegs s t (flds [.LIF_STATUS_BUSY]) ∧ { t with regs := s.regs, lif := s.lif } = s)) ∧
  (∀ s : State,
    (s.lif.running = none → exec .norOpComplete s = .next s) ∧
    ∀ o, s.lif.running = some o →
      (s.rst.wait = none → ∃ t, exec .norOpComplete s = .next t ∧ norDid s t o ∧ t.lif.running = none ∧ t.f .LIF_STATUS_BUSY = 0 ∧
        ∀ bs, o.user = .journal → o.data = some bs → t.lif.record = bs ∧ t.f .LIF_SEQ_SEQ = leAt bs 8 8 ∧ counted s t .LIF_CNT_WRITES_COUNT) ∧
      (∀ cause, s.rst.wait = some cause → cause < 8 → ∃ t, exec .norOpComplete s = .next t ∧ norDid s t o ∧ t.f .RST_CAUSE_CAUSE = cause ∧
        t.f .RST_CAUSE_NOR_WAIT = 1 ∧ t.rst.boot = 1 ∧ t.rst.wait = none)) ∧
  (∀ s : State,
    let mine := fun o : NorOp => o.user != .journal
    (s.updBusy = true ∨ s.lif.waiting.find? mine = none → exec .holdupRetry s = .next s) ∧
    ∀ o, s.updBusy = false → s.lif.waiting.find? mine = some o →
      (s.mayIssue o = true → ∃ t, exec .holdupRetry s = .next t ∧ t.lif.queue = s.lif.queue ++ [o] ∧ t.lif.waiting = s.lif.waiting.erase o ∧
        t.lif.retryGap = false ∧ { t with lif := s.lif } = s) ∧
      (s.mayIssue o = false → ∃ t, exec .holdupRetry s = .next t ∧ t.lif = { s.lif with retryGap := true } ∧ counted s t .LIF_CNT_REFUSED_COUNT ∧
        sameRegs s t (flds [.LIF_CNT_REFUSED_COUNT]) ∧ { t with regs := s.regs, lif := s.lif } = s)) ∧
  (∀ s : State,
    ((∀ u, s.fwu = some u → u.stage ≠ 1 ∨ s.lif.retryGap = false) → exec .holdupRefusalTimeout s = .next s) ∧
    (∀ u, s.fwu = some u → u.stage = 1 → s.lif.retryGap = true → updateRefused s .holdupRefusalTimeout 0x0C)) ∧
  (∀ s : State,
    (s.f .LIF_CTRL_EN = 0 → exec .journalRecord s = .next s) ∧
    (s.f .LIF_CTRL_EN = 1 → s.lif.waiting = [] → s.lif.queue = [] → s.lif.running = none →
      (s.recErased s.lif.next = false → ∃ t, exec .journalRecord s = .next t ∧ t.f .LIF_STATUS_JOURNAL_ERR = 1 ∧ t.lif.queue = [] ∧ t.lif.nor = s.lif.nor) ∧
      (s.recErased s.lif.next = true → s.mayIssue ⟨.journal, 0x16, 0, some []⟩ = true → ∃ t bs, exec .journalRecord s = .next t ∧
        t.lif.queue = [⟨.journal, 0x16, 0x2000000 + 4096 * s.lif.next, some bs⟩] ∧ leAt bs 0 4 = 0x5244434C ∧
        leAt bs 8 8 = (s.f .LIF_SEQ_SEQ + 1) % 2 ^ 64 ∧ leAt bs 16 8 = s.now % 2 ^ 64 ∧ t.lif.next = (s.lif.next + 1) % 8192 ∧ t.lif.events = [] ∧
        onlyRegs { s with lif := t.lif, free := t.free } t ∧ t.regs = s.regs))) ∧
  (∀ (s : State) (step : BitVec 8) (last : Bool) (act : BitVec 8) (off : Word) (data : List Byte),
    let i := Instr.fwUpdate step last act off data
    (step = 0 → 2 < act.toNat → updateRefused s i 0x0A) ∧
    (step = 0 → act = 2 → (last = false ∨ data ≠ []) → updateRefused s i 0x0A) ∧
    (step = 0 → act = 2 → last = true → data = [] →
      (s.f .SEC_SVN_RUN ≤ s.f .SEC_SVN_MIN → exec i s = .next (s.ok 0x50)) ∧
      (s.f .SEC_SVN_MIN < s.f .SEC_SVN_RUN → ∃ u : State, exec i s = .next (u.ok 0x50) ∧ u.f .SEC_SVN_MIN = s.f .SEC_SVN_RUN ∧
        u.fuse = { s.fuse with svn := s.f .SEC_SVN_RUN })) ∧
    (step = 0 → act.toNat < 2 → last = false → ∃ u : State, exec i s = .next (u.ok 0x50) ∧ (∃ w, u.fwu = some w ∧ w.act = act.toNat ∧ w.stage = 0 ∧ w.body = [] ∧
      w.header.length = 512 ∧ ∀ k, k < 512 → byteAt w.header k = byteAt data k) ∧ { u with fwu := s.fwu } = s) ∧
    (step ≠ 0 → s.fwu = none → updateRefused s i 0x07) ∧
    ∀ u, step ≠ 0 → s.fwu = some u →
      (u.stage ≠ 0 → exec i s = .next s) ∧
      (u.stage = 0 →
        let bad := data.length % 4096 ≠ 0 ∨ 0x100000 < data.length ∨ (data = [] ∧ last = false)
        let body := u.body.wrBytes off.toNat data
        let img := s.imageOk u.header (body.rdBytes 0 (leAt u.header 16 4))
        (bad → updateRefused s i 0x0A) ∧
        (¬bad → last = false → ∃ v : State, exec i s = .next (v.ok 0x50) ∧ v.fwu = some { u with body := body } ∧ { v with fwu := s.fwu } = s) ∧
        (¬bad → last = true → img = false → updateRefused s i 0x0B) ∧
        (¬bad → last = true → img = true → ∃ t w, exec i s = .next t ∧ t.fwu = some w ∧ w.stage = 1 ∧ w.slot = 1 - s.f .SEC_BOOT_SLOT ∧
          w.header = u.header ∧ w.body = body ∧ (u.act ≠ 1 → w.held = false)))) ∧
  (∀ s : State,
    ((∀ u, s.fwu = some u → u.stage ≠ 2 ∨ s.mayRestart u.restarted = false) → exec .fwCoreRestart s = .next s) ∧
    (∀ u, s.fwu = some u → u.stage = 2 → s.mayRestart u.restarted = true →
      (u.restarted = 0 → ∃ t, exec .fwCoreRestart s = .next t ∧ t.f .CTL_FW_VER_VER = leAt u.header 8 4 ∧ t.f .CTL_MASTER_CORE = 0 ∧
        t.fwu = some { u with restarted := 1 }) ∧
      (0 < u.restarted → u.restarted < 7 → ∃ t, exec .fwCoreRestart s = .next t ∧ t.fwu = some { u with restarted := u.restarted + 1 } ∧
        (t.f .CTL_STATUS_RUNNING).testBit u.restarted = true ∧ t.f .CTL_MASTER_CORE = s.f .CTL_MASTER_CORE) ∧
      (u.restarted = 7 → ∃ v : State, exec .fwCoreRestart s = .next (v.complete 0x50 cOk (leAt u.header 8 4)) ∧ v.fwu = none ∧
        v.f .SEC_SVN_RUN = leAt u.header 12 4 % 2 ^ 7 ∧ v.sec.body = leAt u.header 24 48))) ∧
  ∀ s : State,
    ((∀ u, s.fwu = some u → u.stage ≠ 2) → exec .fwRestartTimeout s = .next s) ∧
    (∀ u, s.fwu = some u → u.stage = 2 → ∃ v : State, exec .fwRestartTimeout s = .next (v.refuse 0x50 0x0B) ∧ v.fwu = none ∧
      v.f .CTL_FW_VER_VER = u.old % 2 ^ 32 ∧ v.f (if u.slot = 0 then .SEC_VER_A_VER else .SEC_VER_B_VER) = 0)

/-! ### Power, resets and start-up -/

/-- The common target of a class in MHz, by the part's speed (R374). -/
def classTarget (s : State) (c : Nat) : Nat :=
  if s.fuse.speed = 0 then [1740, 1820, 1900].getD c 1900 else [1560, 1630, 1700].getD c 1700

/-- A class change to c at bell b has been written to the frequency change registers: every core and fabric region (R376). -/
def classAsked (s t : State) (c b : Nat) : Prop :=
  t.f .CLK_FCHG_TARGET_MHZ = classTarget s c ∧ t.f .CLK_FCHG_MASK_REGIONS = allRegions % 2 ^ 24 ∧ t.f .CLK_FCHG_BELL_BELL = b % 2 ^ 32 ∧
  t.f .PWR_CLASS_ACT = s.f .PWR_CLASS_ACT

/-- Cluster k is in KO: no voltage, no lock, and its core stores are lost (R384). -/
def isOff (t : State) (k : Nat) : Prop :=
  t.f .PWR_CLU_OFF k = 1 ∧ t.f .PWR_CLU_VDD_MV k = 0 ∧ t.f .CLK_RGN_STATUS_LOCKED k = 0 ∧ ∀ j, j < 8 → (t.core (8 * k + j)).store = []

/-- THERMAL_TRIP (R40, R378), CLASS_DESCENT (R379), CRITICAL_TEMP (R380), POWER_MEASURE (R377, R370), PWR_THERM_TRIPLE_CHECK, SET_POWER_CLASS (R376), and
SHUTDOWN with its links (R388). -/
def Obligations.PowerAndShutdown : Prop :=
  (∀ (s : State) (k : Fin 16) (deg : BitVec 8),
    let cool := deg.toNat < s.pwr.trip ∨ s.f .CLK_RGN_STATUS_HALVED k = 1
    (cool → ∃ t, exec (.thermalTrip k deg) s = .next t ∧ t.f .PWR_CLU_DEG k = deg.toNat ∧ sameRegs s t (fldsAt [.PWR_CLU_DEG] k) ∧ onlyRegs s t) ∧
    (¬cool → ∃ t, exec (.thermalTrip k deg) s = .next t ∧ t.f .PWR_CLU_DEG k = deg.toNat ∧ t.f .CLK_RGN_STATUS_HALVED k = 1 ∧
      counted s t .PWR_CNT_THERM_COUNT ∧ (s.f .PWR_CTRL_THERM_IRQ_EN = 1 → (⟨7, false, .thermal k⟩ : Irq) ∈ t.ctl.irqs))) ∧
  (∀ s : State,
    let still := (∀ k, k < 16 → s.f .CLK_RGN_STATUS_HALVED k = 0) ∨ s.clk.fchg ≠ none
    let low := if s.load.loaded then s.f .PWR_CLASS_LOW else 0
    (still → exec .classDescent s = .next s) ∧
    (¬still → s.f .PWR_CLASS_ACT ≤ low → ∃ t, exec .classDescent s = .next t ∧ stepStopped s t 1 ∧ sameRegs s t (flds haltFlds) ∧ sameBytes s t) ∧
    (¬still → low < s.f .PWR_CLASS_ACT → (s.admittedBell = none → exec .classDescent s = .next s) ∧
      ∀ b, s.admittedBell = some b → ∃ t, exec .classDescent s = .next t ∧ classAsked s t (s.f .PWR_CLASS_ACT - 1) b)) ∧
  (∀ (s : State) (deg : BitVec 8),
    (deg.toNat < s.pwr.crit → exec (.criticalTemp deg) s = .next s) ∧
    (s.pwr.crit ≤ deg.toNat → ∃ t, exec (.criticalTemp deg) s = .next t ∧ t.f .PWR_STATUS_CRIT = 1 ∧ t.f .CHIP_HALT_STOPPED = 1 ∧
      t.f .CHIP_HALT_CAUSE = (if s.f .CHIP_HALT_STOPPED = 1 then s.f .CHIP_HALT_CAUSE else 8) ∧ ∀ k, k < 16 → isOff t k)) ∧
  (∀ (s : State) (watts : BitVec 16) (hold : BitVec 12) (ok : Bool) (temps : BitVec 32),
    let sum := s.pwr.sum + watts.toNat
    let above := 1000 * (2200 + 400 * s.f .PWR_CLASS_ACT) < sum
    ∃ t, exec (.powerMeasure watts hold ok temps) s = .next t ∧ t.f .PWR_PKG_W = watts.toNat ∧ t.f .LIF_HOLDUP_V = min hold.toNat 2880 ∧ t.f .LIF_HOLDUP_OK = ok.toNat ∧
      t.f .PWR_TEMP_COMPUTE = temps.toNat % 256 ∧ t.f .PWR_TEMP_PORT0 = temps.toNat / 2 ^ 8 % 256 ∧ t.f .PWR_TEMP_PORT1 = temps.toNat / 2 ^ 16 % 256 ∧
      t.f .PWR_TEMP_PHY = temps.toNat / 2 ^ 24 ∧
      (s.pwr.samples + 1 < 1000 → t.pwr = { s.pwr with samples := s.pwr.samples + 1, sum := sum } ∧ t.f .LIF_POH_S = s.f .LIF_POH_S) ∧
      (1000 ≤ s.pwr.samples + 1 → t.pwr = { s.pwr with samples := 0, sum := 0 } ∧ counted s t .LIF_POH_S ∧
        t.f .LIF_ENERGY_J = min (s.f .LIF_ENERGY_J + sum / 1000) (2 ^ 64 - 1) ∧ (above → t.f .PWR_STATUS_OVER = 1 ∧ counted s t .PWR_CNT_OVER_COUNT) ∧
        (¬above → t.f .PWR_STATUS_OVER = s.f .PWR_STATUS_OVER ∧ t.f .PWR_CNT_OVER_COUNT = s.f .PWR_CNT_OVER_COUNT)) ∧
      sameRegs s t (flds [.PWR_PKG_W, .LIF_HOLDUP_V, .LIF_HOLDUP_OK, .PWR_TEMP_COMPUTE, .PWR_TEMP_PORT0, .PWR_TEMP_PORT1, .PWR_TEMP_PHY, .LIF_TCYC_COUNT,
        .PWR_STATUS_OVER, .PWR_CNT_OVER_COUNT, .LIF_POH_S, .LIF_ENERGY_J])) ∧
  (∀ s : State,
    let good := s.f .PWR_THERM_RELEASE < s.f .PWR_THERM_TRIP ∧ s.f .PWR_THERM_TRIP < s.f .PWR_THERM_CRIT
    (good → ∃ t, exec .pwrThermTripleCheck s = .next t ∧
      t.pwr = { s.pwr with trip := s.f .PWR_THERM_TRIP, release := s.f .PWR_THERM_RELEASE, crit := s.f .PWR_THERM_CRIT } ∧ { t with pwr := s.pwr } = s) ∧
    (¬good → ∃ t, exec .pwrThermTripleCheck s = .next t ∧ t.f .PWR_STATUS_CFG_MISMATCH = 1 ∧ sameRegs s t (flds [.PWR_STATUS_CFG_MISMATCH]) ∧
      onlyRegs s t)) ∧
  (∀ (s : State) (cls : BitVec 8),
    let c := cls.toNat
    (2 < c → exec (.setPowerClass cls) s = .next (s.refuse 0x40 0x0A)) ∧
    (c ≤ 2 → s.load.loaded = true → c < s.f .PWR_CLASS_LOW → exec (.setPowerClass cls) s = .next (s.refuse 0x40 0x03)) ∧
    (c ≤ 2 → s.load.loaded = false ∨ s.f .PWR_CLASS_LOW ≤ c →
      (s.admittedBell = none → exec (.setPowerClass cls) s = .next (s.refuse 0x40 0x07 0x2)) ∧
      ∀ b, s.admittedBell = some b → ∃ t, exec (.setPowerClass cls) s = .next t ∧ classAsked s t c b)) ∧
  (∀ s : State,
    let on := fun n => n < 64 ∧ s.f .LNK_CTRL_EN n = 1
    (s.jobRuns = true → exec .shutdown s = .next (s.refuse 0x60 0x07)) ∧
    (s.jobRuns = false → ∀ n, on n → (∀ m, m < n → ¬on m) → ∃ t, exec .shutdown s = .next t ∧ t.pwr = { s.pwr with down := some n }) ∧
    (s.jobRuns = false → (∀ n, ¬on n) → ∃ u : State, exec .shutdown s = .next (u.ok 0x60) ∧ u.f .PWR_STATUS_PHASE = 7 ∧ u.pwr.down = none ∧
      (∀ k, k < 12 → (u.stack k).asleep = true) ∧ ∀ k, k < 16 → isOff u k)) ∧
  ∀ (s : State) (late : Bool),
    (s.pwr.down = none → exec (.shutdownLinkDown late) s = .next s) ∧
    ∀ n, s.pwr.down = some n →
      let sent := (s.f .LNK_SEQ_TX_ACKED n + 1) % 65536 = s.f .LNK_SEQ_TX_NEXT n
      let on := fun m => n < m ∧ m < 64 ∧ s.f .LNK_CTRL_EN m = 1
      (late = false → ¬sent → exec (.shutdownLinkDown late) s = .next s) ∧
      (late = true ∨ sent →
        (∀ m, on m → (∀ l, l < m → ¬on l) → ∃ t, exec (.shutdownLinkDown late) s = .next t ∧ t.f .LNK_STATUS_STATE n = lkOff ∧ t.f .LNK_CTRL_EN n = 0 ∧
          t.pwr = { s.pwr with down := some m }) ∧
        ((∀ m, ¬on m) → ∃ u : State, exec (.shutdownLinkDown late) s = .next (u.ok 0x60) ∧ u.f .LNK_STATUS_STATE n = lkOff ∧ u.f .PWR_STATUS_PHASE = 7 ∧
          u.pwr.down = none ∧ ∀ k, k < 12 → (u.stack k).asleep = true))

/-- The fields that fuses and straps load, and those that name a reset. -/
def fuseFlds : List Fld :=
  [.CHIP_ID_PART, .CHIP_ID_STEPPING, .CHIP_GRADE_NCORE_EN, .CHIP_GRADE_SPEED, .CHIP_FUSE_LO_EN, .CHIP_FUSE_HI_EN, .CLK_TARGET_MHZ, .SEC_STATUS_DEBUG,
   .SEC_SVN_MIN, .SEC_SERIAL_SERIAL, .CHIP_ADDR_POSITION, .CHIP_ADDR_BOARD, .RST_CAUSE_CAUSE, .RST_CAUSE_NOR_WAIT, .RST_CNT_WARM_COUNT]

/-- After a power-on reset nothing is kept but the fuses, the OTP, the NOR and what lies outside the package (R381). -/
def poweredOn (s t : State) (cause : Nat) : Prop :=
  t.f .RST_CAUSE_CAUSE = cause ∧ t.rst.held = true ∧ t.rst.boot = 0 ∧ t.fuse = s.fuse ∧ t.sec.otp = s.sec.otp ∧ t.hst.hostMem = s.hst.hostMem ∧
  t.cores = [] ∧ t.hbm = [] ∧ t.links = [] ∧ t.load = LoadUnit.reset ∧ t.f .CHIP_FUSE_LO_EN = s.fuse.cores % 2 ^ 64 ∧
  ∀ fl ∈ allFlds, ∀ i, touches fuseFlds fl = false → t.f fl i = fl.resetAt i % 2 ^ fl.w

/-- After a warm reset the fields whose Kept by names W read as before, and the others as at reset; the memories of the package are kept (R17, R381). -/
def warmed (s t : State) (cause : Nat) : Prop :=
  t.f .RST_CAUSE_CAUSE = cause ∧ t.f .RST_CAUSE_NOR_WAIT = 0 ∧ counted s t .RST_CNT_WARM_COUNT ∧ t.rst.boot = 1 ∧ t.hbm = s.hbm ∧
  (∀ k, k < 12 → (t.stack k).asleep = true ∧ (t.stack k).bad = (s.stack k).bad) ∧
  (∀ n, (t.core n).store = (s.core n).store ∧ (t.core n).sregs = [] ∧ (t.core n).vregs = [] ∧ (t.core n).tags = []) ∧ t.links = [] ∧
  t.lif.nor = s.lif.nor ∧ t.topo.machine = s.topo.machine ∧ (∀ i, i ≠ 4 → Map.get 0 t.ctl.telem i = Map.get 0 s.ctl.telem i) ∧
  Map.get 0 t.ctl.telem 4 % 2 = 0 ∧ (∀ n, t.modRstN n = false ∧ t.modLpm n = true) ∧ t.hst.taken = [] ∧ t.sec.idKey = 0 ∧
  (t.f .SEC_STATUS_SELFTEST_FAIL = 0 ∧ t.f .SEC_STATUS_STATE = 0 ∨ t.f .SEC_STATUS_SELFTEST_FAIL = 1 ∧ t.f .SEC_STATUS_STATE = 2) ∧
  ((∀ c, c < 64 → s.f .MBX_BIND_RECV c ≠ 0x20) → t.f .MBX_CNT_ABORT_COUNT = s.f .MBX_CNT_ABORT_COUNT) ∧
  ∀ fl ∈ allFlds, ∀ i, touches (fuseFlds ++ [.SEC_STATUS_SELFTEST_FAIL, .SEC_STATUS_STATE, .MBX_CNT_ABORT_COUNT]) fl = false →
    t.f fl i = if .W ∈ fl.kept then s.f fl i else fl.resetAt i % 2 ^ fl.w

/-- A core that has been reset keeps its store, unless it goes to CG without retention (R384), and shows nothing in flight (R381). -/
def coreAfresh (s t : State) (n : Nat) (keeps : Prop) : Prop :=
  (keeps → (t.core n).store = (s.core n).store) ∧ (¬keeps → (t.core n).store = []) ∧ (t.core n).sregs = [] ∧ (t.core n).vregs = [] ∧ (t.core n).pregs = [] ∧ (t.core n).tags = [] ∧
  (t.core n).loops = [] ∧ (t.core n).porter = [] ∧ (t.core n).streams = [] ∧ t.f .CORE_PC_PC n = 0 ∧
  t.cst n = (if t.f .CORE_CTRL_FENCE n = 1 then stFenced else stIdle)

/-- PWRGOOD_DEASSERT and VAUX_LOW (R396), WARM_RESET and PERST_N_ASSERT (R381, R382), CLUSTER_RESET, CORE_RESET and their ends (R381-R383), and KO_ENTRY
(R384). -/
def Obligations.Resets : Prop :=
  (∀ s : State, ∃ t, exec .pwrgoodDeassert s = .next t ∧ poweredOn s t 0 ∧
    (∀ o, s.lif.running = some o → norDid s t o) ∧ (s.lif.running = none → t.lif.nor = s.lif.nor)) ∧
  (∀ s : State, ∃ t, exec .vauxLow s = .next t ∧ poweredOn s t 1 ∧ (s.lif.running = none → t.lif.nor = s.lif.nor) ∧
    ∀ o bs, s.lif.running = some o → o.data = some bs → (∀ x, (x < o.addr ∨ o.addr + bs.length ≤ x) → t.lif.nor.rd x = s.lif.nor.rd x) ∧
      ∀ j, j < bs.length → t.lif.nor.rd (o.addr + j) = BitVec.ofNat 8 (Config.freeNat (s.free + j))) ∧
  (∀ s : State,
    (s.rst.held = true → exec .warmReset s = .next s) ∧
    (s.rst.held = false → ∀ o, s.lif.running = some o → exec .warmReset s = .next { s with rst := { s.rst with wait := some (s.rst.wait.getD 2) } }) ∧
    (s.rst.held = false → s.lif.running = none → ∃ t, exec .warmReset s = .next t ∧ warmed s t 2) ∧
    (s.f .RST_CFG_PERST_MODE = 1 → exec .perstNAssert s = exec .functionLevelReset s) ∧
    (s.f .RST_CFG_PERST_MODE = 0 → s.rst.held = true → exec .perstNAssert s = .next s) ∧
    (s.f .RST_CFG_PERST_MODE = 0 → s.rst.held = false → s.lif.running = none → ∃ t, exec .perstNAssert s = .next t ∧ warmed s t 3) ∧
    (s.f .RST_CFG_PERST_MODE = 0 → s.rst.held = false → ∀ o, s.lif.running = some o →
      exec .perstNAssert s = .next { s with rst := { s.rst with wait := some (s.rst.wait.getD 3) } })) ∧
  (∀ (s : State) (mask : BitVec 16),
    let was := fun k => (s.f .RST_STATUS_CLUSTER).testBit k
    let new := (List.range 16).filter (fun k => mask.toNat.testBit k && !was k)
    (s.rst.held = true → exec (.clusterReset mask) s = .next s) ∧
    (s.rst.held = false → ∃ t, exec (.clusterReset mask) s = .next t ∧
      (∀ k, k < 16 → (t.f .RST_STATUS_CLUSTER).testBit k = (was k || mask.toNat.testBit k)) ∧
      t.f .RST_CNT_CLUSTER_COUNT = min (s.f .RST_CNT_CLUSTER_COUNT + new.length) (2 ^ 48 - 1) ∧
      ((∃ k, k < 16 ∧ mask.toNat.testBit k = true ∧ was k = true) → t.f .RST_STATUS_IGNORED = 1) ∧
      (new ≠ [] → s.jobRuns = true → t.f .CHIP_HALT_STOPPED = 1) ∧
      (∀ k ∈ new, ∀ j, j < 8 → coreAfresh s t (8 * k + j) (s.f .PWR_CTRL_CG_RET = 1)) ∧
      (s.jobRuns = false → ∀ n, n / 8 ∉ new → t.core n = s.core n ∧ t.cst n = s.cst n))) ∧
  (∀ (s : State) (k : Fin 16),
    let ends := (s.f .RST_STATUS_CLUSTER).testBit k = true
    (¬ends → exec (.clusterResetEnd k) s = .next s) ∧
    (ends → ∃ t, exec (.clusterResetEnd k) s = .next t ∧ (∀ j, j < 16 → (t.f .RST_STATUS_CLUSTER).testBit j =
        ((s.f .RST_STATUS_CLUSTER).testBit j && decide (j ≠ k))) ∧
      (s.clk.misaligned.testBit k = true → sameRegs s t (flds [.RST_STATUS_CLUSTER]) ∧ { t with regs := s.regs, clk := s.clk } = s ∧
        t.clk.out.testBit k = true ∧ ∀ j, j < 8 → t.clocked (8 * k + j) = false) ∧
      (s.clk.misaligned.testBit k = false → t.f .CLK_RGN_STATUS_LOCKED k = 1 - s.f .PWR_CLU_OFF k ∧ t.f .CLK_XALIGN_ALIGNED = (if s.clk.misaligned = 0 then 1 else 0) ∧
        sameRegs s t (fun fl i => flds [.RST_STATUS_CLUSTER, .CLK_XALIGN_ALIGNED] fl i || fldsAt [.CLK_RGN_STATUS_LOCKED] k fl i) ∧ onlyRegs s t))) ∧
  (∀ (s : State) (c : CoreId),
    let barred := s.enabled c = false ∨ c.val ∈ s.rst.cores ∨ (s.f .RST_STATUS_CLUSTER).testBit (c.val / 8) = true ∨ s.f .PWR_CLU_OFF (c.val / 8) = 1
    (s.rst.held = true → ∃ t, exec (.coreReset c) s = .next t ∧ sameRegs s t (flds [.RST_CORE_CORE]) ∧ onlyRegs s t) ∧
    (s.rst.held = false → barred → ∃ t, exec (.coreReset c) s = .next t ∧ t.f .RST_CORE_CORE = c.val ∧ t.f .RST_STATUS_IGNORED = 1 ∧
      sameRegs s t (flds [.RST_CORE_CORE, .RST_STATUS_IGNORED]) ∧ onlyRegs s t) ∧
    (s.rst.held = false → ¬barred → ∃ t, exec (.coreReset c) s = .next t ∧ t.f .RST_CORE_CORE = c.val ∧ t.f .RST_STATUS_CORE = 1 ∧
      t.rst.cores = s.rst.cores ++ [c.val] ∧ coreAfresh s t c True ∧ (s.jobRuns = true → t.f .CHIP_HALT_STOPPED = 1) ∧
      (s.jobRuns = false → ∀ n, n ≠ c.val → t.core n = s.core n ∧ t.cst n = s.cst n))) ∧
  (∀ s : State,
    let back := fun n => s.load.loaded = true ∧ s.bound n = true ∧ s.cst n = stIdle ∧ s.load.job ≠ none
    ∃ t, exec .coreResetEnd s = .next t ∧ t.rst = { s.rst with cores := s.rst.cores.drop 1 } ∧ (t.f .RST_STATUS_CORE = 1 ↔ t.rst.cores ≠ []) ∧
    (s.rst.cores = [] ∨ (∃ n, s.rst.cores.head? = some n ∧ ¬back n) → sameRegs s t (flds [.RST_STATUS_CORE]) ∧ { t with regs := s.regs, rst := s.rst } = s) ∧
    ∀ n j, n < 128 → s.rst.cores.head? = some n → back n → s.load.job = some j → t.cst n = stLoaded ∧ t.f .CORE_STEP_STEP n = j.startStep % 2 ^ 64 ∧
      (∀ m, m ≠ n → t.core m = s.core m ∧ t.cst m = s.cst m) ∧ sameRegs s t (fun fl i => flds [.RST_STATUS_CORE] fl i || fldsAt [.CORE_STATUS_STATE, .CORE_STEP_STEP] n fl i)) ∧
  ∀ (s : State) (k : Fin 16),
    let stays := s.f .PWR_CTRL_KO_IDLE = 0 ∨ s.f .PWR_CLU_OFF k = 1 ∨ ∃ j, j < 8 ∧ s.bound (8 * k.val + j) = true
    (stays → exec (.koEntry k) s = .next s) ∧
    (¬stays → ∃ t, exec (.koEntry k) s = .next t ∧ isOff t k ∧ ∀ n, n / 8 ≠ k.val → t.core n = s.core n ∧ t.cst n = s.cst n)

/-- Start-up (R385-R387): PWRGOOD_ASSERT (R356, R364), SECURE_BOOT (R358), FIRMWARE_START (R286), CLOCK_START, HBM_TRAIN (R159), LINK_TRAIN_START (R267),
TIME_ACQUIRE (R56) and READY_NOTICE (R386), each at its place in the order and nowhere else. -/
def Obligations.StartUp : Prop :=
  (∀ (s : State) (st lid nor : Bool),
    (s.rst.boot ≠ 0 → exec (.pwrgoodAssert st lid nor) s = .next s) ∧
    (s.rst.boot = 0 → ∃ t, exec (.pwrgoodAssert st lid nor) s = .next t ∧ t.rst = { s.rst with held := false, boot := 1 } ∧
      t.sec = { s.sec with lidClosed := lid } ∧ t.f .CHIP_ADDR_POSITION = s.fuse.position % 4 ∧ t.f .CHIP_ADDR_BOARD = s.fuse.board % 8 ∧
      t.f .LIF_STATUS_NOR_ABSENT = (!nor).toNat ∧ (st = false → t.f .SEC_STATUS_SELFTEST_FAIL = 1 ∧ t.f .SEC_STATUS_STATE = 2) ∧
      sameRegs s t (flds [.CHIP_ADDR_POSITION, .CHIP_ADDR_BOARD, .LIF_STATUS_NOR_ABSENT, .SEC_STATUS_SELFTEST_FAIL, .SEC_STATUS_STATE]) ∧
      { t with regs := s.regs, rst := s.rst, sec := s.sec } = s)) ∧
  (∀ s : State,
    let boots := s.rst.boot = 1 ∧ s.rst.held = false ∧ s.f .SEC_STATUS_SELFTEST_FAIL = 0 ∧ (s.f .RST_CAUSE_CAUSE ≤ 1 → s.sec.lidClosed = true)
    let ver := fun k => leAt (s.norRd (0x1000000 * k) 512) 8 4
    (¬boots → exec .secureBoot s = .next s) ∧
    (boots → s.slotOk 0 = false → s.slotOk 1 = false → ∃ t, exec .secureBoot s = .next t ∧ t.rst = s.rst ∧ t.f .PWR_STATUS_PHASE = 1 ∧
      t.f .SEC_BOOT_A_VALID = 0 ∧ t.f .SEC_BOOT_B_VALID = 0 ∧ t.f .SEC_VER_A_VER = 0 ∧ t.f .SEC_VER_B_VER = 0 ∧ onlyRegs s t) ∧
    (boots → ∀ k, k < 2 → s.slotOk k = true → (s.slotOk (1 - k) = true → if k = 0 then ver 1 ≤ ver 0 else ver 0 < ver 1) →
      ∃ t, exec .secureBoot s = .next t ∧ t.rst = { s.rst with boot := 2 } ∧ t.f .SEC_BOOT_SLOT = k ∧ t.f .CTL_FW_VER_VER = ver k ∧
        (t.f .CTL_STATUS_RUNNING).testBit 0 = true ∧ t.f .SEC_STATUS_STATE = 1 ∧ t.f .SEC_SVN_RUN = leAt (s.norRd (0x1000000 * k) 512) 12 4 % 2 ^ 7 ∧
        t.f .SEC_SERIAL_SERIAL = s.fuse.serial % 2 ^ 64 ∧ t.sec.body = leAt (s.norRd (0x1000000 * k) 512) 24 48)) ∧
  (∀ s : State,
    (s.rst.boot ≠ 2 → exec .firmwareStart s = .next s) ∧
    (s.rst.boot = 2 → ∃ t, exec .firmwareStart s = .next t ∧ t.rst = { s.rst with boot := 3 } ∧ t.f .CTL_STATUS_RUNNING = 0xFF ∧ t.f .HST_STATUS_READY = 1 ∧
      t.f .PWR_STATUS_PHASE = 1 ∧ (s.f .MBX_CTRL_BIND_LOCK = 0 → t.f .MBX_BIND_EN 63 = 1 ∧ t.f .MBX_BIND_RECV 63 = 0 ∧ t.f .MBX_BIND_SEND 63 = 0x14) ∧
      (∀ m, s.topo.machine = some m → m.group = s.f .CHIP_ADDR_GROUP → s.copyWhole = true → t.topo.machine = some m) ∧
      (∀ m, s.topo.machine = some m → m.group ≠ s.f .CHIP_ADDR_GROUP → t.topo.machine = none))) ∧
  (∀ s : State,
    (s.rst.boot ≠ 3 → exec .clockStart s = .next s) ∧
    (s.rst.boot = 3 → s.rst.failed = true → ∃ t, exec .clockStart s = .next t ∧ t.f .PWR_STATUS_PHASE = 2 ∧ sameRegs s t (flds [.PWR_STATUS_PHASE]) ∧ onlyRegs s t) ∧
    (s.rst.boot = 3 → s.rst.failed = false → ∃ t, exec .clockStart s = .next t ∧ t.rst = { s.rst with boot := 4 } ∧ t.f .PWR_STATUS_PHASE = 2 ∧
      (∀ r, r < 25 → t.f .CLK_RGN_STATUS_LOCKED r = 1) ∧ t.f .CLK_XALIGN_ALIGNED = (if s.clk.misaligned = 0 then 1 else 0) ∧ (∀ n, t.isQuiet n = true) ∧
      ∀ k, k < 16 → s.f .PWR_CLU_OFF k = 0 → t.f .PWR_CLU_VDD_MV k ≤ [700, 780, 850].getD (s.f .PWR_CLASS_ACT) 850)) ∧
  (∀ (s : State) (pass : BitVec 12),
    (s.rst.boot ≠ 4 → exec (.hbmTrain pass) s = .next s) ∧
    (s.rst.boot = 4 → 1 < s.f .RST_CAUSE_CAUSE → ∃ t, exec (.hbmTrain pass) s = .next t ∧ t.rst = { s.rst with boot := 5 } ∧ t.f .PWR_STATUS_PHASE = 3 ∧
      (∀ k, k < 12 → (t.stack k).asleep = false ∧ { t.stack k with asleep := (s.stack k).asleep } = s.stack k) ∧
      sameRegs s t (flds [.PWR_STATUS_PHASE]) ∧ { t with regs := s.regs, rst := s.rst, hbms := s.hbms } = s) ∧
    (s.rst.boot = 4 → s.f .RST_CAUSE_CAUSE ≤ 1 → ∃ t, exec (.hbmTrain pass) s = .next t ∧ t.rst = { s.rst with boot := 5 } ∧ t.f .PWR_STATUS_PHASE = 3 ∧
      (∀ k, k < 12 → if pass.toNat.testBit k then t.f .HBM_STATUS_TRAINED k = 1 else t.f .HBM_STATUS_FAIL k = 1 ∧ t.f .PWR_STATUS_DEGRADED = 1) ∧
      t.hbm = [] ∧ (∀ k, k < 12 → (t.stack k).asleep = false) ∧ ∀ n, (t.core n).store = [])) ∧
  (∀ s : State,
    (s.rst.boot ≠ 5 ∨ s.f .CHIP_ADDR_LOCK = 0 → exec .linkTrainStart s = .next s) ∧
    (s.rst.boot = 5 → s.f .CHIP_ADDR_LOCK = 1 → ∃ t, exec .linkTrainStart s = .next t ∧ t.rst = { s.rst with boot := 6 } ∧ t.f .PWR_STATUS_PHASE = 4 ∧
      ∀ n, n < 64 → (s.f .LNK_EXPECT_CHECK_EN n = 1 → t.f .LNK_CTRL_EN n = 1 ∧ (s.f .LNK_STATUS_STATE n = lkOff → t.f .LNK_STATUS_STATE n = lkDetect)) ∧
        (s.f .LNK_EXPECT_CHECK_EN n = 0 → t.f .LNK_CTRL_EN n = s.f .LNK_CTRL_EN n ∧ t.f .LNK_STATUS_STATE n = s.f .LNK_STATUS_STATE n))) ∧
  (∀ s : State,
    (s.rst.boot ≠ 6 → exec .timeAcquire s = .next s) ∧
    (s.rst.boot = 6 → ∃ t, exec .timeAcquire s = .next t ∧
      let root := s.f .BEL_CTRL_ROOT = 1
      (root ∨ (16 < s.rst.acq ∧ 64 ≤ s.rst.good) → t.f .BEL_STATUS_JOINED = 1 ∧ t.rst = { s.rst with boot := 7 } ∧ t.f .PWR_STATUS_PHASE = 6) ∧
      (¬root → s.rst.acq < 16 ∨ (16 < s.rst.acq ∧ s.rst.good < 64) → t.f .PWR_STATUS_PHASE = 5 ∧ sameRegs s t (flds [.PWR_STATUS_PHASE]) ∧ onlyRegs s t) ∧
      (¬root → s.rst.acq = 16 → t.f .PWR_STATUS_PHASE = 5 ∧ t.rst = { s.rst with acq := 17, good := 0 }))) ∧
  ∀ s : State,
    (s.rst.boot ≠ 7 → exec .readyNotice s = .next s) ∧
    (s.rst.boot = 7 → ∃ t, exec .readyNotice s = .next t ∧ t.rst = { s.rst with boot := 8 } ∧ t.f .PWR_STATUS_PHASE = 6 ∧
      ∀ c, c < 64 → s.f .MBX_BIND_EN c = 1 → s.f .MBX_BIND_RECV c = 0 → s.mbxSender (0x10 + s.f .CTL_MASTER_CORE) c = true → s.f .MBX_STAT_LOCKED c = 0 →
        (∀ d, d < c → s.f .MBX_BIND_EN d = 0 ∨ s.f .MBX_BIND_RECV d ≠ 0) → t.f .MBX_STAT_FULL c = 1 ∧ t.f .MBX_DATA_NOTICE c ≠ 0)
end

