-- ==== Sys2Proof/Laws/Map.lean ====
section
/-!
SUPPORT. Sparse tables: what a read gives after a write, and that every operation keeps the canonical form.
-/
namespace Sys2Proof.Machine

section MapLaws

variable {α : Type}

/-- Keys strictly rising. -/
def Map.rising (m : Map α) : Prop := m.Pairwise (fun p q => p.1 < q.1)

theorem Map.get_nil (d : α) (k : Nat) : Map.get d [] k = d := rfl

theorem Map.get_put_same (d : α) (m : Map α) (k : Nat) (v : α) : Map.get d (Map.put m k v) k = v := by
  induction m with
  | nil => simp [Map.put, Map.get]
  | cons p m ih =>
    simp only [Map.put]
    split
    · simp [Map.get]
    · split
      · simp [Map.get]
      · rename_i h2
        simp only [Map.get, h2, if_false]
        exact ih

theorem Map.get_put_other (d : α) (m : Map α) {j k : Nat} (v : α) (h : j ≠ k) : Map.get d (Map.put m k v) j = Map.get d m j := by
  induction m with
  | nil => simp [Map.put, Map.get, Ne.symm h]
  | cons p m ih =>
    simp only [Map.put]
    split
    · rw [Map.get]
      simp [Ne.symm h]
    · split
      · rename_i h2
        simp [Map.get, Ne.symm h, h2]
      · by_cases hp : p.1 = j
        · simp [Map.get, hp]
        · simp only [Map.get, hp, if_false]
          exact ih

theorem Map.get_filter (d : α) (f : Nat → Bool) (m : Map α) (k : Nat) :
    Map.get d (m.filter (fun p => f p.1)) k = if f k then Map.get d m k else d := by
  induction m with
  | nil => simp [Map.get]
  | cons p m ih =>
    by_cases hf : f p.1
    · simp only [List.filter_cons, hf, if_true, Map.get, ih]
      by_cases hk : p.1 = k
      · subst hk
        simp [hf]
      · simp [hk]
    · simp only [List.filter_cons, hf, Map.get]
      by_cases hk : p.1 = k
      · subst hk
        simp [ih, hf]
      · simp [hk, ih]

theorem Map.get_erase_same (d : α) (m : Map α) (k : Nat) : Map.get d (Map.erase m k) k = d := by
  have h := Map.get_filter d (fun x => decide (x ≠ k)) m k
  simpa [Map.erase] using h

theorem Map.get_erase_other (d : α) (m : Map α) {j k : Nat} (h : j ≠ k) : Map.get d (Map.erase m k) j = Map.get d m j := by
  have hj := Map.get_filter d (fun x => decide (x ≠ k)) m j
  simpa [Map.erase, h] using hj

@[simp] theorem Map.get_set_same [DecidableEq α] (d : α) (m : Map α) (k : Nat) (v : α) : Map.get d (Map.set d m k v) k = v := by
  unfold Map.set
  split
  · rename_i h
    rw [Map.get_erase_same, h]
  · exact Map.get_put_same d m k v

theorem Map.get_set_other [DecidableEq α] (d e : α) (m : Map α) {j k : Nat} (v : α) (h : j ≠ k) :
    Map.get e (Map.set d m k v) j = Map.get e m j := by
  unfold Map.set
  split
  · exact Map.get_erase_other e m h
  · exact Map.get_put_other e m v h

@[simp] theorem Map.get_keep (d : α) (f : Nat → Bool) (m : Map α) (k : Nat) :
    Map.get d (Map.keep f m) k = if f k then Map.get d m k else d := Map.get_filter d f m k

/-! ### The canonical form -/

theorem Map.put_mem {m : Map α} {k : Nat} {v : α} {p : Nat × α} (h : p ∈ Map.put m k v) : p = (k, v) ∨ p ∈ m := by
  induction m with
  | nil => simpa [Map.put] using h
  | cons q m ih =>
    simp only [Map.put] at h
    split at h
    · simpa using h
    · split at h
      · rcases List.mem_cons.mp h with h | h
        · exact .inl h
        · exact .inr (List.mem_cons_of_mem _ h)
      · rcases List.mem_cons.mp h with h | h
        · exact .inr (by simp [h])
        · rcases ih h with h | h
          · exact .inl h
          · exact .inr (List.mem_cons_of_mem _ h)

theorem Map.put_rising {m : Map α} (h : Map.rising m) (k : Nat) (v : α) : Map.rising (Map.put m k v) := by
  induction m with
  | nil => simp [Map.put, Map.rising]
  | cons q m ih =>
    obtain ⟨h1, h2⟩ := List.pairwise_cons.mp h
    simp only [Map.put]
    split
    · rename_i hk
      refine List.pairwise_cons.mpr ⟨?_, h⟩
      intro p hp
      rcases List.mem_cons.mp hp with rfl | hp
      · exact hk
      · exact lt_trans hk (h1 p hp)
    · split
      · rename_i hk
        refine List.pairwise_cons.mpr ⟨?_, h2⟩
        intro p hp
        simpa [← hk] using h1 p hp
      · rename_i hk hq
        refine List.pairwise_cons.mpr ⟨?_, ih h2⟩
        intro p hp
        rcases Map.put_mem hp with rfl | hp
        · show q.1 < k
          omega
        · exact h1 p hp

theorem Map.erase_rising {m : Map α} (h : Map.rising m) (k : Nat) : Map.rising (Map.erase m k) := List.Pairwise.filter _ h

theorem Map.keep_rising {m : Map α} (h : Map.rising m) (f : Nat → Bool) : Map.rising (Map.keep f m) := List.Pairwise.filter _ h

theorem Map.set_rising [DecidableEq α] {m : Map α} (h : Map.rising m) (d : α) (k : Nat) (v : α) : Map.rising (Map.set d m k v) := by
  unfold Map.set
  split
  · exact Map.erase_rising h k
  · exact Map.put_rising h k v

theorem Map.wf_nil (d : Nat → α) : Map.wf d [] := by simp [Map.wf]

theorem Map.keep_wf {d : Nat → α} {m : Map α} (h : Map.wf d m) (f : Nat → Bool) : Map.wf d (Map.keep f m) :=
  ⟨List.Pairwise.filter _ h.1, fun p hp => h.2 p (List.mem_of_mem_filter hp)⟩

theorem Map.set_wf [DecidableEq α] {d : Nat → α} {m : Map α} (h : Map.wf d m) (k : Nat) (v : α) : Map.wf d (Map.set (d k) m k v) := by
  refine ⟨Map.set_rising h.1 _ _ _, ?_⟩
  intro p hp
  unfold Map.set at hp
  split at hp
  · exact h.2 p (List.mem_of_mem_filter hp)
  · rename_i hv
    rcases Map.put_mem hp with rfl | hp
    · exact hv
    · exact h.2 p hp

theorem Map.get_modVals [DecidableEq α] (d : α) (f : Nat → α → α) (m : Map α) (k : Nat) (h : f k d = d) :
    Map.get d (Map.modVals d f m) k = f k (Map.get d m k) := by
  induction m with
  | nil => exact h.symm
  | cons p m ih =>
    simp only [Map.modVals, Map.get]
    by_cases hk : p.1 = k
    · subst hk
      split
      · rename_i hf
        simpa [hf] using Map.get_erase_same d _ _
      · simp [Map.get]
    · have he : Map.get d (Map.erase (Map.modVals d f m) p.1) k = f k (Map.get d m k) :=
        (Map.get_erase_other d _ (fun e => hk e.symm)).trans ih
      split
      · simpa [hk] using he
      · simpa [Map.get, hk] using he

theorem Map.modVals_key [DecidableEq α] (d : α) (f : Nat → α → α) {m : Map α} {p : Nat × α} (h : p ∈ Map.modVals d f m) :
    ∃ q ∈ m, q.1 = p.1 := by
  induction m with
  | nil => cases h
  | cons q m ih =>
    simp only [Map.modVals] at h
    split at h
    · obtain ⟨r, hr, he⟩ := ih (List.mem_of_mem_filter h)
      exact ⟨r, List.mem_cons_of_mem _ hr, he⟩
    · rcases List.mem_cons.mp h with rfl | h
      · exact ⟨q, List.mem_cons_self .., rfl⟩
      · obtain ⟨r, hr, he⟩ := ih (List.mem_of_mem_filter h)
        exact ⟨r, List.mem_cons_of_mem _ hr, he⟩

theorem Map.modVals_wf [DecidableEq α] (d : α) (f : Nat → α → α) {m : Map α} (h : Map.rising m) : Map.wf (fun _ => d) (Map.modVals d f m) := by
  induction m with
  | nil => simp [Map.modVals, Map.wf]
  | cons q m ih =>
    obtain ⟨h1, h2⟩ := List.pairwise_cons.mp h
    simp only [Map.modVals]
    split
    · exact ⟨List.Pairwise.filter _ (ih h2).1, fun p hp => (ih h2).2 p (List.mem_of_mem_filter hp)⟩
    · rename_i hf
      refine ⟨List.pairwise_cons.mpr ⟨?_, List.Pairwise.filter _ (ih h2).1⟩, ?_⟩
      · intro p hp
        obtain ⟨r, hr, he⟩ := Map.modVals_key d f (List.mem_of_mem_filter hp)
        simpa [← he] using h1 r hr
      · intro p hp
        rcases List.mem_cons.mp hp with rfl | hp
        · exact hf
        · exact (ih h2).2 p (List.mem_of_mem_filter hp)

/-! ### Byte memories -/

theorem Mem.rd_wr_same (m : Mem) (a : Nat) (b : Byte) : (m.wr a b).rd a = b := Map.get_set_same 0 m a b

theorem Mem.rd_wr_other (m : Mem) {a c : Nat} (b : Byte) (h : c ≠ a) : (m.wr a b).rd c = m.rd c := Map.get_set_other 0 0 m b h

theorem Mem.wr_wf {m : Mem} (h : Mem.wf m) (a : Nat) (b : Byte) : Mem.wf (m.wr a b) := Map.set_wf h a b

theorem Mem.wrBytes_wf {m : Mem} (h : Mem.wf m) (a : Nat) (bs : List Byte) : Mem.wf (m.wrBytes a bs) := by
  induction bs generalizing m a with
  | nil => exact h
  | cons b bs ih => exact ih (Mem.wr_wf h a b) (a + 1)

theorem Mem.wrLe_wf {m : Mem} (h : Mem.wf m) (a n v : Nat) : Mem.wf (m.wrLe a n v) := Mem.wrBytes_wf h a _

theorem Mem.zero_wf {m : Mem} (h : Mem.wf m) (a n : Nat) : Mem.wf (m.zero a n) := Map.keep_wf h _

theorem Mem.rd_wrBytes_out (m : Mem) (a c : Nat) (bs : List Byte) (h : c < a ∨ a + bs.length ≤ c) : (m.wrBytes a bs).rd c = m.rd c := by
  induction bs generalizing m a with
  | nil => rfl
  | cons b bs ih =>
    simp only [List.length_cons] at h
    simp only [Mem.wrBytes]
    rw [ih _ _ (by omega), Mem.rd_wr_other _ _ (by omega)]

theorem Mem.rd_wrBytes_in (m : Mem) (a i : Nat) (bs : List Byte) (h : i < bs.length) : (m.wrBytes a bs).rd (a + i) = bs[i] := by
  induction bs generalizing m a i with
  | nil => simp at h
  | cons b bs ih =>
    cases i with
    | zero =>
      simp only [Mem.wrBytes, Nat.add_zero, List.getElem_cons_zero]
      rw [Mem.rd_wrBytes_out _ _ _ _ (by omega), Mem.rd_wr_same]
    | succ i =>
      simp only [Mem.wrBytes, List.getElem_cons_succ]
      have := ih (m.wr a b) (a + 1) i (by simpa using h)
      rw [show a + (i + 1) = a + 1 + i by omega]
      exact this

theorem leBytes_length (n v : Nat) : (leBytes n v).length = n := by
  induction n generalizing v with
  | zero => rfl
  | succ n ih => simp [leBytes, ih]

theorem leVal_lt (bs : List Byte) : leVal bs < 256 ^ bs.length := by
  induction bs with
  | nil => simp [leVal]
  | cons b bs ih =>
    simp only [leVal, List.length_cons, pow_succ]
    have := b.isLt
    omega

theorem leVal_leBytes (n v : Nat) : leVal (leBytes n v) = v % 256 ^ n := by
  induction n generalizing v with
  | zero => simp [leBytes, leVal, Nat.mod_one]
  | succ n ih =>
    have h : (256 : Nat) ^ (n + 1) = 256 * 256 ^ n := by rw [pow_succ, Nat.mul_comm]
    rw [h, Nat.mod_mul]
    simp [leBytes, leVal, ih]

end MapLaws

end Sys2Proof.Machine
end

