-- ==== Sys2Proof/Laws/State.lean ====
section
/-!
SUPPORT. The state record: what each update leaves alone, one lemma per field and update, and what a read of a register field, a core, a
stack or a link gives after a write of one.
-/
namespace Sys2Proof.Machine

/-! ### setF -/

@[simp] theorem State.setF_halves (s : State) (fl : Fld) (i v : Nat) : (s.setF fl i v).halves = s.halves := rfl
@[simp] theorem State.setF_rdata (s : State) (fl : Fld) (i v : Nat) : (s.setF fl i v).rdata = s.rdata := rfl
@[simp] theorem State.setF_fuse (s : State) (fl : Fld) (i v : Nat) : (s.setF fl i v).fuse = s.fuse := rfl
@[simp] theorem State.setF_cores (s : State) (fl : Fld) (i v : Nat) : (s.setF fl i v).cores = s.cores := rfl
@[simp] theorem State.setF_evFlight (s : State) (fl : Fld) (i v : Nat) : (s.setF fl i v).evFlight = s.evFlight := rfl
@[simp] theorem State.setF_hbm (s : State) (fl : Fld) (i v : Nat) : (s.setF fl i v).hbm = s.hbm := rfl
@[simp] theorem State.setF_hbms (s : State) (fl : Fld) (i v : Nat) : (s.setF fl i v).hbms = s.hbms := rfl
@[simp] theorem State.setF_clk (s : State) (fl : Fld) (i v : Nat) : (s.setF fl i v).clk = s.clk := rfl
@[simp] theorem State.setF_bel (s : State) (fl : Fld) (i v : Nat) : (s.setF fl i v).bel = s.bel := rfl
@[simp] theorem State.setF_ldg (s : State) (fl : Fld) (i v : Nat) : (s.setF fl i v).ldg = s.ldg := rfl
@[simp] theorem State.setF_topo (s : State) (fl : Fld) (i v : Nat) : (s.setF fl i v).topo = s.topo := rfl
@[simp] theorem State.setF_ctl (s : State) (fl : Fld) (i v : Nat) : (s.setF fl i v).ctl = s.ctl := rfl
@[simp] theorem State.setF_hst (s : State) (fl : Fld) (i v : Nat) : (s.setF fl i v).hst = s.hst := rfl
@[simp] theorem State.setF_links (s : State) (fl : Fld) (i v : Nat) : (s.setF fl i v).links = s.links := rfl
@[simp] theorem State.setF_transit (s : State) (fl : Fld) (i v : Nat) : (s.setF fl i v).transit = s.transit := rfl
@[simp] theorem State.setF_holding (s : State) (fl : Fld) (i v : Nat) : (s.setF fl i v).holding = s.holding := rfl
@[simp] theorem State.setF_opn (s : State) (fl : Fld) (i v : Nat) : (s.setF fl i v).opn = s.opn := rfl
@[simp] theorem State.setF_wgt (s : State) (fl : Fld) (i v : Nat) : (s.setF fl i v).wgt = s.wgt := rfl
@[simp] theorem State.setF_sec (s : State) (fl : Fld) (i v : Nat) : (s.setF fl i v).sec = s.sec := rfl
@[simp] theorem State.setF_lif (s : State) (fl : Fld) (i v : Nat) : (s.setF fl i v).lif = s.lif := rfl
@[simp] theorem State.setF_pwr (s : State) (fl : Fld) (i v : Nat) : (s.setF fl i v).pwr = s.pwr := rfl
@[simp] theorem State.setF_rst (s : State) (fl : Fld) (i v : Nat) : (s.setF fl i v).rst = s.rst := rfl
@[simp] theorem State.setF_load (s : State) (fl : Fld) (i v : Nat) : (s.setF fl i v).load = s.load := rfl
@[simp] theorem State.setF_fwu (s : State) (fl : Fld) (i v : Nat) : (s.setF fl i v).fwu = s.fwu := rfl
@[simp] theorem State.setF_free (s : State) (fl : Fld) (i v : Nat) : (s.setF fl i v).free = s.free := rfl
@[simp] theorem State.setF_pending (s : State) (fl : Fld) (i v : Nat) : (s.setF fl i v).pending = s.pending := rfl

/-! ### setCore -/

@[simp] theorem State.setCore_regs (s : State) (n : Nat) (c : Core) : (s.setCore n c).regs = s.regs := rfl
@[simp] theorem State.setCore_halves (s : State) (n : Nat) (c : Core) : (s.setCore n c).halves = s.halves := rfl
@[simp] theorem State.setCore_rdata (s : State) (n : Nat) (c : Core) : (s.setCore n c).rdata = s.rdata := rfl
@[simp] theorem State.setCore_fuse (s : State) (n : Nat) (c : Core) : (s.setCore n c).fuse = s.fuse := rfl
@[simp] theorem State.setCore_evFlight (s : State) (n : Nat) (c : Core) : (s.setCore n c).evFlight = s.evFlight := rfl
@[simp] theorem State.setCore_hbm (s : State) (n : Nat) (c : Core) : (s.setCore n c).hbm = s.hbm := rfl
@[simp] theorem State.setCore_hbms (s : State) (n : Nat) (c : Core) : (s.setCore n c).hbms = s.hbms := rfl
@[simp] theorem State.setCore_clk (s : State) (n : Nat) (c : Core) : (s.setCore n c).clk = s.clk := rfl
@[simp] theorem State.setCore_bel (s : State) (n : Nat) (c : Core) : (s.setCore n c).bel = s.bel := rfl
@[simp] theorem State.setCore_ldg (s : State) (n : Nat) (c : Core) : (s.setCore n c).ldg = s.ldg := rfl
@[simp] theorem State.setCore_topo (s : State) (n : Nat) (c : Core) : (s.setCore n c).topo = s.topo := rfl
@[simp] theorem State.setCore_ctl (s : State) (n : Nat) (c : Core) : (s.setCore n c).ctl = s.ctl := rfl
@[simp] theorem State.setCore_hst (s : State) (n : Nat) (c : Core) : (s.setCore n c).hst = s.hst := rfl
@[simp] theorem State.setCore_links (s : State) (n : Nat) (c : Core) : (s.setCore n c).links = s.links := rfl
@[simp] theorem State.setCore_transit (s : State) (n : Nat) (c : Core) : (s.setCore n c).transit = s.transit := rfl
@[simp] theorem State.setCore_holding (s : State) (n : Nat) (c : Core) : (s.setCore n c).holding = s.holding := rfl
@[simp] theorem State.setCore_opn (s : State) (n : Nat) (c : Core) : (s.setCore n c).opn = s.opn := rfl
@[simp] theorem State.setCore_wgt (s : State) (n : Nat) (c : Core) : (s.setCore n c).wgt = s.wgt := rfl
@[simp] theorem State.setCore_sec (s : State) (n : Nat) (c : Core) : (s.setCore n c).sec = s.sec := rfl
@[simp] theorem State.setCore_lif (s : State) (n : Nat) (c : Core) : (s.setCore n c).lif = s.lif := rfl
@[simp] theorem State.setCore_pwr (s : State) (n : Nat) (c : Core) : (s.setCore n c).pwr = s.pwr := rfl
@[simp] theorem State.setCore_rst (s : State) (n : Nat) (c : Core) : (s.setCore n c).rst = s.rst := rfl
@[simp] theorem State.setCore_load (s : State) (n : Nat) (c : Core) : (s.setCore n c).load = s.load := rfl
@[simp] theorem State.setCore_fwu (s : State) (n : Nat) (c : Core) : (s.setCore n c).fwu = s.fwu := rfl
@[simp] theorem State.setCore_free (s : State) (n : Nat) (c : Core) : (s.setCore n c).free = s.free := rfl
@[simp] theorem State.setCore_pending (s : State) (n : Nat) (c : Core) : (s.setCore n c).pending = s.pending := rfl

/-! ### setStack -/

@[simp] theorem State.setStack_regs (s : State) (k : Nat) (x : Stack) : (s.setStack k x).regs = s.regs := rfl
@[simp] theorem State.setStack_halves (s : State) (k : Nat) (x : Stack) : (s.setStack k x).halves = s.halves := rfl
@[simp] theorem State.setStack_rdata (s : State) (k : Nat) (x : Stack) : (s.setStack k x).rdata = s.rdata := rfl
@[simp] theorem State.setStack_fuse (s : State) (k : Nat) (x : Stack) : (s.setStack k x).fuse = s.fuse := rfl
@[simp] theorem State.setStack_cores (s : State) (k : Nat) (x : Stack) : (s.setStack k x).cores = s.cores := rfl
@[simp] theorem State.setStack_evFlight (s : State) (k : Nat) (x : Stack) : (s.setStack k x).evFlight = s.evFlight := rfl
@[simp] theorem State.setStack_hbm (s : State) (k : Nat) (x : Stack) : (s.setStack k x).hbm = s.hbm := rfl
@[simp] theorem State.setStack_clk (s : State) (k : Nat) (x : Stack) : (s.setStack k x).clk = s.clk := rfl
@[simp] theorem State.setStack_bel (s : State) (k : Nat) (x : Stack) : (s.setStack k x).bel = s.bel := rfl
@[simp] theorem State.setStack_ldg (s : State) (k : Nat) (x : Stack) : (s.setStack k x).ldg = s.ldg := rfl
@[simp] theorem State.setStack_topo (s : State) (k : Nat) (x : Stack) : (s.setStack k x).topo = s.topo := rfl
@[simp] theorem State.setStack_ctl (s : State) (k : Nat) (x : Stack) : (s.setStack k x).ctl = s.ctl := rfl
@[simp] theorem State.setStack_hst (s : State) (k : Nat) (x : Stack) : (s.setStack k x).hst = s.hst := rfl
@[simp] theorem State.setStack_links (s : State) (k : Nat) (x : Stack) : (s.setStack k x).links = s.links := rfl
@[simp] theorem State.setStack_transit (s : State) (k : Nat) (x : Stack) : (s.setStack k x).transit = s.transit := rfl
@[simp] theorem State.setStack_holding (s : State) (k : Nat) (x : Stack) : (s.setStack k x).holding = s.holding := rfl
@[simp] theorem State.setStack_opn (s : State) (k : Nat) (x : Stack) : (s.setStack k x).opn = s.opn := rfl
@[simp] theorem State.setStack_wgt (s : State) (k : Nat) (x : Stack) : (s.setStack k x).wgt = s.wgt := rfl
@[simp] theorem State.setStack_sec (s : State) (k : Nat) (x : Stack) : (s.setStack k x).sec = s.sec := rfl
@[simp] theorem State.setStack_lif (s : State) (k : Nat) (x : Stack) : (s.setStack k x).lif = s.lif := rfl
@[simp] theorem State.setStack_pwr (s : State) (k : Nat) (x : Stack) : (s.setStack k x).pwr = s.pwr := rfl
@[simp] theorem State.setStack_rst (s : State) (k : Nat) (x : Stack) : (s.setStack k x).rst = s.rst := rfl
@[simp] theorem State.setStack_load (s : State) (k : Nat) (x : Stack) : (s.setStack k x).load = s.load := rfl
@[simp] theorem State.setStack_fwu (s : State) (k : Nat) (x : Stack) : (s.setStack k x).fwu = s.fwu := rfl
@[simp] theorem State.setStack_free (s : State) (k : Nat) (x : Stack) : (s.setStack k x).free = s.free := rfl
@[simp] theorem State.setStack_pending (s : State) (k : Nat) (x : Stack) : (s.setStack k x).pending = s.pending := rfl

/-! ### setLink -/

@[simp] theorem State.setLink_regs (s : State) (n : Nat) (x : LinkUnit) : (s.setLink n x).regs = s.regs := rfl
@[simp] theorem State.setLink_halves (s : State) (n : Nat) (x : LinkUnit) : (s.setLink n x).halves = s.halves := rfl
@[simp] theorem State.setLink_rdata (s : State) (n : Nat) (x : LinkUnit) : (s.setLink n x).rdata = s.rdata := rfl
@[simp] theorem State.setLink_fuse (s : State) (n : Nat) (x : LinkUnit) : (s.setLink n x).fuse = s.fuse := rfl
@[simp] theorem State.setLink_cores (s : State) (n : Nat) (x : LinkUnit) : (s.setLink n x).cores = s.cores := rfl
@[simp] theorem State.setLink_evFlight (s : State) (n : Nat) (x : LinkUnit) : (s.setLink n x).evFlight = s.evFlight := rfl
@[simp] theorem State.setLink_hbm (s : State) (n : Nat) (x : LinkUnit) : (s.setLink n x).hbm = s.hbm := rfl
@[simp] theorem State.setLink_hbms (s : State) (n : Nat) (x : LinkUnit) : (s.setLink n x).hbms = s.hbms := rfl
@[simp] theorem State.setLink_clk (s : State) (n : Nat) (x : LinkUnit) : (s.setLink n x).clk = s.clk := rfl
@[simp] theorem State.setLink_bel (s : State) (n : Nat) (x : LinkUnit) : (s.setLink n x).bel = s.bel := rfl
@[simp] theorem State.setLink_ldg (s : State) (n : Nat) (x : LinkUnit) : (s.setLink n x).ldg = s.ldg := rfl
@[simp] theorem State.setLink_topo (s : State) (n : Nat) (x : LinkUnit) : (s.setLink n x).topo = s.topo := rfl
@[simp] theorem State.setLink_ctl (s : State) (n : Nat) (x : LinkUnit) : (s.setLink n x).ctl = s.ctl := rfl
@[simp] theorem State.setLink_hst (s : State) (n : Nat) (x : LinkUnit) : (s.setLink n x).hst = s.hst := rfl
@[simp] theorem State.setLink_transit (s : State) (n : Nat) (x : LinkUnit) : (s.setLink n x).transit = s.transit := rfl
@[simp] theorem State.setLink_holding (s : State) (n : Nat) (x : LinkUnit) : (s.setLink n x).holding = s.holding := rfl
@[simp] theorem State.setLink_opn (s : State) (n : Nat) (x : LinkUnit) : (s.setLink n x).opn = s.opn := rfl
@[simp] theorem State.setLink_wgt (s : State) (n : Nat) (x : LinkUnit) : (s.setLink n x).wgt = s.wgt := rfl
@[simp] theorem State.setLink_sec (s : State) (n : Nat) (x : LinkUnit) : (s.setLink n x).sec = s.sec := rfl
@[simp] theorem State.setLink_lif (s : State) (n : Nat) (x : LinkUnit) : (s.setLink n x).lif = s.lif := rfl
@[simp] theorem State.setLink_pwr (s : State) (n : Nat) (x : LinkUnit) : (s.setLink n x).pwr = s.pwr := rfl
@[simp] theorem State.setLink_rst (s : State) (n : Nat) (x : LinkUnit) : (s.setLink n x).rst = s.rst := rfl
@[simp] theorem State.setLink_load (s : State) (n : Nat) (x : LinkUnit) : (s.setLink n x).load = s.load := rfl
@[simp] theorem State.setLink_fwu (s : State) (n : Nat) (x : LinkUnit) : (s.setLink n x).fwu = s.fwu := rfl
@[simp] theorem State.setLink_free (s : State) (n : Nat) (x : LinkUnit) : (s.setLink n x).free = s.free := rfl
@[simp] theorem State.setLink_pending (s : State) (n : Nat) (x : LinkUnit) : (s.setLink n x).pending = s.pending := rfl

/-! ### Reads across writes -/

@[simp] theorem State.setCore_f_read (s : State) (n : Nat) (c : Core) (g : Fld) (j : Nat) : (s.setCore n c).f g j = s.f g j := rfl
@[simp] theorem State.setStack_f_read (s : State) (k : Nat) (x : Stack) (g : Fld) (j : Nat) : (s.setStack k x).f g j = s.f g j := rfl
@[simp] theorem State.setLink_f_read (s : State) (n : Nat) (x : LinkUnit) (g : Fld) (j : Nat) : (s.setLink n x).f g j = s.f g j := rfl
@[simp] theorem State.setF_core_read (s : State) (fl : Fld) (i v : Nat) (j : Nat) : (s.setF fl i v).core j = s.core j := rfl
@[simp] theorem State.setStack_core_read (s : State) (k : Nat) (x : Stack) (j : Nat) : (s.setStack k x).core j = s.core j := rfl
@[simp] theorem State.setLink_core_read (s : State) (n : Nat) (x : LinkUnit) (j : Nat) : (s.setLink n x).core j = s.core j := rfl
@[simp] theorem State.setF_stack_read (s : State) (fl : Fld) (i v : Nat) (j : Nat) : (s.setF fl i v).stack j = s.stack j := rfl
@[simp] theorem State.setCore_stack_read (s : State) (n : Nat) (c : Core) (j : Nat) : (s.setCore n c).stack j = s.stack j := rfl
@[simp] theorem State.setLink_stack_read (s : State) (n : Nat) (x : LinkUnit) (j : Nat) : (s.setLink n x).stack j = s.stack j := rfl
@[simp] theorem State.setF_link_read (s : State) (fl : Fld) (i v : Nat) (j : Nat) : (s.setF fl i v).link j = s.link j := rfl
@[simp] theorem State.setCore_link_read (s : State) (n : Nat) (c : Core) (j : Nat) : (s.setCore n c).link j = s.link j := rfl
@[simp] theorem State.setStack_link_read (s : State) (k : Nat) (x : Stack) (j : Nat) : (s.setStack k x).link j = s.link j := rfl

/-! ### Reads after writes -/

@[simp] theorem State.f_setF_same (s : State) (fl : Fld) (i v : Nat) : (s.setF fl i v).f fl i = v % 2 ^ fl.w := by
  simp [State.f, State.setF]

/-- A field of another code reads as before; the side condition is decided for concrete fields. -/
theorem State.f_setF_code (s : State) (fl g : Fld) (i j v : Nat) (h : (fl.code % 1024 == g.code % 1024) = false) :
    (s.setF fl i v).f g j = s.f g j := by
  unfold State.f State.setF
  rw [Map.get_set_other]
  simp only [Fld.key]
  simp at h
  omega

/-- Another instance of the same field reads as before. -/
theorem State.f_setF_idx (s : State) (fl : Fld) {i j : Nat} (v : Nat) (h : j ≠ i) : (s.setF fl i v).f fl j = s.f fl j := by
  unfold State.f State.setF
  rw [Map.get_set_other]
  simp only [Fld.key]
  omega

/-- A field holds no more than its bits. -/
theorem State.f_lt (s : State) (fl : Fld) (i : Nat) : s.f fl i < 2 ^ fl.w := Nat.mod_lt _ (Nat.two_pow_pos _)

@[simp] theorem State.core_setCore_same (s : State) (n : Nat) (c : Core) : (s.setCore n c).core n = c := by
  simp [State.core, State.setCore]

theorem State.core_setCore_other (s : State) {m n : Nat} (c : Core) (h : m ≠ n) : (s.setCore n c).core m = s.core m := by
  unfold State.core State.setCore
  rw [Map.get_set_other _ _ _ _ h]

@[simp] theorem State.link_setLink_same (s : State) (n : Nat) (x : LinkUnit) : (s.setLink n x).link n = x := by
  simp [State.link, State.setLink]

theorem State.link_setLink_other (s : State) {m n : Nat} (x : LinkUnit) (h : m ≠ n) : (s.setLink n x).link m = s.link m := by
  unfold State.link State.setLink
  rw [Map.get_set_other _ _ _ _ h]

@[simp] theorem State.stack_setStack_same (s : State) (n : Nat) (x : Stack) : (s.setStack n x).stack n = x := by
  simp [State.stack, State.setStack]

theorem State.stack_setStack_other (s : State) {m n : Nat} (x : Stack) (h : m ≠ n) : (s.setStack n x).stack m = s.stack m := by
  unfold State.stack State.setStack
  rw [Map.get_set_other _ _ _ _ h]

/-! ### The canonical form of the register file -/

theorem State.setF_rising {s : State} (h : Map.rising s.regs) (fl : Fld) (i v : Nat) : Map.rising (s.setF fl i v).regs :=
  Map.set_rising h _ _ _

end Sys2Proof.Machine
end

