-- ==== Sys2Proof/Laws/Frame.lean ====
section
/-!
SUPPORT. Frames: how "every other register reads as before" composes over writes of registers, of cores, of links and of stacks.
-/
namespace Sys2Proof.Machine

/-- Every code is below 1024, so that `Fld.key` holds a code and an instance apart. -/
theorem Fld.code_lt {fl : Fld} (h : fl ∈ allFlds) : fl.code < 1024 := by
  have key : allFlds.all (fun g => decide (g.code < 1024)) = true := by decide +kernel
  simpa using List.all_eq_true.mp key fl h

/-- A write of one field leaves another instance or another field alone. -/
theorem State.f_setF_key (s : State) (fl g : Fld) (i j v : Nat) (h : g.key j ≠ fl.key i) : (s.setF fl i v).f g j = s.f g j := by
  unfold State.f State.setF
  rw [Map.get_set_other _ _ _ _ h]

theorem sameRegs_refl (s : State) (touch : Fld → Nat → Bool) : sameRegs s s touch := fun _ _ _ _ => rfl

theorem sameRegs_trans {s t u : State} {touch : Fld → Nat → Bool} (h : sameRegs s t touch) (k : sameRegs t u touch) : sameRegs s u touch :=
  fun fl hm i hn => (k fl hm i hn).trans (h fl hm i hn)

theorem sameRegs_mono {s t : State} {a b : Fld → Nat → Bool} (h : sameRegs s t a) (k : ∀ fl i, b fl i = false → a fl i = false) :
    sameRegs s t b := fun fl hm i hn => h fl hm i (k fl i hn)

/-- The same register file reads the same. -/
theorem sameRegs_of_regs {s t u : State} {touch : Fld → Nat → Bool} (h : sameRegs s t touch) (k : u.regs = t.regs) : sameRegs s u touch :=
  fun fl hm i hn => by
    rw [← h fl hm i hn]
    unfold State.f
    rw [k]

/-- A write of a touched field. -/
theorem sameRegs_setF {s t : State} {touch : Fld → Nat → Bool} (h : sameRegs s t touch) (g : Fld) (j v : Nat) (hg : g.code < 1024)
    (ht : ∀ fl, fl.code = g.code → touch fl j = true) : sameRegs s (t.setF g j v) touch := by
  intro fl hm i hn
  rw [State.f_setF_key, h fl hm i hn]
  intro he
  have hc := Fld.code_lt hm
  simp only [Fld.key] at he
  have h1 : fl.code = g.code := by omega
  have h2 : i = j := by omega
  subst h2
  rw [ht fl h1] at hn
  exact Bool.noConfusion hn

theorem sameRegs_setCore {s t : State} {touch : Fld → Nat → Bool} (h : sameRegs s t touch) (n : Nat) (c : Core) :
    sameRegs s (t.setCore n c) touch := sameRegs_of_regs h rfl

/-- The listed fields hold each of their codes. -/
theorem touches_code (l : List Fld) {fl g : Fld} (h : fl.code = g.code) (k : touches l g = true) : touches l fl = true := by
  unfold touches at *
  rw [h]
  exact k

/-- A field of a listed code is in every list that holds the list. -/
theorem touches_mono {l l' : List Fld} (h : l'.all (touches l) = true) {fl : Fld} (k : touches l fl = false) : touches l' fl = false := by
  cases e : touches l' fl with
  | false => rfl
  | true =>
    unfold touches at e
    obtain ⟨g, hg, hc⟩ := List.any_eq_true.mp e
    have := touches_code l (fl := fl) (g := g) (beq_iff_eq.mp hc).symm (List.all_eq_true.mp h g hg)
    rw [this] at k
    exact Bool.noConfusion k

end Sys2Proof.Machine
end

