-- ==== Sys2Proof/Laws/Issue.lean ====
section
/-!
SUPPORT. What issuing a packet of one slot does (R72, R96, R324): the counters and the scoreboard before the slot's effect, and the status and
PC after it.
-/
namespace Sys2Proof.Machine

/-- Nothing but the register file and core n differs, and of core n only the fields of `issueCore`. -/
def quietCore (s t : State) (n : Nat) : Prop := onlyCore s t n ∧ issueCore (s.core n) (t.core n) = s.core n

theorem quietCore_refl (s : State) (n : Nat) : quietCore s s n := ⟨⟨rfl, fun _ _ => rfl⟩, rfl⟩

theorem onlyCore_trans {s t u : State} {n : Nat} (h : onlyCore s t n) (k : onlyCore t u n) : onlyCore s u n := by
  refine ⟨?_, fun m hm => (k.2 m hm).trans (h.2 m hm)⟩
  have h1 := h.1
  have k1 := k.1
  cases s; cases t; cases u
  simp_all

theorem quietCore_trans {s t u : State} {n : Nat} (h : quietCore s t n) (k : quietCore t u n) : quietCore s u n := by
  refine ⟨onlyCore_trans h.1 k.1, ?_⟩
  have h2 := h.2
  have k2 := k.2
  rw [← h2, ← k2]
  rfl

theorem quietCore_setF (s : State) (fl : Fld) (i v n : Nat) : quietCore s (s.setF fl i v) n := ⟨⟨rfl, fun _ _ => rfl⟩, rfl⟩

theorem onlyCore_modCore (s : State) (n : Nat) (f : Core → Core) : onlyCore s (s.modCore n f) n := by
  refine ⟨rfl, fun m hm => ?_⟩
  exact State.core_setCore_other s (f (s.core n)) hm

theorem quietCore_modCore (s : State) (n : Nat) (f : Core → Core) (h : issueCore (s.core n) (f (s.core n)) = s.core n) :
    quietCore s (s.modCore n f) n := by
  refine ⟨onlyCore_modCore s n f, ?_⟩
  unfold State.modCore
  rw [State.core_setCore_same]
  exact h

/-- A write of a counter. -/
theorem sameRegs_bump {s t : State} {touch : Fld → Nat → Bool} (h : sameRegs s t touch) (g : Fld) (j k : Nat) (hg : g.code < 1024)
    (ht : ∀ fl, fl.code = g.code → touch fl j = true) : sameRegs s (t.bump g j k) touch := sameRegs_setF h g j _ hg ht

/-- The counters that an issue moves (R324, R411). -/
def counterTouch (c : Nat) (fl : Fld) (i : Nat) : Bool :=
  fldsAt [.PMC_CYCLES_CYCLES, .PMC_STATUS_SAT, .MXE_WAIT_CYC_CYCLES] c fl i || (touches [.PMC_CNT_COUNT] fl && i / 8 == c)

/-- A property kept by every pass of `upto`. -/
theorem upto_inv {α : Type} (P : α → Prop) (n : Nat) (f : Nat → α → α) (a : α) (h : P a) (k : ∀ i a, i < n → P a → P (f i a)) : P (upto n f a) := by
  unfold upto
  have : ∀ (l : List Nat) (a : α), (∀ i ∈ l, i < n) → P a → P (l.foldl (fun x i => f i x) a) := by
    intro l
    induction l with
    | nil => intro a _ h; exact h
    | cons i l ih =>
      intro a hl ha
      exact ih _ (fun j hj => hl j (List.mem_cons_of_mem _ hj)) (k i a (hl i List.mem_cons_self) ha)
  exact this _ a (fun i hi => List.mem_range.mp hi) h

/-- What an issue's counting and scoreboard leave: the registers but for the counters, and core n but for its clock. -/
def counted (s t : State) (n : Nat) : Prop := sameRegs s t (counterTouch n) ∧ quietCore s t n ∧ (t.core n).loops = (s.core n).loops

theorem counted_refl (s : State) (n : Nat) : counted s s n := ⟨sameRegs_refl s _, quietCore_refl s n, rfl⟩

theorem counted_trans {s t u : State} {n : Nat} (h : counted s t n) (k : counted t u n) : counted s u n :=
  ⟨sameRegs_trans h.1 k.1, quietCore_trans h.2.1 k.2.1, k.2.2.trans h.2.2⟩

theorem counted_setF (s : State) (n : Nat) (g : Fld) (j v : Nat) (hg : g.code < 1024) (ht : ∀ fl, fl.code = g.code → counterTouch n fl j = true) :
    counted s (s.setF g j v) n :=
  ⟨sameRegs_setF (sameRegs_refl s _) g j v hg ht, quietCore_setF s g j v n, rfl⟩

theorem counted_modCore (s : State) (n : Nat) (f : Core → Core) (h : issueCore (s.core n) (f (s.core n)) = s.core n)
    (hl : (f (s.core n)).loops = (s.core n).loops) : counted s (s.modCore n f) n :=
  ⟨sameRegs_setCore (sameRegs_refl s _) n _, quietCore_modCore s n f h, by
    unfold State.modCore
    rw [State.core_setCore_same]
    exact hl⟩

theorem counterTouch_cnt (n i : Nat) (h : i < 8) : ∀ fl, fl.code = Fld.PMC_CNT_COUNT.code → counterTouch n fl (8 * n + i) = true := by
  intro fl hc
  have : (8 * n + i) / 8 = n := by omega
  simp [counterTouch, this, touches_code [.PMC_CNT_COUNT] hc (by decide)]

theorem counterTouch_at (n : Nat) (g : Fld) (hg : touches [.PMC_CYCLES_CYCLES, .PMC_STATUS_SAT, .MXE_WAIT_CYC_CYCLES] g = true) :
    ∀ fl, fl.code = g.code → counterTouch n fl n = true := by
  intro fl hc
  simp [counterTouch, fldsAt, touches_code _ hc hg]

/-- Counting an event changes counters of core n alone (R324). -/
theorem counted_pmc (s : State) (n e k : Nat) : counted s (s.pmc n e k) n := by
  unfold State.pmc
  apply upto_inv (fun t => counted s t n) 8 _ s (counted_refl s n)
  intro i t hi ht
  split
  · refine counted_trans ht ?_
    have h1 : counted t (t.bump .PMC_CNT_COUNT (8 * n + i) k) n := counted_setF t n _ _ _ (by decide) (counterTouch_cnt n i hi)
    split
    · exact counted_trans h1 (counted_setF _ n _ _ _ (by decide) (counterTouch_at n _ (by decide)))
    · exact h1
  · exact ht

/-- Counting an event where there is anything to count (R324). -/
theorem counted_pmcIf (s : State) (n e k : Nat) : counted s (s.pmcIf n e k) n := by
  unfold State.pmcIf
  split
  · exact counted_refl s n
  · exact counted_pmc s n e k

/-- Spending cycles changes counters and the clock of core n alone (R324, R325). -/
theorem counted_spend (s : State) (n k : Nat) (back : Bool) : counted s (s.spend n k back) n := by
  unfold State.spend
  have h1 : counted s (s.bump .PMC_CYCLES_CYCLES n k) n := counted_setF s n _ _ _ (by decide) (counterTouch_at n _ (by decide))
  refine counted_trans ?_ (counted_pmcIf _ n _ _)
  refine counted_trans ?_ (counted_pmcIf _ n _ _)
  refine counted_trans ?_ (counted_pmcIf _ n _ _)
  refine counted_trans ?_ (counted_pmcIf _ n _ _)
  exact counted_trans h1 (counted_modCore _ n _ rfl rfl)

/-- The scoreboard changes counters, the clock and the ready cycles of core n alone (R93, R118). -/
theorem counted_schedule (s : State) (n : Nat) (slots : List Slot) : counted s (s.schedule n slots) n := by
  unfold State.schedule
  dsimp only
  have a1 : ∀ (t : State) (k : Nat), counted t ((t.bump .MXE_WAIT_CYC_CYCLES n k).pmc n 0x13 k) n := fun t k =>
    counted_trans (counted_setF t n _ _ _ (by decide) (counterTouch_at n _ (by decide))) (counted_pmc _ n _ _)
  have a2 : ∀ (b : Prop) [Decidable b] (s t u : State), counted s t n → counted t u n → counted s (if b then t else u) n := by
    intro b _ s t u h k
    split
    · exact h
    · exact counted_trans h k
  apply a2
  · refine counted_trans ?_ (counted_spend _ n _ _)
    refine counted_trans ?_ (counted_modCore _ n _ rfl rfl)
    apply a2
    · exact a2 _ s s _ (counted_refl s n) (a1 s _)
    · exact counted_spend _ n _ _
  · exact counted_trans (counted_spend _ n _ _) (counted_pmc _ n _ _)

/-- A property kept by every step of a fold. -/
theorem foldl_inv {α β : Type} (P : α → Prop) (f : α → β → α) (l : List β) (a : α) (h : P a) (k : ∀ a b, P a → P (f a b)) : P (l.foldl f a) := by
  induction l generalizing a with
  | nil => exact h
  | cons b l ih => exact ih _ (k a b h)

theorem counted_countPacket (s : State) (n : Nat) (slots : List Slot) : counted s (s.countPacket n slots) n := by
  unfold State.countPacket
  apply foldl_inv (fun t => counted s t n)
  · exact counted_pmc s n 0x01 1
  · intro t x h
    exact counted_trans h (counted_pmc t n _ 1)

/-- The end of a packet that goes on at the next: the status, then the loops and the PC. -/
def wrapUp (n : Nat) (ctl : Ctl) (s : State) : State :=
  (((s.setF .CORE_STATUS_STATE n stRun).setF .CORE_STATUS_WAIT_KIND n 0).modCore n Core.endWait).advance n ctl

/-- Issuing a packet of one slot that meets no fault and does not wait: the effect on a counted state, then the end. -/
theorem one_run (n slot : Nat) (i : Instr) (m : Sem) (s : State) (h1 : s.cst n = stRun) (h2 : s.clocked n = true) (hf : m.faults = [])
    (hw : m.wait = 0) : ∃ s1, counted s s1 n ∧ one n slot i m s = .next (wrapUp n m.ctl (m.run s1)) := by
  refine ⟨(s.countPacket n [⟨slot, i, m⟩]).schedule n [⟨slot, i, m⟩], counted_trans (counted_countPacket s n _) (counted_schedule _ n _), ?_⟩
  have hpf : packetFault s [⟨slot, i, m⟩] = none := by
    simp [packetFault, slotFaults, hf, conflicts, when_, lowest]
  simp [one, issue, h1, h2, issueNow, hpf, packetWait, hw, complete_, wrapUp, packetCtl]

/-- The end of a packet, when the next one is in the program. -/
theorem wrapUp_seq (n : Nat) (ctl : Ctl) (s : State) (hc : ctl ≠ .halt)
    (hp : (nextPc ctl (s.core n).loops (s.f .CORE_PC_PC n)).2 < s.progPackets n) :
    let t := wrapUp n ctl s
    sameRegs s t (fldsAt [.CORE_PC_PC, .CORE_STATUS_STATE, .CORE_STATUS_WAIT_KIND] n) ∧ quietCore s t n ∧
      (t.core n).loops = (nextPc ctl (s.core n).loops (s.f .CORE_PC_PC n)).1 ∧
      t.f .CORE_PC_PC n = (nextPc ctl (s.core n).loops (s.f .CORE_PC_PC n)).2 ∧ t.cst n = stRun := by
  intro t
  have e : t = ((((s.setF .CORE_STATUS_STATE n stRun).setF .CORE_STATUS_WAIT_KIND n 0).modCore n
      Core.endWait).modCore n
      (fun c => { c with loops := (nextPc ctl (s.core n).loops (s.f .CORE_PC_PC n)).1 })).setF .CORE_PC_PC n
      (nextPc ctl (s.core n).loops (s.f .CORE_PC_PC n)).2 := by
    show wrapUp n ctl s = _
    have hpc : (((s.setF .CORE_STATUS_STATE n stRun).setF .CORE_STATUS_WAIT_KIND n 0).modCore n
      Core.endWait).f .CORE_PC_PC n = s.f .CORE_PC_PC n := by
      show ((s.setF .CORE_STATUS_STATE n stRun).setF .CORE_STATUS_WAIT_KIND n 0).f .CORE_PC_PC n = s.f .CORE_PC_PC n
      rw [State.f_setF_code _ _ _ _ _ _ (by decide), State.f_setF_code _ _ _ _ _ _ (by decide)]
    have hlp : (((s.setF .CORE_STATUS_STATE n stRun).setF .CORE_STATUS_WAIT_KIND n 0).modCore n
      Core.endWait).core n = (s.core n).endWait := by
      unfold State.modCore
      rw [State.core_setCore_same]
      rfl
    have hpp : ∀ f : Core → Core, ((((s.setF .CORE_STATUS_STATE n stRun).setF .CORE_STATUS_WAIT_KIND n 0).modCore n
      Core.endWait).progPackets n) = s.progPackets n := by
      intro _
      show ((((s.setF .CORE_STATUS_STATE n stRun).setF .CORE_STATUS_WAIT_KIND n 0).f .CORE_PROG_SIZE n) + 1) * 4096 = _
      rw [State.f_setF_code _ _ _ _ _ _ (by decide), State.f_setF_code _ _ _ _ _ _ (by decide)]
      rfl
    unfold wrapUp State.advance
    dsimp only
    rw [hpc, hlp, hpp id, if_neg hc]
    exact if_neg (Nat.not_le.mpr hp)
  have tch : ∀ g ∈ [Fld.CORE_PC_PC, Fld.CORE_STATUS_STATE, Fld.CORE_STATUS_WAIT_KIND], ∀ fl : Fld, fl.code = g.code →
      fldsAt [.CORE_PC_PC, .CORE_STATUS_STATE, .CORE_STATUS_WAIT_KIND] n fl n = true := by
    intro g hg fl hc
    simp only [fldsAt, beq_self_eq_true, Bool.and_true]
    apply touches_code _ hc
    simp only [List.mem_cons, List.not_mem_nil, or_false] at hg
    rcases hg with rfl | rfl | rfl <;> decide
  rw [e]
  refine ⟨?_, ?_, ?_, ?_, ?_⟩
  · apply sameRegs_setF _ _ _ _ (by decide) (tch _ (by simp))
    apply sameRegs_setCore
    apply sameRegs_setCore
    apply sameRegs_setF _ _ _ _ (by decide) (tch _ (by simp))
    exact sameRegs_setF (sameRegs_refl s _) _ _ _ (by decide) (tch _ (by simp))
  · refine quietCore_trans ?_ (quietCore_setF _ _ _ _ _)
    refine quietCore_trans ?_ (quietCore_modCore _ _ _ rfl)
    refine quietCore_trans ?_ (quietCore_modCore _ _ _ rfl)
    exact quietCore_trans (quietCore_setF s _ _ _ _) (quietCore_setF _ _ _ _ _)
  · rw [State.setF_core_read]
    unfold State.modCore
    rw [State.core_setCore_same]
  · rw [State.f_setF_same]
    have := State.f_lt s .CORE_PROG_SIZE n
    have w1 : Fld.CORE_PROG_SIZE.w = 4 := by decide
    have w2 : Fld.CORE_PC_PC.w = 16 := by decide
    unfold State.progPackets at hp
    rw [w1] at this
    rw [w2]
    exact Nat.mod_eq_of_lt (by omega)
  · unfold State.cst
    rw [State.f_setF_code _ _ _ _ _ _ (by decide)]
    show ((s.setF .CORE_STATUS_STATE n stRun).setF .CORE_STATUS_WAIT_KIND n 0).f .CORE_STATUS_STATE n = stRun
    rw [State.f_setF_code _ _ _ _ _ _ (by decide), State.f_setF_same]
    rfl

/-- Taking the fields that issuing a packet may change from one core and then from another takes them from the second. -/
theorem issueCore_twice (a b c : Core) : issueCore a (issueCore b c) = issueCore a c := rfl

/-- What a packet's issue leaves alone is left alone by its counters and by its end. -/
theorem issueTouch_split {n : Nat} {fl : Fld} {i : Nat} (h : issueTouch n fl i = false) :
    counterTouch n fl i = false ∧ fldsAt [.CORE_PC_PC, .CORE_STATUS_STATE, .CORE_STATUS_WAIT_KIND] n fl i = false := by
  simp only [issueTouch, Bool.or_eq_false_iff] at h
  obtain ⟨h1, h2⟩ := h
  simp only [counterTouch, fldsAt, Bool.or_eq_false_iff, Bool.and_eq_false_iff] at *
  refine ⟨⟨?_, h2⟩, ?_⟩ <;> rcases h1 with h1 | h1
  · exact .inl (touches_mono (by decide) h1)
  · exact .inr h1
  · exact .inl (touches_mono (by decide) h1)
  · exact .inr h1

/-- Issuing a packet of one slot that goes on at the next: the slot's effect on a counted state, and the frame of the whole. The effect
changes registers of `touch` alone and of the core only what `put` restores. -/
theorem one_seq (n slot : Nat) (i : Instr) (m : Sem) (s : State) (hi : canIssue s n) (hf : m.faults = []) (hw : m.wait = 0) (hc : m.ctl = .seq)
    (touch : Fld → Nat → Bool) (put : Core → Core → Core)
    (hr : ∀ s1, counted s s1 n → sameRegs s1 (m.run s1) touch ∧ onlyCore s1 (m.run s1) n ∧ put (s.core n) (issueCore (s.core n) ((m.run s1).core n)) = s.core n
       ∧ ((m.run s1).core n).loops = (s1.core n).loops)
    (ht : touch .CORE_PC_PC n = false) (hg : touch .CORE_PROG_SIZE n = false) :
    ∃ s1 t, counted s s1 n ∧ one n slot i m s = .next t ∧ wentOn s t n ∧ coreFrame s t n touch put ∧ quietCore (m.run s1) t n := by
  obtain ⟨s1, h1, e⟩ := one_run n slot i m s hi.1.1 hi.1.2 hf hw
  obtain ⟨r1, r2, r3, r4⟩ := hr s1 h1
  have ct : ∀ fl, touches [.PMC_CYCLES_CYCLES, .PMC_STATUS_SAT, .MXE_WAIT_CYC_CYCLES, .PMC_CNT_COUNT] fl = false → counterTouch n fl n = false := by
    intro fl h
    have a := touches_mono (l' := [.PMC_CYCLES_CYCLES, .PMC_STATUS_SAT, .MXE_WAIT_CYC_CYCLES]) (by decide) h
    have b := touches_mono (l' := [.PMC_CNT_COUNT]) (by decide) h
    simp [counterTouch, fldsAt, a, b]
  have hpc : (m.run s1).f .CORE_PC_PC n = s.f .CORE_PC_PC n := by
    rw [r1 _ (by decide +kernel) _ ht, h1.1 _ (by decide +kernel) _ (ct _ (by decide))]
  have hpg : (m.run s1).progPackets n = s.progPackets n := by
    unfold State.progPackets
    rw [r1 _ (by decide +kernel) _ hg, h1.1 _ (by decide +kernel) _ (ct _ (by decide))]
  have hlp : ((m.run s1).core n).loops = (s.core n).loops := by rw [r4, h1.2.2]
  obtain ⟨w1, w2, w3, w4, w5⟩ := wrapUp_seq n .seq (m.run s1) (by simp) (by rw [hpc, hlp, hpg]; exact hi.2)
  refine ⟨s1, wrapUp n .seq (m.run s1), h1, by rw [e, hc], ⟨w5, by rw [w4, hlp, hpc], by rw [w3, hlp, hpc]⟩, ⟨?_, ?_, ?_⟩, w2⟩
  · apply sameRegs_trans (sameRegs_mono h1.1 ?_) (sameRegs_trans (sameRegs_mono r1 ?_) (sameRegs_mono w1 ?_))
    · intro fl i h
      simp only [Bool.or_eq_false_iff] at h
      exact (issueTouch_split h.1).1
    · intro fl i h
      simp only [Bool.or_eq_false_iff] at h; exact h.2
    · intro fl i h
      simp only [Bool.or_eq_false_iff] at h
      exact (issueTouch_split h.1).2
  · exact onlyCore_trans h1.2.1.1 (onlyCore_trans r2 w2.1)
  · have e2 : issueCore (s.core n) ((wrapUp n .seq (m.run s1)).core n) = issueCore (s.core n) ((m.run s1).core n) := by
      rw [← issueCore_twice (s.core n) ((m.run s1).core n), w2.2]
    exact (congrArg (put (s.core n)) e2).trans r3

end Sys2Proof.Machine
end

