-- ==== Sys2Proof/Laws/Access.lean ====
section
/-!
SUPPORT. What waits for its turn: accesses to a stopped region (R45), reads for an owner's HBM slots (R172) and requests at the L2 (R329). One lemma
for each operation says all it can do.
-/
namespace Sys2Proof.Machine

/-! ### Accesses (R45) -/

theorem State.issueAccess_now {s : State} {i : Instr} (h : s.awaits i = false) : s.issueAccess i = s.access i := by
  simp [State.issueAccess, h]

theorem State.issueAccess_waits {s : State} {i : Instr} (h : s.awaits i = true) :
    s.issueAccess i = { s with clk := { s.clk with waiting := s.clk.waiting ++ [i] } } := by
  simp [State.issueAccess, h]

/-- An access acts at once, or joins those that wait and does nothing else. -/
theorem State.issueAccess_cases (s : State) (i : Instr) :
    (s.awaits i = false ∧ s.issueAccess i = s.access i) ∨
    (s.awaits i = true ∧ s.issueAccess i = { s with clk := { s.clk with waiting := s.clk.waiting ++ [i] } }) := by
  cases h : s.awaits i with
  | false => exact .inl ⟨rfl, s.issueAccess_now h⟩
  | true => exact .inr ⟨rfl, s.issueAccess_waits h⟩

/-! ### HBM slots (R172) -/

/-- Asking for slots changes the HBM controllers and nothing else. -/
theorem State.askSlots_frame (s : State) (o : SlotOwner) (as : List Nat) (act : HbmAct) :
    ∃ h, s.askSlots o as act = { s with hbms := h } := by
  refine upto_inv (fun t => ∃ h, t = { s with hbms := h }) 12 _ s ⟨s.hbms, rfl⟩ ?_
  rintro k _ - ⟨h, rfl⟩
  split
  · exact ⟨_, rfl⟩
  · exact ⟨h, rfl⟩

/-- An act whose reads wait already stays as it is; one that has no slots to wait for is done now; another only asks. -/
theorem State.viaSlots_cases (s : State) (o : SlotOwner) (as : List Nat) (act : HbmAct) (now : State → State) :
    (s.asked act = true ∧ s.viaSlots o as act now = s) ∨
    (s.asked act = false ∧ (s.askSlots o as act).asked act = false ∧ s.viaSlots o as act now = now s) ∨
    (s.asked act = false ∧ (s.askSlots o as act).asked act = true ∧ s.viaSlots o as act now = s.askSlots o as act) := by
  unfold State.viaSlots
  cases h : s.asked act <;> cases k : (s.askSlots o as act).asked act <;> simp [k]

/-! ### The L2 (R329) -/

/-- Serving a request changes the control complex and nothing else. -/
theorem State.l2Serve_frame (s : State) (r : L2Req) : ∃ c, s.l2Serve r = { s with ctl := c } := ⟨_, rfl⟩

/-- A cycle of the L2 changes the control complex and nothing else. -/
theorem State.l2Cycle_frame (s : State) : ∃ c, s.l2Cycle = { s with ctl := c } := by
  unfold State.l2Cycle
  split
  · exact ⟨s.ctl, rfl⟩
  · refine foldl_inv (fun t => ∃ c, t = { s with ctl := c }) _ _ _ ⟨{ s.ctl with l2 := [] }, rfl⟩ ?_
    rintro t r ⟨c, rfl⟩
    exact State.l2Serve_frame _ r

@[simp] theorem State.l2Cycle_idle {s : State} (h : s.ctl.l2 = []) : s.l2Cycle = s := by simp [State.l2Cycle, h]

end Sys2Proof.Machine
end

