-- ==== Sys2Proof/WellFormed.lean ====
section
/-!
DEFINITION. Well-formed commands: what a command must look like to stand for its event. Operands held in bit vectors and Fin need
no check; the checks are those of lists and of aligned register offsets. A meaning does not depend on them: the block's own
checks (a frame's CRC, a command's arguments) are part of the meanings.
-/
namespace Sys2Proof

/-- Whether a command is well formed: register accesses are aligned (R15), a frame is 524 bytes (R186), a TRAIN frame brings 16
exchanges (R199), a command entry is 64 bytes (R343), a nonce 48 (R361), a token 256 (R362), a ring block seven words (13, command
table). -/
def Instr.wf (i : Instr) : Bool :=
  match i with
  | .registerWrite _ off _ => off.toNat % 4 == 0
  | .lowHalfWrite _ off _ => off.toNat % 4 == 0
  | .highHalfWrite _ off _ => off.toNat % 4 == 0
  | .lowHalfRead _ off => off.toNat % 4 == 0
  | .highHalfRead _ off => off.toNat % 4 == 0
  | .rcRead _ off => off.toNat % 4 == 0
  | .droopEvent _ stretch _ => decide (stretch ≤ 1000)
  | .fllWindow _ _ _ => true
  | .alignTimeout _ => true
  | .referenceLoss => true
  | .referencePresent => true
  | .fchgArm _ => true
  | .freqChangeRestart => true
  | .bellPulse => true
  | .belCommitArm _ => true
  | .belFtIncWrite _ => true
  | .holdoverEntry => true
  | .belParentWrite _ => true
  | .belFtSetbellWrite _ => true
  | .belFtStepWrite _ => true
  | .join => true
  | .wallSet _ => true
  | .ppsCapture => true
  | .wallNsRead _ => true
  | .phaseRead _ => true
  | .trigArm _ _ => true
  | .nop _ => true
  | .add _ _ _ _ => true
  | .sub _ _ _ _ => true
  | .and _ _ _ _ => true
  | .or _ _ _ _ => true
  | .xor _ _ _ _ => true
  | .sll _ _ _ _ => true
  | .srl _ _ _ _ => true
  | .sra _ _ _ _ => true
  | .slt _ _ _ _ => true
  | .sltu _ _ _ _ => true
  | .min _ _ _ _ => true
  | .max _ _ _ _ => true
  | .mul _ _ _ _ => true
  | .mulhu _ _ _ _ => true
  | .addi _ _ _ _ => true
  | .andi _ _ _ _ => true
  | .ori _ _ _ _ => true
  | .xori _ _ _ _ => true
  | .slli _ _ _ _ => true
  | .srli _ _ _ _ => true
  | .srai _ _ _ _ => true
  | .slti _ _ _ _ => true
  | .lix _ _ _ _ => true
  | .ld _ _ _ _ => true
  | .lw _ _ _ _ => true
  | .st _ _ _ _ => true
  | .sw _ _ _ _ => true
  | .beq _ _ _ _ => true
  | .bne _ _ _ _ => true
  | .blt _ _ _ _ => true
  | .bge _ _ _ _ => true
  | .bltu _ _ _ _ => true
  | .bgeu _ _ _ _ => true
  | .jal _ _ _ => true
  | .jr _ _ _ => true
  | .loop _ _ _ => true
  | .trap _ _ => true
  | .halt _ => true
  | .rdsh _ _ _ => true
  | .waite _ _ _ _ => true
  | .waiteComplete _ => true
  | .evsend _ _ _ => true
  | .evsendDelivery _ _ _ => true
  | .evread _ _ _ => true
  | .waitp _ _ _ => true
  | .waitpComplete _ => true
  | .release _ _ => true
  | .pclr _ _ _ => true
  | .bellwait _ _ _ => true
  | .stepinc _ => true
  | .pack _ _ _ _ _ _ _ => true
  | .unpack _ _ _ _ _ => true
  | .put _ _ _ _ _ _ _ _ _ => true
  | .get _ _ _ _ _ _ _ _ _ => true
  | .acc _ _ _ _ _ _ _ _ _ => true
  | .atom _ _ _ _ _ _ _ _ _ => true
  | .porterLocalComplete _ => true
  | .waitLimit _ => true
  | .coreHold _ => true
  | .coreResume _ => true
  | .coreFenceWrite _ _ => true
  | .chipHaltStop => true
  | .mxcfg _ _ _ _ _ _ _ _ _ => true
  | .mxlw _ _ _ _ => true
  | .mxrun _ _ _ _ _ _ _ _ _ => true
  | .mxdrain _ _ _ _ _ _ _ _ => true
  | .drainEvent _ => true
  | .mxmask _ _ _ _ _ => true
  | .vmov _ _ _ _ _ => true
  | .vadd _ _ _ _ _ _ => true
  | .vsub _ _ _ _ _ _ => true
  | .vmul _ _ _ _ _ _ => true
  | .vfma _ _ _ _ _ _ => true
  | .vmin _ _ _ _ _ _ => true
  | .vmax _ _ _ _ _ _ => true
  | .vabs _ _ _ _ _ => true
  | .vneg _ _ _ _ _ => true
  | .vdiv _ _ _ _ _ _ => true
  | .vsqrt _ _ _ _ _ => true
  | .vbcast _ _ _ _ _ => true
  | .vcmpeq _ _ _ _ _ _ => true
  | .vcmplt _ _ _ _ _ _ => true
  | .vcmple _ _ _ _ _ _ => true
  | .vsel _ _ _ _ _ _ => true
  | .vand _ _ _ _ _ _ => true
  | .vor _ _ _ _ _ _ => true
  | .vxor _ _ _ _ _ _ => true
  | .vshl _ _ _ _ _ _ => true
  | .vshr _ _ _ _ _ _ => true
  | .vsra _ _ _ _ _ _ => true
  | .vcvt _ _ _ _ _ _ _ => true
  | .vmxsc _ _ _ _ _ _ _ => true
  | .vwid _ _ _ _ _ _ _ => true
  | .vrsum _ _ _ _ _ => true
  | .vrmax _ _ _ _ _ => true
  | .vld _ _ _ _ _ => true
  | .vst _ _ _ _ _ => true
  | .vgath _ _ _ _ _ => true
  | .vscat _ _ _ _ _ => true
  | .vexp _ _ _ _ _ => true
  | .vlog _ _ _ _ _ => true
  | .vrsqrt _ _ _ _ _ => true
  | .vtanh _ _ _ _ _ => true
  | .verf _ _ _ _ _ => true
  | .vsigm _ _ _ _ _ => true
  | .pand _ _ _ _ _ => true
  | .por _ _ _ _ _ => true
  | .pxor _ _ _ _ _ => true
  | .pnot _ _ _ _ => true
  | .rand _ _ _ _ _ _ _ => true
  | .tally _ _ _ _ _ => true
  | .temit _ _ => true
  | .pmcrd _ _ _ => true
  | .sld _ _ _ _ _ _ _ _ => true
  | .sst _ _ _ _ _ _ _ _ => true
  | .streamComplete _ => true
  | .pcieReadCompletion _ _ _ => true
  | .fillPortEcc _ _ => true
  | .hbmSlot _ _ => true
  | .hbmTempCheck _ _ => true
  | .txSlot _ => true
  | .frameReceive _ bytes _ => bytes.length == 524
  | .replayTimeout _ => true
  | .errLimitRetrain _ => true
  | .bellMarkReceive _ bytes _ => bytes.length == 524
  | .linkEnable _ => true
  | .linkDisable _ => true
  | .signalDetect _ _ => true
  | .trainPass _ _ _ _ => true
  | .trainFullTimeout _ => true
  | .trainFastTimeout _ => true
  | .trainFrameReceive _ t => t.refusal.isSome || t.exchanges.length == 16
  | .handshakeTimeout _ => true
  | .signalLoss _ => true
  | .laneLoss _ _ => true
  | .peerTrainingPattern _ => true
  | .lnkRetrainWrite _ => true
  | .lnkResetWrite _ => true
  | .lnkFlushWrite _ => true
  | .graceExpiry _ => true
  | .rekeyArm _ _ => true
  | .linkRetrain _ _ => true
  | .txPageLoad _ => true
  | .rxPageLoad _ => true
  | .flowVectorStart _ _ => true
  | .flowReset _ => true
  | .stlCommitArm _ _ => true
  | .opnCommitArm _ => true
  | .openPacketStart _ _ => true
  | .throttleCheck => true
  | .commitPlan _ _ => true
  | .openRequestArrival => true
  | .openReplyArrival => true
  | .openTimeout _ => true
  | .flowWatchReport _ _ _ => true
  | .chipAddrLock _ => true
  | .setMachineConfig cfg => decide (cfg.group < 1024)
  | .propose _ _ _ => true
  | .accept _ _ _ => true
  | .counter _ _ _ => true
  | .confirm _ _ _ => true
  | .done _ _ _ _ => true
  | .agreeDeadline _ => true
  | .doneDeadline _ => true
  | .noticeSend => true
  | .notice _ _ _ _ _ => true
  | .mergeClose => true
  | .recordDeliver => true
  | .setHealthy _ => true
  | .haltStep => true
  | .fenceCore _ _ => true
  | .loadBundle _ b _ => b.regions.length == 32 * 256 && b.shards.length % 32 == 0
  | .startRound _ => true
  | .loadShards jobs => jobs != []
  | .crierJobStart => true
  | .crierPieceWrite _ _ => true
  | .swapBank _ => true
  | .wgtSwapArm _ => true
  | .scrubPassStart => true
  | .scrubShard => true
  | .bar2Write _ data => data != []
  | .hostWriteRunClose => true
  | .replayFeed => true
  | .ldgWallNsRead _ => true
  | .ledgerMode _ _ _ rings => rings.all (fun ws => ws.length == 7)
  | .putBatch _ _ _ _ => true
  | .watchdogExpiry _ => true
  | .wdogKick _ _ => true
  | .masterChange _ _ => true
  | .mbxSend _ _ _ => true
  | .mbxTake _ _ => true
  | .mbxLockAcquire _ _ => true
  | .mbxLockRelease _ _ => true
  | .doorbell _ => true
  | .commandTake entry _ => entry.length == 64
  | .cplHeadWrite _ => true
  | .hostBar0Write off _ => off.toNat % 4 == 0
  | .functionLevelReset => true
  | .configRequest _ => true
  | .sidebandRead _ => true
  | .telemetryRefresh => true
  | .nopCommand => true
  | .setWallTime _ _ _ => true
  | .setPowerClass _ => true
  | .shutdown => true
  | .shutdownLinkDown _ => true
  | .fwUpdate _ _ _ _ _ => true
  | .fwCoreRestart => true
  | .fwRestartTimeout => true
  | .holdupRetry => true
  | .holdupRefusalTimeout => true
  | .attest _ _ nonce => nonce.length == 48
  | .zeroise _ _ => true
  | .tamper _ => true
  | .entropyFailure => true
  | .debugUnlock token => token.length == 256
  | .norOpStart => true
  | .norOpComplete => true
  | .journalRecord => true
  | .thermalTrip _ _ => true
  | .classDescent => true
  | .criticalTemp _ => true
  | .powerMeasure _ _ _ _ => true
  | .pwrgoodDeassert => true
  | .vauxLow => true
  | .pwrgoodAssert _ _ _ => true
  | .warmReset => true
  | .perstNAssert => true
  | .clusterReset _ => true
  | .clusterResetEnd _ => true
  | .coreReset _ => true
  | .coreResetEnd => true
  | .koEntry _ => true
  | .secureBoot => true
  | .firmwareStart => true
  | .clockStart => true
  | .hbmTrain _ => true
  | .linkTrainStart => true
  | .timeAcquire => true
  | .readyNotice => true
  | .linkRetrainTimeout => true
  | .batchLanded _ => true
  | .crierHostReadCompletion _ _ _ => true
  | .pwrThermTripleCheck => true

end Sys2Proof
end

