-- ==== Sys2Proof/Tests/Slice0.lean ====
section
/-!
SUPPORT. Tests: a refused term for each check of WellFormed, words decoded against the encoding tables, and for each statement concrete states
and operands that meet its hypotheses, clause by clause.
-/
namespace Sys2Proof.Tests
set_option Elab.async false
open Sys2Proof Sys2Proof.Machine

/-! ### Well-formedness: each check refuses an ill-formed term -/

theorem test_wf_register_offset : ([.registerWrite 0 2 1, .lowHalfWrite 0 6 1, .highHalfWrite 0 3 1, .lowHalfRead 0 1, .highHalfRead 0 7, .rcRead 0 5,
    .hostBar0Write 2 1] : List Instr).all (fun i => !i.wf) = true ∧ Instr.wf (.registerWrite 0 8 1) = true := by decide +kernel
theorem test_wf_stretch : Instr.wf (.droopEvent 0 1001 0) = false ∧ Instr.wf (.droopEvent 0 1000 0) = true := by decide +kernel
theorem test_wf_frames : Instr.wf (.frameReceive 0 [1] (some 0)) = false ∧ Instr.wf (.bellMarkReceive 0 [1] (some 0)) = false := by decide +kernel
theorem test_wf_machine : Instr.wf (.setMachineConfig ⟨1024, 1, [], 0, 0, 0, 0⟩) = false ∧ Instr.wf (.setMachineConfig ⟨1023, 1, [], 0, 0, 0, 0⟩) = true := by
  decide +kernel
theorem test_wf_lists : ([.loadShards [], .bar2Write 0 [], .ledgerMode 1 0 0 (some [1, 2]), .attest 0 1024 [1], .debugUnlock [1], .commandTake [] true] :
    List Instr).all (fun i => !i.wf) = true := by decide +kernel

theorem test_wf_exchanges : Instr.wf (.trainFrameReceive 0 ⟨none, 1, 1, 3, 0, false, false, 0, 0, List.replicate 15 (0, 0, 0, 0), none⟩) = false ∧
    Instr.wf (.trainFrameReceive 0 ⟨none, 1, 1, 3, 0, false, false, 0, 0, List.replicate 16 (0, 0, 0, 0), none⟩) = true := by decide +kernel

/-! ### Decoding: words written out from the encoding tables of 03, 04 and 05 -/

theorem test_decode_sub : decodeSlot 5 0 (0x02 + 3 * 2 ^ 8 + 1 * 2 ^ 13 + 4 * 2 ^ 18) = some (.sub 5 3 1 4) := by decide +kernel
theorem test_decode_vmul : decodeSlot 5 1 (0x03 + 7 * 2 ^ 8 + 1 * 2 ^ 13 + 2 * 2 ^ 18 + 6 * 2 ^ 23 + 3 * 2 ^ 26) = some (.vmul 5 3 6 2 1 7) := by decide +kernel
theorem test_decode_mxlw : decodeSlot 5 2 (0x02 + 9 * 2 ^ 8 + 4 * 2 ^ 13 + 2 * 2 ^ 18) = some (.mxlw 5 2 4 9) := by decide +kernel

/-! ### States for the witnesses -/

/-- s with register fields set. -/
def put (s : State) (l : List (Fld × Nat × Nat)) : State := l.foldl (fun s x => s.setF x.1 x.2.1 x.2.2) s
def inCore (s : State) (c : Nat) (f : Core → Core) : State := s.setCore c (f (s.core c))
def inLink (s : State) (n : Nat) (f : LinkUnit → LinkUnit) : State := s.setLink n (f (s.link n))
def gprs (l : List (Nat × Nat)) (k : Core) : Core := { k with sregs := l.foldl (fun m x => Map.set 0 m x.1 x.2) [] }
/-- Core 1 runs at packet 0 of a program of 4096 packets, with these scalar registers. -/
def run (l : List (Nat × Nat)) : State := inCore (put State.reset [(.CORE_STATUS_STATE, 1, stRun), (.CORE_PROG_SIZE, 1, 0)]) 1 (gprs l)

/-! ### Witnesses: steps and the scalar slot -/

theorem witness_StepRunsFront : ({ State.reset with pending := [.bellPulse, .join] } : State).pending = .bellPulse :: [.join] ∧
    State.reset.pending = [] := by decide +kernel
theorem witness_StepKeepsCanon : State.reset.canon := by unfold State.canon Mem.wf Map.wf; decide +kernel
theorem witness_DecodeEncode : slotBits (.add 5 3 1 3) = some (0, 0x00C2301) := by decide +kernel

theorem witness_ScalarRegister : canIssue (run [(1, 8)]) 1 := by decide +kernel
theorem witness_ScalarImmediate : canIssue (put (run []) [(.CORE_PC_PC, 1, 4094)]) 1 := by decide +kernel
theorem witness_ScalarLoad : ∀ a ∈ [8, 0x7FFFF8],
    let s := run [(1, a)]
    canIssue s 1 ∧ dataAddr s 1 1 0 % 8 = 0 ∧ dataAddr s 1 1 0 + 8 ≤ storeBytes ∧ (s.core 1).eccHit (dataAddr s 1 1 0) 8 = none := by decide +kernel
theorem witness_ScalarStore : ∀ a ∈ [0, (run []).progStart 1 - 8],
    let s := run [(1, a)]
    canIssue s 1 ∧ dataAddr s 1 1 0 % 8 = 0 ∧ dataAddr s 1 1 0 + 8 ≤ s.progStart 1 := by decide +kernel
theorem witness_ScalarAccessFaults :
    (let s := run [(1, 0x7FFFF9)]; runs s 1 ∧ storeBytes < dataAddr s 1 1 0 + 8) ∧
    (let s := run [(1, 0x7FFFF7)]; runs s 1 ∧ dataAddr s 1 1 0 + 8 ≤ storeBytes ∧ dataAddr s 1 1 0 % 8 ≠ 0) ∧
    (let s := run [(1, (run []).progStart 1 - 7)]; runs s 1 ∧ s.progStart 1 < dataAddr s 1 1 0 + 8) ∧
    (let s := run [(1, (run []).progStart 1 - 9)]; runs s 1 ∧ dataAddr s 1 1 0 + 8 ≤ s.progStart 1 ∧ dataAddr s 1 1 0 % 8 ≠ 0) := by decide +kernel

theorem witness_BranchesAndJumps_not_taken : let s := run [(1, 1)]; runs s 1 ∧ (gpr s 1 1 == gpr s 1 2) = false ∧ canIssue s 1 := by decide +kernel
theorem witness_BranchesAndJumps_taken : let s := put (run []) [(.CORE_PC_PC, 1, 7)]
    runs s 1 ∧ (gpr s 1 1 == gpr s 1 2) = true ∧ 0 ≤ (s.f .CORE_PC_PC 1 : Int) + (-7 : BitVec 22).toInt ∧
      (s.f .CORE_PC_PC 1 : Int) + (4088 : BitVec 22).toInt < s.progPackets 1 := by decide +kernel
theorem witness_BranchesAndJumps_range : let s := put (run []) [(.CORE_PC_PC, 1, 7)]
    runs s 1 ∧ (gpr s 1 1 == gpr s 1 2) = true ∧ (s.f .CORE_PC_PC 1 : Int) + (-8 : BitVec 22).toInt < 0 ∧
      s.progPackets 1 ≤ (s.f .CORE_PC_PC 1 : Int) + (4089 : BitVec 22).toInt := by decide +kernel
theorem witness_BranchesAndJumps_jumps :
    (let s := run [(1, 4095)]; canIssue s 1 ∧ dataAddr s 1 1 0 < s.progPackets 1) ∧
    (let s := run [(1, 4096)]; runs s 1 ∧ s.progPackets 1 ≤ dataAddr s 1 1 0) := by decide +kernel

/-- Core 1 at packet 4 with these active loops. -/
def looping (n : Nat) (l : List LoopEnt) : State := inCore (put (run [(1, n)]) [(.CORE_PC_PC, 1, 4)]) 1 (fun k => { k with loops := l })

theorem witness_Loops_starts :
    (let s := looping 7 [⟨2, 0, 9⟩, ⟨2, 0, 9⟩, ⟨2, 0, 9⟩]; runs s 1 ∧ 0 < (5 : BitVec 22).toInt ∧ (∀ l ∈ (s.core 1).loops.head?, (4 : Int) + 5 ≤ l.last) ∧
      (4 : Int) + 5 < s.progPackets 1 ∧ (gpr s 1 1).toNat ≠ 0 ∧ (s.core 1).loops.length < 4) ∧
    (let s := looping 0 [⟨2, 0, 9⟩]; runs s 1 ∧ (∀ l ∈ (s.core 1).loops.head?, (4 : Int) + 4 ≤ l.last) ∧ (4 : Int) + 4 + 1 < s.progPackets 1 ∧
      (gpr s 1 1).toNat = 0 ∧ ∀ l ∈ (s.core 1).loops.head?, (l.last : Int) ≠ 4 + 4) ∧
    (let s := looping 7 [⟨2, 0, 8⟩]; runs s 1 ∧ ¬(0 < (5 : BitVec 22).toInt ∧ ∀ l ∈ (s.core 1).loops.head?, (4 : Int) + 5 ≤ l.last)) ∧
    (let s := looping 7 [⟨2, 0, 9⟩, ⟨2, 0, 9⟩, ⟨2, 0, 9⟩, ⟨2, 0, 9⟩]; runs s 1 ∧ (∀ l ∈ (s.core 1).loops.head?, (4 : Int) + 5 ≤ l.last) ∧
      (gpr s 1 1).toNat ≠ 0 ∧ 4 ≤ (s.core 1).loops.length) ∧
    (let s := looping 0 []; runs s 1 ∧ (∀ l ∈ (s.core 1).loops.head?, (4 : Int) + 4092 ≤ l.last) ∧ (gpr s 1 1).toNat = 0 ∧
      (s.progPackets 1 : Int) ≤ 4 + 4092) := by decide +kernel
theorem witness_Loops_backEdge :
    (let s := looping 0 [⟨2, 0, 4⟩, ⟨2, 0, 9⟩]; runs s 1 ∧ (s.core 1).loops = ⟨2, 0, 4⟩ :: [⟨2, 0, 9⟩] ∧ 4 = s.f .CORE_PC_PC 1 ∧ 0 < s.progPackets 1) ∧
    (let s := looping 0 [⟨1, 0, 4⟩]; runs s 1 ∧ (s.core 1).loops = [⟨1, 0, 4⟩] ∧ s.f .CORE_PC_PC 1 + 1 < s.progPackets 1) ∧
    (let s := put (run []) [(.CORE_PC_PC, 1, 4095)]; runs s 1 ∧ (s.core 1).loops = [] ∧ s.f .CORE_PC_PC 1 + 1 = s.progPackets 1) := by decide +kernel
theorem witness_TrapAndHalt : runs (put (run []) [(.CORE_PC_PC, 1, 4095)]) 1 := by decide +kernel

/-! ### Waits, events, tags -/

/-- Core 1 runs with event input 3 at 5, the tags of granules 2 and 3 set, and the bell at 77. -/
def tagged (l : List (Nat × Nat)) : State :=
  inCore (put (run l) [(.CORE_EVT_COUNT, 19, 5)]) 1 (fun k => { k with tags := [(2, 1), (3, 1)], bell := 77 })

theorem witness_Waits_event :
    (∀ n ∈ [0, 0x10000], let s := tagged [(1, n)]; runs s 1 ∧ (waitCount s 1 1 0 = 0 ∨ 0xFFFF < waitCount s 1 1 0)) ∧
    (∀ n ∈ [1, 5], let s := tagged [(1, n)]; canIssue s 1 ∧ 1 ≤ waitCount s 1 1 0 ∧ waitCount s 1 1 0 ≤ evCount s 1 3) ∧
    ∀ n ∈ [6, 0xFFFF], let s := tagged [(1, n)]; runs s 1 ∧ waitCount s 1 1 0 ≤ 0xFFFF ∧ evCount s 1 3 < waitCount s 1 1 0 := by decide +kernel
theorem witness_Waits_presence :
    (let s := tagged [(1, 1024)]; canIssue s 1 ∧ granuleArgsOk s 1 (gpr s 1 1).toNat 2 ∧ allPresent s 1 (gpr s 1 1).toNat 2) ∧
    (let s := tagged [(1, 1024)]; runs s 1 ∧ granuleArgsOk s 1 (gpr s 1 1).toNat 3 ∧ ¬allPresent s 1 (gpr s 1 1).toNat 3) ∧
    (let s := tagged [(1, 1024)]; runs s 1 ∧ (0 : BitVec 22).toInt ≤ 0 ∧ (gpr s 1 1).toNat % 512 = 0) ∧
    (let s := tagged [(1, 1025)]; runs s 1 ∧ (gpr s 1 1).toNat % 512 ≠ 0 ∧ (gpr s 1 1).toNat + (2 : BitVec 22).toInt.toNat * 512 ≤ s.progStart 1) ∧
    (let s := tagged [(1, (run []).progStart 1 - 512)]; runs s 1 ∧ 0 < (2 : BitVec 22).toInt ∧
      s.progStart 1 < (gpr s 1 1).toNat + (2 : BitVec 22).toInt.toNat * 512) := by unfold granuleArgsOk allPresent; decide +kernel
theorem witness_Waits_bell : (let s := tagged [(1, 78)]; runs s 1 ∧ (s.core 1).bell < waitCount s 1 1 0) ∧
    (let s := tagged [(1, 77)]; canIssue s 1 ∧ waitCount s 1 1 0 ≤ (s.core 1).bell) := by decide +kernel

/-- Core 1 waits with this packet, for a reason. -/
def waitingOn (l : List (Nat × Nat)) (kind : Nat) (i : Instr) : State :=
  inCore (put (tagged l) [(.CORE_STATUS_STATE, 1, stWait), (.CORE_STATUS_WAIT_KIND, 1, kind)]) 1 (fun k => { k with waiting := [i] })

theorem witness_WaitCompletions_event : ∀ n ∈ [5, 6],
    let s := waitingOn [(1, n)] 1 (.waite 1 3 1 0)
    s.cst 1 = stWait ∧ s.clocked 1 = true ∧ s.f .CORE_STATUS_WAIT_KIND 1 = 1 ∧ (s.core 1).waiting = [.waite 1 3 1 0] ∧ 1 ≤ waitCount s 1 1 0 ∧
      waitCount s 1 1 0 ≤ 0xFFFF ∧ (nextPc .seq (s.core 1).loops (s.f .CORE_PC_PC 1)).2 < s.progPackets 1 ∧
      (n = 5 → waitCount s 1 1 0 ≤ evCount s 1 3) ∧ (n = 6 → evCount s 1 3 < waitCount s 1 1 0) := by decide +kernel
theorem witness_WaitCompletions_present : let s := waitingOn [(1, 1024)] 2 (.waitp 1 1 2)
    s.cst 1 = stWait ∧ s.clocked 1 = true ∧ s.f .CORE_STATUS_WAIT_KIND 1 = 2 ∧ (s.core 1).waiting = [.waitp 1 1 2] ∧
      granuleArgsOk s 1 (gpr s 1 1).toNat 2 ∧ (nextPc .seq (s.core 1).loops (s.f .CORE_PC_PC 1)).2 < s.progPackets 1 ∧
      allPresent s 1 (gpr s 1 1).toNat 2 := by unfold granuleArgsOk allPresent; decide +kernel
theorem witness_WaitCompletions_absent : let s := waitingOn [(1, 1024)] 2 (.waitp 1 1 3)
    s.cst 1 = stWait ∧ s.clocked 1 = true ∧ s.f .CORE_STATUS_WAIT_KIND 1 = 2 ∧ (s.core 1).waiting = [.waitp 1 1 3] ∧
      granuleArgsOk s 1 (gpr s 1 1).toNat 3 ∧ ¬allPresent s 1 (gpr s 1 1).toNat 3 := by unfold granuleArgsOk allPresent; decide +kernel

/-- Core 1 is bound as logical core 2 of a shape of 3, cores 0 and 2 as the others. -/
def bound (l : List (Nat × Nat)) : State :=
  put (tagged l) [(.CORE_BIND_BOUND, 1, 1), (.CORE_BIND_LOGICAL, 1, 2), (.CORE_BIND_BOUND, 0, 1), (.CORE_BIND_BOUND, 2, 1), (.CORE_BIND_LOGICAL, 2, 1),
    (.CORE_SHAPE_NCORE, 1, 3)]

theorem witness_EventsAndStep :
    (let s := bound [(1, 3)]; runs s 1 ∧ s.f .CORE_SHAPE_NCORE 1 ≤ (gpr s 1 1).toNat) ∧
    (let s := bound [(1, 2)]; canIssue s 1 ∧ (gpr s 1 1).toNat < s.f .CORE_SHAPE_NCORE 1 ∧ s.physical (gpr s 1 1).toNat = some 1) ∧
    (⟨1, 0, 3⟩ : EvFlight) ∈ ({ bound [] with evFlight := [⟨0, 1, 2⟩, ⟨1, 0, 3⟩] } : State).evFlight ∧
    (let s := bound []; canIssue s 1 ∧ (shapeRegs s 1)[(5 : BitVec 22).toNat]? = some 77 ∧ 5 < (6 : BitVec 22).toNat ∧ s.f .CORE_STEP_STEP 1 < 2 ^ 64 - 1) :=
  by decide +kernel

/-- A receive descriptor that lands two granules in core 1's store at 0x400, with two permits, and a PUT descriptor. -/
def landDesc (core : Nat) : Nat :=
  kLand + 2 * 16 + core * 2 ^ 8 + 1 * 2 ^ 32 + 0x400 * 2 ^ 64 + 7 * 2 ^ 108 + 1 * 2 ^ 128 + 5 * 2 ^ 176 + 9 * 2 ^ 216 + 2 * 2 ^ 228
def putDesc (core kind : Nat) : Nat :=
  kind + 2 * 16 + core * 2 ^ 8 + 1 * 2 ^ 28 + 1 * 2 ^ 32 + 0x400 * 2 ^ 64 + 7 * 2 ^ 108 + 1 * 2 ^ 128 + 5 * 2 ^ 176 + 9 * 2 ^ 216 + 2 * 2 ^ 228
/-- s with table sets in force on link n, transmit at 0 and receive at 8 MiB, that hold these descriptors of transmit and receive flows. -/
def withSets (s : State) (n : Nat) (tx rx : List (Nat × Nat)) : State :=
  let t := inLink (put s [(.STL_RXBASE_ACT_BASE, n, 0x80)]) n (fun l => { l with live := true })
  let u := tx.foldl (fun s x => s.wrBytes (descPlace 0 x.1) (leBytes 32 x.2)) t
  rx.foldl (fun s x => s.wrBytes (descPlace 0x800000 x.1) (leBytes 32 x.2)) u
/-- Link 0 is UP to chip 7; its flows 0 and 3 are the logical core 2's. -/
def flow (l : List (Nat × Nat)) : State :=
  inLink (withSets (put (bound l) [(.LNK_PEER_VALID, 0, 1), (.LNK_PEER_CHIP, 0, 7), (.LNK_STATUS_STATE, 0, lkUp)]) 0 [(0, putDesc 2 kPut), (3, putDesc 2 kAcc)]
      [(0, landDesc 2), (3, landDesc 2)]) 0 (fun l => { l with
    peer := some 7
    rflows := [(0, { RFlow.reset with desc := landDesc 2, loaded := true }), (3, { RFlow.reset with desc := landDesc 2, loaded := true, rel := 1 })],
    tflows := [(0, { TFlow.reset with desc := putDesc 2 kPut, loaded := true }), (3, { TFlow.reset with desc := putDesc 2 kAcc, loaded := true })] })

theorem witness_TagClears_pclr :
    (let s := tagged [(1, 1024)]; canIssue s 1 ∧ granuleArgsOk s 1 (gpr s 1 1).toNat 2 ∧ s.holding = []) ∧
    (let s := tagged [(1, 1024)]; runs s 1 ∧ (-1 : BitVec 22).toInt ≤ 0 ∧ (gpr s 1 1).toNat % 512 = 0) ∧
    (let s := tagged [(1, 513)]; runs s 1 ∧ (gpr s 1 1).toNat % 512 ≠ 0 ∧ (1 : BitVec 22).toInt.toNat * 512 + (gpr s 1 1).toNat ≤ s.progStart 1) := by
  unfold granuleArgsOk; decide +kernel
theorem witness_TagClears_release :
    (let s := flow [(1, 5)]; runs s 1 ∧ s.ownsRx 1 (gpr s 1 1).toNat = false) ∧
    (let s := flow [(1, 3)]
     let d := landDesc 2
     canIssue s 1 ∧ s.ownsRx 1 (gpr s 1 1).toNat = true ∧ s.holding = [] ∧ s.rxDesc 0 3 = some d ∧ dSpace d = 0 ∧ (s.link 0).peer = some (dRetChip d) ∧
       dRetChip d ≠ s.chipAddr) := by decide +kernel

/-! ### Core control and the porter -/

theorem witness_CoreControl :
    (let s := bound []; s.enabled 1 = true ∧ s.bound 1 = true ∧ s.f .CORE_CTRL_FENCE 1 = 0 ∧ s.f .CORE_FAULT_VALID 1 = 0) ∧
    (let s := run []; s.enabled 1 = true ∧ s.bound 1 = false) ∧
    (let s := inCore (put (waitingOn [] 1 (.waite 1 3 1 6)) [(.CORE_WAIT_LIMIT_BELLS, 1, 4)]) 1 (fun k => { k with waitBells := 5 })
     s.cst 1 = stWait ∧ s.f .CORE_STATUS_WAIT_KIND 1 ≠ 3 ∧ ¬(s.f .CORE_STATUS_WAIT_KIND 1 = 4 ∧ s.streamHeld 1 = true) ∧ s.f .CORE_WAIT_LIMIT_BELLS 1 ≠ 0 ∧ s.f .CORE_WAIT_LIMIT_BELLS 1 < (s.core 1).waitBells) ∧
    (let s := run []; ¬(s.cst 1 = stWait)) := by decide +kernel

/-- An open operation of the porter. -/
def op0 : PortOp := { gen := 0, kind := .put, dt := 0, booked := false, link := 0, flow := 0, chip := 5, remote := 64, local_ := 0, len := 8, val := 0, val2 := 0, discard := false, ev := some 3, issued := 0, due := 0, sent := some 0, readDone := true, locDone := false }
/-- Core 1 with every entry of its porter in use. -/
def full (l : List (Nat × Nat)) : State := inCore (flow l) 1 (fun k => { k with porter := (List.range 128).map (fun i => (i, some op0)) })

/-- Core 1 with the length n and the chip that its registers 1 and 2 give; the open map and the route table list chip 5. -/
def sends (n chip : Nat) : State :=
  let s := flow [(1, n), (2, chip * 2 ^ 44 + 64), (3, 1024)]
  { s with hbm := [(5, 0x83)], opn := { s.opn with openMap := [5] } }
theorem witness_PorterIssue_open : ∀ n ∈ [12, 8184], ∀ chip ∈ [0, 5], ∀ p ∈ portForms,
    canIssue (sends n chip) 1 ∧ freeEntry (sends n chip) 1 = some 0 ∧ ((sends n chip).core 1).inflight < portCap ∧
      openArgsOk (sends n chip) 1 p.2.2.2 p.2.1 1 2 3 := by decide +kernel
theorem witness_PorterIssue_discard : ∀ p ∈ portForms, atomic p.2.2.2 = true → openArgsOk (flow [(2, 64)]) 1 p.2.2.2 p.2.1 0 2 3 := by decide +kernel
theorem witness_PorterIssue_full : ∀ p ∈ portForms,
    runs (full [(1, 12), (2, 64)]) 1 ∧ openArgsOk (full [(1, 12), (2, 64)]) 1 p.2.2.2 p.2.1 1 2 3 ∧
      portCap ≤ ((full [(1, 12), (2, 64)]).core 1).inflight := by decide +kernel
theorem witness_PorterIssue_booked :
    (let s := flow [(1, 0), (2, 3)]; canIssue s 1 ∧ freeEntry s 1 = some 0 ∧ (s.core 1).inflight < portCap ∧ handleFits s 1 .put (gpr s 1 1).toNat = true ∧
      handleFits s 1 .acc (gpr s 1 2).toNat = true ∧ handleFits s 1 .get (gpr s 1 2).toNat = true) ∧
    (let s := full [(1, 0)]; runs s 1 ∧ handleFits s 1 .put (gpr s 1 1).toNat = true ∧ portCap ≤ (s.core 1).inflight) ∧
    (let s := flow [(1, 9)]; runs s 1 ∧ handleFits s 1 .put (gpr s 1 1).toNat = false) := by decide +kernel
theorem witness_PorterIssue_checks :
    (let s := flow [(1, 6), (2, 64)]; runs s 1 ∧ (gpr s 1 3).toNat % 4 = 0 ∧ (gpr s 1 2).toNat % 4 = 0 ∧
      (gpr s 1 3).toNat + (gpr s 1 1).toNat ≤ s.progStart 1 ∧ (gpr s 1 1).toNat % 4 ≠ 0 ∧ (gpr s 1 2).toNat < 2 ^ 59 ∧
      s.openTo ((gpr s 1 2).toNat / 2 ^ 44 % 2 ^ 15) = true) ∧
    (let s := flow [(1, 8), (2, 2 ^ 59)]; runs s 1 ∧ (gpr s 1 3).toNat % 4 = 0 ∧ (gpr s 1 2).toNat % 4 = 0 ∧
      (gpr s 1 3).toNat + (gpr s 1 1).toNat ≤ s.progStart 1 ∧ 2 ^ 59 ≤ (gpr s 1 2).toNat) ∧
    (let s := flow [(1, 8), (2, 6 * 2 ^ 44)]; runs s 1 ∧ s.openTo ((gpr s 1 2).toNat / 2 ^ 44 % 2 ^ 15) = false) := by decide +kernel
theorem witness_PorterLocal :
    (State.reset.core 1).ops.find? (fun x => x.2.readDone && !x.2.locDone && decide (x.2.due ≤ (State.reset.core 1).elapsed)) = none ∧
    ((inCore State.reset 1 (fun k => { k with porter := [(0, some { op0 with issued := 9, booked := true }), (3, some op0)] })).core 1).ops.find?
      (fun x => x.2.readDone && !x.2.locDone && decide (x.2.due ≤ 0)) = some (3, op0) := by decide +kernel

/-! ### PACK and the matrix engine -/

theorem witness_PackUnpack : canIssue (run [(1, 3), (2, 1)]) 1 ∧ holds (run []) 1 0 255 = true ∧ rank (run []) 1 0 1 < 2 := by decide +kernel

/-- Core 1 with a configuration, entries that match it, and an accumulator of a type. -/
def engine (l : List (Nat × Nat)) (wf : Nat) (ty : AccTy) : State := inCore (run l) 1 (fun k => { k with
  mcfg := ⟨wf, wf, false, false, false, 0, 128, 0⟩, wents := (List.range 4).map (fun e => (e, ⟨wf, false, false, 0, List.replicate 64 3#8⟩)),
  accs := [(1, Accum.zero ty 0)] })

theorem witness_MatrixSetup_pairs : canIssue (run []) 1 ∧ pairListed 0 4 true true ∧ pairListed 5 5 false false ∧ pairListed 6 7 false false ∧
    ¬pairListed 0 5 false false ∧ ¬pairListed 6 6 true false ∧ ¬pairListed 8 8 false false := by decide +kernel
theorem witness_MatrixSetup_anchor : anchorLegal (run []) 1 1 ∧ anchorLegal (put (run [(1, 127)]) [(.MXE_STATUS_INV_ACTIVE, 1, 1)]) 1 1 ∧
    anchorLegal (put (run [(1, 2 ^ 16 - 126)]) [(.MXE_STATUS_INV_ACTIVE, 1, 1)]) 1 1 := by
  refine ⟨?_, ?_, ?_⟩ <;> unfold anchorLegal <;> decide +kernel
theorem witness_MatrixSetup_anchor_refused : let s := put (run [(1, 128)]) [(.MXE_STATUS_INV_ACTIVE, 1, 1)]
    runs s 1 ∧ pairListed 0 0 false false ∧ s.f .MXE_STATUS_INV_ACTIVE 1 = 1 ∧ ¬(-126 ≤ anchorOf s 1 1 ∧ anchorOf s 1 1 ≤ 127) := by decide +kernel
theorem witness_MatrixSetup_load : let s := engine [(1, 64), (2, 64)] 5 .int32
    canIssue s 1 ∧ (gpr s 1 1).toNat % 64 = 0 ∧ (gpr s 1 1).toNat + tileBytes 5 false false ≤ storeBytes ∧ (gpr s 1 2).toNat % mxKe 5 false = 0 ∧
      (s.core 1).eccHit (gpr s 1 1).toNat (tileBytes 5 false false) = none := by decide +kernel
theorem witness_MatrixSetup_mask : canIssue (run []) 1 ∧ (3 : BitVec 2).toNat + (0 : BitVec 2).toNat < 4 ∧ 4 ≤ (3 : BitVec 2).toNat + (1 : BitVec 2).toNat := by
  decide +kernel
theorem witness_MatrixRun_int8 : let s := engine [(1, 64)] 5 .int32
    runFits s 1 0 1 0 3 0 1 ∧ canIssue s 1 ∧ entriesMatch s 1 0 3 ∧ typesMatch s 1 false 0 1 ∧ s.f .MXE_STATUS_INV_ACTIVE 1 = 0 := by decide +kernel
theorem witness_MatrixRun_clear : let s := engine [(1, 64)] 0 .fp32
    runFits s 1 2 1 1 2 0 1 ∧ canIssue s 1 ∧ entriesMatch s 1 1 2 ∧ typesMatch s 1 true 2 1 ∧ s.f .MXE_STATUS_INV_ACTIVE 1 = 0 := by decide +kernel
theorem witness_MatrixRun_entries : let s := inCore (engine [] 5 .int32) 1 (fun k => { k with wents := [] })
    runFits s 1 0 1 0 3 0 1 ∧ runs s 1 ∧ ¬entriesMatch s 1 0 3 := by decide +kernel
theorem witness_MatrixRun_types : let s := engine [] 5 .fp32
    runFits s 1 0 1 0 3 0 1 ∧ runs s 1 ∧ entriesMatch s 1 0 3 ∧ ¬typesMatch s 1 false 0 1 := by decide +kernel
theorem witness_MatrixDrain :
    (let s := engine [(1, 0), (2, 128)] 5 .int32; canIssue s 1 ∧ ((4 : BitVec 4), 4) ∈ drainSizes ((s.core 1).acc (s.inv 1) 1).ty ∧ (gpr s 1 1).toNat % 4 = 0 ∧
      (gpr s 1 2).toNat % 4 = 0 ∧ 32 * 4 ≤ (gpr s 1 2).toNat ∧ (gpr s 1 1).toNat + 31 * (gpr s 1 2).toNat + 32 * 4 ≤ s.progStart 1) ∧
    (let s := engine [(1, 0), (2, 32)] 0 .fp32; canIssue s 1 ∧ ((3 : BitVec 4), 1) ∈ drainSizes ((s.core 1).acc (s.inv 1) 1).ty ∧
      32 * 1 ≤ (gpr s 1 2).toNat ∧ (gpr s 1 1).toNat + 31 * (gpr s 1 2).toNat + 32 * 1 ≤ s.progStart 1) ∧
    (let s := engine [(1, 0), (2, 384)] 0 .wp96; canIssue s 1 ∧ ((5 : BitVec 4), 12) ∈ drainSizes ((s.core 1).acc (s.inv 1) 1).ty ∧
      (gpr s 1 1).toNat % 4 = 0 ∧ (gpr s 1 2).toNat % 4 = 0 ∧ 32 * 12 ≤ (gpr s 1 2).toNat) ∧
    (let s := engine [(1, 4), (2, 128)] 0 .fp32; runs s 1 ∧ (gpr s 1 1).toNat % 4 = 0 ∧ (gpr s 1 2).toNat % 4 = 0 ∧
      (gpr s 1 1).toNat + 31 * (gpr s 1 2).toNat + 128 ≤ s.progStart 1 ∧ ((s.core 1).acc (s.inv 1) 1).ty ≠ .int32) := by decide +kernel
theorem witness_MatrixDrain_event : (State.reset.core 1).drains = [] ∧
    ((inCore State.reset 1 (fun k => { k with drains := [⟨0, 3⟩] })).core 1).drains = ⟨0, 3⟩ :: [] := by decide +kernel

/-! ### Witnesses: the vector slot -/

theorem witness_VectorReserved : runs (run []) 1 ∧ typeReserved 0x01 4 = true ∧ typeReserved 0x1B 0 = true ∧ typeReserved 0x40 3 = true := by decide +kernel
theorem witness_VectorInteger : canIssue (run []) 1 := by decide +kernel
theorem witness_VectorFloat : canIssue (run []) 1 ∧ (2 : BitVec 3).toNat < 3 ∧ governs (run []) 1 2 0 511 = true := by decide +kernel
theorem witness_TranscendentalValues : (2 : BitVec 3).toNat < 3 ∧ (1 : Nat) ≠ 0 := by decide
theorem witness_VectorPredicates : let s := run [(1, 5)]
    canIssue s 1 ∧ (3 : BitVec 3).toNat < 4 ∧ (7 : BitVec 5).toNat < 8 ∧ 8 ≤ (8 : BitVec 5).toNat ∧ (7 : BitVec 5) ≠ 0 ∧
      (compareForms.map (fun p => p.2.2.2 (val s 1 1 0 510) (val s 1 1 0 510))) = compareForms.map (fun p => p.2.2.2 (val s 1 1 0 511) (val s 1 1 0 511)) := by
  decide +kernel
theorem witness_VectorConvert : canIssue (run []) 1 ∧ (3 : BitVec 3).toNat < 4 ∧ fmtCode 8 ≠ typeElem 3 ∧ fmtCode 9 ≠ typeElem 0 ∧
    (4, 2) ∈ [(0, 8), (1, 15), (2, 2), (3, 4), (4, 2)] ∧ (anyVal (run []) 1 0 0 255).isZero = true := by decide +kernel
theorem witness_VectorMemory_loads :
    (let s := run [(1, 0x7FFC00)]; canIssue s 1 ∧ vecAddr s 1 0 1 % 64 = 0 ∧ vecAddr s 1 0 1 + 1024 ≤ storeBytes ∧ (s.core 1).eccHit (vecAddr s 1 0 1) 1024 = none) ∧
    (let s := run [(1, (run []).progStart 1 - 1024)]; canIssue s 1 ∧ vecAddr s 1 0 1 % 64 = 0 ∧ vecAddr s 1 0 1 + 1024 ≤ s.progStart 1) ∧
    (let s := run [(1, 0x7FFC01)]; runs s 1 ∧ storeBytes < vecAddr s 1 0 1 + 1024 ∧ s.progStart 1 < vecAddr s 1 0 1 + 1024) ∧
    (let s := run [(1, (run []).progStart 1 - 1025)]; runs s 1 ∧ vecAddr s 1 0 1 % 64 ≠ 0 ∧ vecAddr s 1 0 1 + 1024 ≤ s.progStart 1) := by decide +kernel
theorem witness_VectorMemory_gather : let s := run [(1, 8), (2, 9)]
    canIssue s 1 ∧ (gpr s 1 1).toNat % 4 = 0 ∧ (s.core 1).eccBad = [] ∧ (∀ i, i < 256 → holds s 1 0 i = true → laneAddr s 1 0 1 i + 4 ≤ s.progStart 1) ∧
      s.progStart 1 ≤ storeBytes := by decide +kernel
theorem witness_VectorMemory_scatter_last : let s := run [(1, 8)]
    holds s 1 0 255 = true ∧ ∀ j, 255 < j → j < 256 → laneAddr s 1 0 1 j ≠ laneAddr s 1 0 1 255 := by
  refine ⟨by decide +kernel, fun j h1 h2 => by omega⟩
theorem witness_VectorMemory_misaligned : let s := run [(1, 9)]
    runs s 1 ∧ (gpr s 1 1).toNat % 4 ≠ 0 ∧ ∀ i, i < 256 → holds s 1 0 i = true → laneAddr s 1 0 1 i + 4 ≤ s.progStart 1 := by decide +kernel

/-! ### Tallies, streams, HBM -/

theorem witness_Tallies_tally :
    (∀ n ∈ [1, 4096], let s := put (run [(1, 512), (2, n)]) [(.TAL_CTRL_EN, 0, 1)]
      canIssue s 1 ∧ (gpr s 1 1).toNat % 512 = 0 ∧ 0 < (gpr s 1 2).toNat ∧ (gpr s 1 2).toNat ≤ 4096 ∧ (gpr s 1 1).toNat + 512 * (gpr s 1 2).toNat ≤ storeBytes ∧
        (s.core 1).eccHit (gpr s 1 1).toNat (512 * (gpr s 1 2).toNat) = none ∧ s.f .TAL_CTRL_EN = 1) ∧
    (run []).f .TAL_CTRL_EN = 0 ∧
    (∀ n ∈ [0, 4097], let s := run [(1, 512), (2, n)]
      runs s 1 ∧ (gpr s 1 1).toNat + 512 * (gpr s 1 2).toNat ≤ storeBytes ∧ ((gpr s 1 2).toNat = 0 ∨ 4096 < (gpr s 1 2).toNat)) := by decide +kernel
theorem witness_Tallies_runs : ∀ en ∈ [0, 1],
    let s := inCore (put (run []) [(.TAL_CTRL_EN, 0, en)]) 1 (fun k => { k with tallies := [⟨5, 512, 3, 7, 2⟩] })
    (s.core 1).tallies = [⟨5, 512, 3, 7, 2⟩] ∧ s.f .TAL_CTRL_EN = en ∧ min 3 (5 - 5) = 0 ∧ 0 < min 3 (6 - 5) ∧ min 3 (8 - 5) = 3 := by decide +kernel
theorem witness_Tallies_temit :
    (let s := put (run []) [(.TAL_CTRL_EN, 0, 1), (.TAL_SHEET_CFG_LOG2, 0, 10), (.TAL_SHEET_HEAD_HEAD, 0, 1023)]
     canIssue s 1 ∧ s.f .TAL_CTRL_EN = 1 ∧ s.ldg.sheetFull = false ∧ s.f .TAL_SHEET_CFG_HOST = 0 ∧
       s.f .TAL_SHEET_BASE_BASE * 65536 + 64 * s.f .TAL_SHEET_HEAD_HEAD + 64 ≤ hbmBytes) ∧
    (let s := put { run [] with ldg := { LdgUnit.reset with sheetFull := true } } [(.TAL_CTRL_EN, 0, 1)]
     canIssue s 1 ∧ s.f .TAL_CTRL_EN = 1 ∧ s.ldg.sheetFull = true) := by decide +kernel
theorem witness_Tallies_pmcrd : canIssue (run []) 1 ∧ (8 : BitVec 4).toNat ≤ 8 ∧ 8 < (9 : BitVec 4).toNat := by decide +kernel

/-- A stream that loads three rows of 128 bytes. -/
def st0 : Stream := { slot := 0, load := true, local_ := 0x400, far := 0x1000, rowBytes := 128, rows := 3, stride := 256, ps := false, ev := some 2, side := .own, done := [], asked := 0, pieces := [], miss := false, left := [] }
/-- Core 1 runs, logical core 2 of its shape, with these streams. -/
def str (l : List Stream) : State := inCore (bound [(1, 0x1000), (2, 0x200), (3, 2 ^ 32 * 2 + 128), (4, 256), (5, 0x600000000000), (6, 2 ^ 46)]) 1 (fun k => { k with streams := l })
def eight : State := str ((List.range 8).map (fun i => { st0 with slot := i }))

theorem witness_StreamIssue_takes : let s := str []
    localFits s 1 true 3 2 false ∧ localFits s 1 false 3 2 false ∧ canIssue s 1 ∧ farAligned s 1 4 3 1 ∧ farOk (streamOf s 1 true true 2 4 3 1 2 false) = true ∧
      (s.core 1).streams.length < 8 ∧ freeStream s 1 = some 0 ∧ (gpr s 1 1).toNat / 2 ^ 44 = s.f .CHIP_ADDR_POSITION := by decide +kernel
theorem witness_StreamIssue_waits : let s := eight
    localFits s 1 true 3 2 false ∧ runs s 1 ∧ farAligned s 1 4 3 1 ∧ farOk (streamOf s 1 true true 2 4 3 1 2 false) = true ∧ 8 ≤ (s.core 1).streams.length := by
  decide +kernel
theorem witness_StreamIssue_range : let s := inCore (str []) 1 (gprs [(1, 0xFFFFFFFFF00), (2, 0x200), (3, 2 ^ 32 * 2 + 128), (4, 256)])
    localFits s 1 true 3 2 false ∧ runs s 1 ∧ farAligned s 1 4 3 1 ∧ farOk (streamOf s 1 true true 2 4 3 1 2 false) = false := by decide +kernel
theorem witness_StreamIssue_reserved : let s := str []
    localFits s 1 true 3 2 false ∧ runs s 1 ∧ (gpr s 1 6).toNat % 64 = 0 ∧ (gpr s 1 3).toNat % 2 ^ 32 % 64 = 0 ∧ (gpr s 1 3).toNat % 2 ^ 32 ≠ 0 ∧
      (gpr s 1 4).toInt % 64 = 0 ∧ 2 ^ 46 ≤ (gpr s 1 6).toNat := by decide +kernel
theorem witness_StreamEvents_complete :
    ((str []).core 1).streams = [] ∧ ({ st0 with done := [(0, 384)] } : Stream).unitsIn 12 = [] ∧ ({ st0 with done := [(0, 384)] } : Stream).whole = true ∧
      st0.whole = false := by decide +kernel
/-- A stream from host memory. -/
def stWin : Stream := { st0 with far := 0xD0000000040 }
theorem witness_StreamEvents_host : let s := put (str [stWin]) [(.HST_STATUS_READY, 0, 1)]
    (s.core 1).streams.find? (fun x => x.side == .own && x.load && x.hostPiece.isSome) = some stWin ∧ stWin.hostPiece.isSome = true ∧ (s.core 1).streams = [stWin] ∧
      stWin.ps = false ∧ s.hostOn = true ∧ ((str [st0]).core 1).streams.find? (fun x => x.side == .own && x.load && x.hostPiece.isSome) = none := by decide +kernel
theorem witness_StreamEvents_ecc : (run []).cst 1 = stRun ∧ (waitingOn [] 2 (.nop 1)).cst 1 = stWait ∧ State.reset.cst 1 ≠ stRun ∧ State.reset.cst 1 ≠ stWait ∧
    ((run []).core 1).fillErr = none ∧ (State.reset.core 1).fillErr = none := by decide +kernel
/-- Stack 0 gives these slots to these owners. -/
def owned (s : State) (l : List (Nat × SlotOwner)) : State := s.setStack 0 { s.stack 0 with owners := l }
theorem witness_HbmSlots_moves : let s := put (owned (str [st0]) [(7, .core 2), (2, .core 2)]) [(.HBM_STATUS_MARGIN_ACT, 0, 1)]
    Map.get SlotOwner.none (s.stack 0).owners 7 = .core 2 ∧ ¬((7 : Fin 50).val = 0 ∨ (7 : Fin 50).val = 1 ∨ (2 ≤ (7 : Fin 50).val ∧ (7 : Fin 50).val < 2 + 1)) ∧
      s.f .HBM_STATUS_HOT 0 = 0 ∧ s.physical 2 = some 1 ∧ (s.core 1).streams = [st0] ∧ st0.side = .own ∧ st0.load = true ∧ st0.ps = false ∧
      ∀ j, j < 13 → (s.stack j).bad = [] := by decide +kernel
theorem witness_HbmSlots_refresh : let s := put (owned (str [st0]) [(3, .core 2), (2, .core 2)]) [(.HBM_STATUS_HOT, 0, 1), (.HBM_STATUS_MARGIN_ACT, 0, 0)]
    s.f .HBM_STATUS_MARGIN_ACT 0 = 0 ∧ s.f .HBM_STATUS_HOT 0 = 1 ∧ Map.get SlotOwner.none (s.stack 0).owners 3 ≠ .none ∧
      Map.get SlotOwner.none (s.stack 0).owners 49 = .none := by decide +kernel
/-- The host's slot of stack 0 with this request in its queue. -/
def asking (q : HbmReq) : State := let s := owned State.reset [(7, .host)]; s.setStack 0 { s.stack 0 with queue := [q] }
theorem witness_HbmSlots_owner :
    (let q : HbmReq := ⟨.host, 2, .write 64 [1#8, 2#8]⟩
     (asking q).stack 0 = { (asking q).stack 0 with queue := [q] } ∧ (asking q).ownerStopped .host = false ∧ q.left ≤ 49152 ∧
       Map.get SlotOwner.none ((asking q).stack 0).owners 7 = .host ∧ ((asking q).stack 0).asleep = false ∧ 64 + 2 ≤ hbmBytes) ∧
    (let q : HbmReq := ⟨.host, 49153, .write 64 []⟩; ((asking q).stack 0).queue.find? (fun r => r.owner == .host) = some q ∧ 49152 < q.left) ∧
    (let q : HbmReq := ⟨.crier, 512, .crier 9 0⟩; ((asking q).stack 0).queue.find? (fun r => r.owner == .host) = none) := by decide +kernel
theorem witness_HbmSlots_temperature : (put State.reset [(.HBM_TEMP_HOT_ON, 0, 80), (.HBM_TEMP_HOT_OFF, 0, 79)]).f .HBM_TEMP_HOT_OFF 0 < 80 ∧
    ¬((put State.reset [(.HBM_TEMP_HOT_ON, 0, 80), (.HBM_TEMP_HOT_OFF, 0, 80)]).f .HBM_TEMP_HOT_OFF 0 < 80) := by decide +kernel

/-! ### Register space, clocks, the bell -/


/-- No region of the reset state is stopped. -/
theorem witness_allRun : allRun State.reset := fun _ => rfl
theorem witness_RegisterWrites : storesOnly State.reset 0x28 .CHIP_SHAPE 0 ∧ State.reset.mayWrite 0x20 0x28 = true ∧
    Reg.CHIP_SHAPE.width = 64 ∧ State.reset.target 0x2C = some ⟨.CHIP_SHAPE, 0, 4⟩ ∧ Map.get none State.reset.halves.held 0x20 = none ∧
    storesOnly State.reset 0x1010048 .CORE_FAULT 1 ∧ State.reset.mayWrite 0 0x1010048 = false ∧ State.reset.target 0x1010048 = some ⟨.CORE_FAULT, 1, 0⟩ ∧
    State.reset.target 0xFF8 = none ∧ reachesRegs 0x10 = true ∧ State.reset.target 0x41000FF8 = none ∧ State.reset.hostOpen 0x41000FF8 = true ∧
    (put State.reset [(.CLK_RGN_STATUS_STOPPED, 18, 1)]).stalls 0x11 0x100000 = true ∧
    (put State.reset [(.CLK_RGN_STATUS_STOPPED, 16, 1)]).stalls 0 0x40000000 = true ∧ State.reset.mayWrite 0 0xFF8 = false := by decide +kernel
theorem witness_RegisterReads : storesOnly State.reset 0x100138 .CLK_RGN_DROOP 3 ∧ reachesRegs 0 = true ∧ Reg.CLK_RGN_DROOP.width = 64 ∧
    State.reset.target 0x10013C = some ⟨.CLK_RGN_DROOP, 3, 4⟩ ∧ Fld.CLK_RGN_DROOP_EVENTS.acc = .RC ∧ Map.get none State.reset.halves.cap 0 = none := by decide +kernel
/-- The high half of a count read alone leaves the low bits of the count (R15). -/
theorem test_high_half_read : ((put State.reset [(.PMC_DENIED_COUNT, 0, 0x500000007)]).readHalf 0x10 0x100401C).f .PMC_DENIED_COUNT = 7 := by decide +kernel

/-- Bell 100 of rounds of one bell that is quiet; bells of 3 us. -/
def ck : State := put { State.reset with bel := { BelUnit.reset with quiet := [(0, 1)] } } [(.BEL_NOW_BELL, 0, 100), (.BEL_ACTIVE_US, 0, 3)]
/-- A frequency change is written for this bell, mask and target. -/
def fchg (b m mhz : Nat) : State := put ck [(.CLK_FCHG_MASK_REGIONS, 0, m), (.CLK_FCHG_TARGET_MHZ, 0, mhz), (.CLK_FCHG_BELL_BELL, 0, b)]
def chg (st ab : Bool) (m : Nat) : FreqChange := { target := 1500, mask := m, whole := m == allRegions, bell := 3, prev := 2, tripped := 4, stopped := st, aborted := ab, armer := 0 }
def changing (c : FreqChange) : State := { ck with clk := { ClkUnit.reset with fchg := some c } }

theorem witness_ClockRegions : ck.f .BEL_STATUS_REF_HOLDOVER = 0 ∧ (put ck [(.BEL_STATUS_REF_HOLDOVER, 0, 1)]).f .BEL_STATUS_REF_HOLDOVER = 1 ∧
    ck.f .CLK_XALIGN_FAIL = 0 ∧ (put ck [(.CLK_XALIGN_FAIL, 0, 1)]).f .CLK_XALIGN_FAIL = 1 ∧
    (changing (chg true false 5)).clk.fchg = some (chg true false 5) ∧ (put ck [(.CLK_RGN_STATUS_HOLDING, 23, 1)]).f .CLK_RGN_STATUS_HOLDING 23 = 1 ∧
    9 * (put ck [(.CLK_TARGET_MHZ, 0, 1000)]).f .CLK_TARGET_MHZ = 1000 * 9 := by decide +kernel
theorem witness_FrequencyChange_arm : armRefusal (fchg 116 0xFFFFFF 1500) = 0 ∧ armRefusal (fchg 115 0xFFFFFF 1500) = 1 ∧ armRefusal { fchg 116 0xFFFFFF 1500 with bel := BelUnit.reset } = 2 ∧
    armRefusal (fchg 116 0xFFFFFF 799) = 3 ∧ armRefusal (fchg 116 0xFFFFFF 800) = 0 ∧ armRefusal (fchg 116 0x10000 1500) = 6 ∧ armRefusal (fchg 116 0 1500) = 0xA := by
  decide +kernel
theorem witness_FrequencyChange_restart : ck.pwr.change = none ∧ ck.clk.fchg = none ∧ (changing (chg true true 5)).clk.fchg = some (chg true true 5) ∧
    (chg true false 0xFFFFFF).stopped = true ∧ (chg false false 5).stopped = false ∧ (changing (chg true true 5)).pwr.descent = false ∧ (changing (chg true true 5)).clk.waiting = [] := by decide +kernel
theorem witness_BellUnit : 0 < ck.f .BEL_FT_INC_INC ∧ ck.bel.phase < bellUnits ck ∧ (ck.enabled 1 = true ∧ ck.f .PWR_CLU_OFF 0 = 0) ∧
    ahead ck 164 = 64 ∧ ahead ck 163 = 63 ∧ (put ck [(.BEL_STATUS_JOINED, 0, 1)]).f .BEL_STATUS_JOINED = 1 ∧ ck.f .BEL_STATUS_JOINED = 0 ∧
    0 ≤ ((ck.now * bellUnits ck + ck.bel.phase : Nat) : Int) + (BitVec.ofInt 48 (-4577636)).toInt * 2 ^ 16 ∧
    (let s := { put ck [(.BEL_CTRL_ROOT, 0, 0), (.BEL_HOLD_LIMIT_BELLS, 0, 8)] with bel := { BelUnit.reset with noMark := 8 } }
     s.f .BEL_CTRL_ROOT = 0 ∧ max (s.f .BEL_HOLD_LIMIT_BELLS) 1 ≤ s.bel.noMark ∧ s.f .BEL_STATUS_HOLDOVER = 0) := by decide +kernel
theorem witness_WallTime : (0x3B9AC9FF : BitVec 30).toNat < 1000000000 ∧ 1000000000 ≤ (0x3B9ACA00 : BitVec 30).toNat ∧
    (put ck [(.BEL_PPS_CTRL_EN, 0, 1)]).f .BEL_PPS_CTRL_EN = 1 ∧ (put ck [(.BEL_PPS_CTRL_EN, 0, 0)]).f .BEL_PPS_CTRL_EN = 0 ∧
    (let s := put ck [(.BEL_TRIG_CMP_BELL, 1, 100), (.BEL_TRIG_CMP_BELL, 2, 101), (.BEL_TRIG_CMP_BELL, 3, 99)]
     ahead s (s.f .BEL_TRIG_CMP_BELL 1) = 0 ∧ ahead s (s.f .BEL_TRIG_CMP_BELL 2) = 1 ∧ ahead s (s.f .BEL_TRIG_CMP_BELL 3) = -1 ∧ s.enabled 1 = true ∧
       s.cst 1 ≠ stFenced) := by decide +kernel

/-! ### Links -/

/-- Link 3 in state st with four good lanes, towards chip 77. -/
def lk (st : Nat) (f : LinkUnit → LinkUnit) : State := put (inLink ck 3 f) [(.LNK_STATUS_STATE, 3, st), (.LNK_STATUS_LANES_OK, 3, 15), (.LNK_STATUS_WIDTH_ACT, 3, 3),
  (.LNK_PEER_CHIP, 3, 77), (.LNK_RPL_CFG_LIMIT, 3, 3), (.LNK_SEQ_TX_NEXT, 3, 5), (.LNK_SEQ_TX_ACKED, 3, 1), (.LNK_SEQ_RX_LAST, 3, 65535), (.STL_RXCUR_BELL, 3, 98)]
def fr (q : Nat) : TxFrame := ⟨q, 2, 3, 9, false, List.replicate 512 5, 0, none⟩

theorem witness_LinkTraining_states : ([lkOff, lkDetect, lkFull, lkFast, lkHand, lkUp, lkRefused].all (fun st => (lk st id).f .LNK_STATUS_STATE 3 == st)) = true ∧
    (15#4).toNat &&& ((lk lkDetect id).link 3).lanes ≠ 0 := by decide +kernel
theorem witness_LinkTraining_pass : let s := lk lkFull (fun l => { l with lanes := 15, widthMax := 2 })
    s.f .LNK_STATUS_STATE 3 = lkFull ∧ fits (s.link 3).widthMax 3 ((0b1010#4).toNat &&& (s.link 3).lanes) 2 ∧
      (∀ v, 2 < v → ¬fits (s.link 3).widthMax 3 ((0b1010#4).toNat &&& (s.link 3).lanes) v) ∧ ∀ w, ¬fits (s.link 3).widthMax 0 15 w := by
  refine ⟨by decide +kernel, by unfold fits; decide +kernel, fun v h hf => ?_, fun w hf => by have h1 := hf.1; have h2 := hf.2.2.2.1; omega⟩
  have h1 : v ≤ 2 := hf.2.2.1
  omega
theorem witness_LinkResets : let s := lk lkUp (fun l => { l with retrainNow := true, keyZ := some 9 })
    s.f .LNK_STATUS_STATE 3 = lkUp ∧ (s.link 3).retrainNow = true ∧ s.f .LNK_STATUS_LANES_OK 3 &&& (7 : BitVec 4).toNat ≠ s.f .LNK_STATUS_LANES_OK 3 ∧
      64 ≤ ahead s (164 : BitVec 32).toNat ∧ (s.link 3).keyZ ≠ none ∧ ahead s (163 : BitVec 32).toNat < 64 ∧ (lk lkOff id).f .LNK_STATUS_STATE 3 = lkOff ∧
      ((lk lkUp id).link 3).retrainNow = false ∧ (s.link 3).flushFlag = false := by decide +kernel
theorem witness_LinkFlush : let s := put (lk lkFast id) [(.LNK_STATUS_GRACE, 3, 1)]
    s.f .LNK_STATUS_STATE 3 ≠ lkUp ∧ s.f .LNK_STATUS_GRACE 3 = 1 ∧ (s.link 3).live = false ∧
      (lk lkUp id).f .LNK_STATUS_STATE 3 = lkUp := by decide +kernel
theorem witness_LinkTransmit_slot : let s := lk lkUp (fun l => { l with rb := [fr 2, fr 3], rpl := some 2, slot := 599 })
    s.f .LNK_STATUS_STATE 3 = lkUp ∧ (s.link 3).slot < s.f .BEL_ACTIVE_US * 200 ∧ (s.link 3).slot ≠ 0 ∧ (s.link 3).assign = false ∧ (s.link 3).rpl = some 2 ∧
      (s.link 3).rb.find? (fun f => decide (0 ≤ seqDiff f.seq 2)) = some (fr 2) ∧ ((lk lkUp id).link 3).slot = 0 := by decide +kernel
theorem witness_LinkTransmit_replay :
    (let s := lk lkUp (fun l => { l with rb := [fr 2, fr 3], rplFrom := some 2, rplCount := 2 })
     (s.link 3).rb = fr 2 :: [fr 3] ∧ (s.link 3).rplFrom = some (fr 2).seq ∧ (s.link 3).rplCount < s.f .LNK_RPL_CFG_LIMIT 3 ∧ (s.link 3).rpl = none ∧
       ((fr 2).sentAt + s.f .LNK_RPL_CFG_TMO_EXTRA 3) * 65536 + s.f .LNK_RTT_RTT 3 ≤ s.nsNow * 65536) ∧
    (let s := lk lkUp (fun l => { l with rb := [fr 2, fr 3], rplFrom := some 2, rplCount := 3 })
     (s.link 3).rb = fr 2 :: [fr 3] ∧ s.f .LNK_RPL_CFG_LIMIT 3 ≤ (s.link 3).rplCount) ∧
    (let s := lk lkUp (fun l => { l with rb := [fr 2, fr 3], rplFrom := some 2, rpl := some 3 })
     (s.link 3).rpl = some 3 ∧ seqDiff 2 3 < 0 ∧ (s.link 3).rplAt = none) ∧
    (let s := lk lkUp (fun l => { l with rb := [{ fr 2 with sentAt := 300000 }] })
     ¬((300000 + s.f .LNK_RPL_CFG_TMO_EXTRA 3) * 65536 + s.f .LNK_RTT_RTT 3 ≤ s.nsNow * 65536)) := by decide +kernel
def hd (q a typ : Nat) : Hdr := ⟨q, a, 5, 3, typ, false, false, false, false⟩
theorem witness_LinkReceive : let s := put (lk lkUp id) [(.CLK_RGN_STATUS_STOPPED, linkRegion 3, 1)]
    headerFits (hd 0 1 2) zeros512 ∧ (hd 0 1 2).nak = false ∧ s.f .LNK_STATUS_STATE 3 = lkUp ∧ s.f .LNK_STATUS_ENC_ACT 3 = 0 ∧ (hd 0 1 2).ack = s.f .LNK_SEQ_TX_ACKED 3 ∧
      (BitVec.ofNat 16 0 - BitVec.ofNat 16 (s.f .LNK_SEQ_RX_LAST 3 + 1)).toInt = 0 ∧ (BitVec.ofNat 16 1 - BitVec.ofNat 16 (s.f .LNK_SEQ_RX_LAST 3 + 1)).toInt = 1 ∧
      (BitVec.ofNat 16 65535 - BitVec.ofNat 16 (s.f .LNK_SEQ_RX_LAST 3 + 1)).toInt = -1 ∧ headerFits (hd 65535 1 2) zeros512 ∧ headerFits (hd 1 1 2) zeros512 ∧
      s.portRuns 3 = false ∧ (s.link 3).rxTags = [] ∧ headerFits (hd 0 4 tyEmpty) zeros512 ∧
      0 < seqDiff 4 (s.f .LNK_SEQ_TX_ACKED 3) ∧ 0 < seqDiff (s.f .LNK_SEQ_TX_NEXT 3) 4 := by decide +kernel
theorem witness_LinkReceive_mark : headerFits (hd 0 1 tyMark) (leBytes 14 101 ++ [3#8] ++ List.replicate 497 0#8) ∧
    leAt (leBytes 14 101 ++ [3#8] ++ List.replicate 497 0#8) 14 1 = (lk lkUp id).f .BEL_ACTIVE_US ∧ headerFits (hd 0 1 tyMark) zeros512 ∧
    leAt zeros512 14 1 ≠ (lk lkUp id).f .BEL_ACTIVE_US := by decide +kernel
/-- A training frame from link 3 of chip 77. -/
def tf : TrainFrame := ⟨none, 77, 3, 3, 0, false, false, 3, 9, List.replicate 16 (0, 100, 140, 400), none⟩
theorem witness_LinkHandshake_up : let s := lk lkHand (fun l => { l with fresh := false })
    s.f .LNK_STATUS_STATE 3 = lkHand ∧ tf.refusal = none ∧ tf.chip < 2 ^ 15 ∧ tf.link < 64 ∧ s.f .LNK_EXPECT_CHECK_EN 3 = 0 ∧ (s.link 3).enc = false ∧
      tf.enc = false ∧ tf.flushed = false ∧ tf.exchanges.length = 16 ∧ (s.link 3).fresh = false ∧ (s.link 3).flushFlag = false ∧
      ((lk lkHand id).link 3).fresh = true := by decide +kernel
theorem witness_LinkHandshake_refused : let s := put (lk lkHand (fun l => { l with enc := true })) [(.LNK_EXPECT_CHECK_EN, 3, 1), (.LNK_EXPECT_CHIP, 3, 77), (.LNK_EXPECT_LINK, 3, 3)]
    s.f .LNK_STATUS_STATE 3 = lkHand ∧ ({ tf with refusal := some 2 } : TrainFrame).refusal ≠ none ∧
      (s.f .LNK_EXPECT_CHECK_EN 3 = 1 ∧ s.f .LNK_EXPECT_CHIP 3 ≠ ({ tf with chip := 78 } : TrainFrame).chip) ∧
      ¬(s.f .LNK_EXPECT_CHECK_EN 3 = 1 ∧ (s.f .LNK_EXPECT_CHIP 3 ≠ tf.chip ∨ s.f .LNK_EXPECT_LINK 3 ≠ tf.link)) ∧ (s.link 3).enc ≠ tf.enc ∧
      ({ tf with enc := true } : TrainFrame).enc = (s.link 3).enc ∧ s.f .LNK_STATUS_GRACE 3 = 0 ∧ tf.kex = none := by decide +kernel

/-! ### Schedules and the open market -/

def memAt (a : Nat) (bs : List Byte) (m : Mem) : Mem := m.wrBytes a bs
/-- Link 3 runs table sets at 64 KiB whose transmit flow 5 is a PUT; page 0 holds these words. -/
def sched (ws : List Nat) : State :=
  let s := put (flow []) [(.BEL_NOW_BELL, 0, 100), (.BEL_ACTIVE_US, 0, 3), (.BEL_ACTIVE_LEN_M1, 0, 1), (.STL_ACT_REQ, 3, 0), (.STL_ACT_RPL, 3, 0), (.STL_ACT_CTL, 3, 0), (.STL_ACT_AWN, 3, 4), (.STL_TXBASE_ACT_BASE, 3, 1), (.STL_RXBASE_ACT_BASE, 3, 1)]
  inLink { s with hbm := memAt (descPlace 65536 5) (leBytes 32 (putDesc 2 kPut)) (memAt (65536 + 0x2000) (ws.flatMap (leBytes 4)) []) } 3 (fun l => { l with live := true })
def endWord : Nat := 7 * 2 ^ 24
def rxf (b : Nat) : RxFrame := ⟨2, b, 1, zeros512⟩

theorem witness_Schedules_txPage :
    (let s := sched [10 * 4096 + 5, 3 * 4096 + 6, endWord]
     (s.setsAt 3 (s.now + 1)).live = true ∧ pagePasses s 3 (s.setsAt 3 (s.now + 1)).tx (s.now + 1) = true ∧ s.setsAt 3 (s.now + 1) = s.setsAt 3 s.now) ∧
    (let s := sched [10 * 4096 + 5, 6, endWord]
     (s.setsAt 3 (s.now + 1)).live = true ∧ pagePasses s 3 (s.setsAt 3 (s.now + 1)).tx (s.now + 1) = false) ∧ (State.reset.setsAt 3 1).live = false := by decide +kernel
theorem witness_Schedules_clean : cleanHbm (sched []) := fun _ => rfl
theorem witness_Schedules_rxPage :
    (let s := inLink (put (sched [10 * 4096 + 5, endWord]) [(.CLK_RGN_STATUS_STOPPED, linkRegion 3, 1)]) 3 (fun l => { l with rxFifo := [rxf 101] })
     (s.link 3).rxFifo = rxf 101 :: [] ∧ (s.setsAt 3 101).live = true ∧ ((s.link 3).rxPages.find? (fun p => p.1 == 101)).isSome = false ∧ s.portRuns 3 = false ∧
       pagePasses s 3 (s.setsAt 3 101).rx 101 = true) ∧
    (let s := inLink (put (sched [5, endWord]) [(.CLK_RGN_STATUS_STOPPED, linkRegion 3, 1)]) 3 (fun l => { l with rxFifo := [rxf 101] })
     s.portRuns 3 = false ∧ pagePasses s 3 (s.setsAt 3 101).rx 101 = false) := by decide +kernel
/-- Link 3 has this transmit flow 5. -/
def tx5 (f : TFlow → TFlow) : State := inLink (sched []) 3 (fun l => { l with tflows := [(5, f { TFlow.reset with desc := putDesc 2 kPut, loaded := true, permits := 2, puts := [(1, 0)] })] })
theorem witness_Schedules_vector : let s := tx5 id
    let x := s.tflow 3 5
    x.puts = (1, 0) :: [] ∧ x.loaded = true ∧ x.refused = false ∧ x.active = false ∧ dKind x.desc = kPut ∧ dPneed x.desc ≤ x.permits ∧ dTrig x.desc = false ∧
      dSpace x.desc ≠ 1 ∧ ((tx5 (fun x => { x with permits := 0 })).tflow 3 5).permits < dPneed (putDesc 2 kPut) ∧ (s.core 0).eccOne = [] ∧ (s.core 1).eccBad = [] ∧
      (let u := tx5 (fun x => { x with loaded := false })
       (u.tflow 3 5).loaded = false ∧ (u.setsAt 3 u.now).live = true ∧ dTrig (u.descAt (u.setsAt 3 u.now).tx 5) = false) := by decide +kernel
theorem witness_Schedules_reset : let s := put (tx5 id) [(.FLW_SEL_FLOW, 3, 5), (.FLW_SEL_DIR, 3, 0)]
    (s.f .FLW_SEL_DIR 3 = 0 ∧ (s.tflow 3 (s.f .FLW_SEL_FLOW 3)).puts ≠ []) ∧
    (let s := put (tx5 id) [(.FLW_SEL_FLOW, 3, 4), (.FLW_SEL_DIR, 3, 1)]
     s.f .FLW_SEL_DIR 3 ≠ 0 ∧ (s.rflow 3 (s.f .FLW_SEL_FLOW 3)).cursor = 0 ∧ (s.rflow 3 (s.f .FLW_SEL_FLOW 3)).got = []) := by decide +kernel
theorem witness_Schedules_arm : let s := put State.reset [(.BEL_NOW_BELL, 0, 100), (.BEL_ACTIVE_LEN_M1, 0, 3)]
    armStatus s 163 = 2 ∧ armStatus s 164 = 1 ∧ armStatus s 165 = 3 := by decide +kernel
theorem witness_Schedules_watch : let s := put (tx5 (fun x => { x with wait := 9, code := 2 })) [(.PRT_WATCH_CFG_LIMIT, 1, 9)]
    s.watcher (s.tflow 3 5).desc = some 1 ∧ (s.tflow 3 5).reported = false ∧ s.f .PRT_WATCH_CFG_LIMIT 1 ≠ 0 ∧ s.f .PRT_WATCH_CFG_LIMIT 1 ≤ (s.tflow 3 5).wait ∧
      s.f .PRT_WATCH_VALID 1 = 0 := by decide +kernel

/-- A packet of class cls and op to chip dst from chip src: len data bytes for this address, with this tag, of core 1. -/
def pkt (dst src cls op len addr tag : Nat) (data : List Byte) : OpenPkt :=
  ⟨dst + src * 2 ^ 16 + 0x81 * 2 ^ 32 + cls * 2 ^ 40 + op * 2 ^ 42 + (len / 4 - 1) * 2 ^ 48, addr + tag * 2 ^ 44, data, none, none, none⟩
def arrives (p : OpenPkt) : State :=
  let s := inCore (put (flow []) [(.BEL_NOW_BELL, 0, 100)]) 1 (fun k => { k with porter := [(0, some op0), (3, some { op0 with kind := .get, len := 1024, local_ := 0x200, locDone := true })] })
  { s with opn := { s.opn with arrived := [p] } }
def bytes (n : Nat) : List Byte := (List.range n).map (fun i => BitVec.ofNat 8 (i + 250))
/-- An address in the store of core 1. -/
def st1 : Nat := 0xC0000800400
theorem witness_OpenMarket_start : let p := pkt 7 0 0 1 1024 0 9 (bytes 1024)
    let s := fun u => inLink (put (arrives p) [(.OPN_RBUF_ACT_REQ, 3, 1)]) 3 (fun l => { l with openQ := [(0, [p])], used := [(p.creditKey 3, u)] })
    Map.get none ((s []).link 3).cur 0 = none ∧ Map.get [] ((s []).link 3).openQ 0 = p :: [] ∧ (s []).eligible p = true ∧ p.data.length ≤ 8192 ∧
      (List.replicate 63 0).sum + p.units ≤ (s [0]).sectionUnits 3 0 ∧ (s [999]).sectionUnits 3 0 < [999].sum + p.units ∧
      Map.get [] ((s (List.replicate 63 0)).link 3).used (p.creditKey 3) = List.replicate 63 0 ∧
      Map.get [] ((s (List.replicate 64 0)).link 3).used (p.creditKey 3) = List.replicate 64 0 := by decide +kernel
theorem witness_OpenMarket_request :
    (let p := pkt 0 7 0 0x01 1024 st1 9 (bytes 1024)
     (arrives p).opn.arrived.find? (fun p => p.cls == clsReq) = some p ∧ (arrives p).openCheck p = 0 ∧ 0xC0000000000 ≤ p.addr ∧ (arrives p).serveWait p = none ∧ p.op = 0x01 ∧
       p.data.length = p.len ∧ p.addr ≤ storeAddr 1 (512 * 3) ∧ storeAddr 1 (512 * 3) + 512 ≤ p.addr + p.len) ∧
    (let p := { pkt 0 7 0 0x02 4 0x1000 9 (leBytes 4 64) with via := some (0, 0, 1) }
     let s := owned (arrives p) [(7, .port 0)]
     s.openCheck p = 0 ∧ (s.serveWait p).isSome = true) ∧
    (let p := pkt 0 7 0 0x06 8 st1 9 (bytes 8); (arrives p).openCheck p = 0 ∧ p.op = 0x06 ∧ p.data.length = p.len) ∧
    (let p := pkt 0 7 0 0x02 4 st1 9 (leBytes 4 64); (arrives p).openCheck p = 0 ∧ p.op = 0x02) ∧
    (let p := pkt 0 7 0 0x0A 8 st1 9 (bytes 8); (arrives p).openCheck p = 0 ∧ p.op = 0x0A) ∧
    (let p := pkt 0 7 0 0x01 8 0xF0000000000 9 (bytes 8); (arrives p).openCheck p ≠ 0) := by decide +kernel
theorem witness_OpenMarket_reply :
    (let p := pkt 0 7 1 0x21 1024 0 3 (bytes 1024); let s := arrives p
     s.opn.arrived.find? (fun p => p.cls == clsRpl) = some p ∧ 0x80 ≤ p.srcId ∧ p.tag = (s.core 1).tagOf (p.tag % 256) ∧
       (s.core 1).port 3 = some { op0 with kind := .get, len := 1024, local_ := 0x200, locDone := true } ∧ p.op = 0x21 ∧ p.data.length = 1024 ∧ s.enabled 1 = true) ∧
    (let p := pkt 0 7 1 0x20 4 0 0 (leBytes 4 4); let s := arrives p
     p.tag = (s.core 1).tagOf (p.tag % 256) ∧ (s.core 1).port 0 = some op0 ∧ op0.booked = false ∧ op0.sent ≠ none ∧ 1 < (byteAt p.data 0).toNat) ∧
    (let p := pkt 0 7 1 0x20 4 0 256 (bytes 4); p.tag ≠ ((arrives p).core 1).tagOf (p.tag % 256)) := by decide +kernel
theorem witness_OpenMarket_timeout : let s := fun tmo => put (arrives (pkt 0 7 0 1 8 st1 9 (bytes 8))) [(.PRT_CFG_OPEN_TMO, 1, tmo)]
    ((s 100).core 1).ops.find? (fun x => lateOp (s 100) 1 x.2) = some (0, op0) ∧ ((s 101).core 1).streams = [] ∧
      ((s 101).core 1).ops.all (fun x => !lateOp (s 101) 1 x.2) = true := by decide +kernel

/-! ### Topology -/

/-- Chip 6 of group 0, the steward, at bell 100; rounds of four bells; core 1 LOADED. -/
def chip6 (f : TopoUnit → TopoUnit) : State :=
  let s := put { flow [] with fuse := { State.reset.fuse with board := 1, position := 2 } } [(.BEL_NOW_BELL, 0, 100), (.BEL_ACTIVE_US, 0, 3), (.BEL_ACTIVE_LEN_M1, 0, 3), (.CHIP_ADDR_BOARD, 0, 1),
    (.CHIP_ADDR_POSITION, 0, 2), (.CHIP_STEWARD_SELF, 0, 1), (.CHIP_STEWARD_MERGE, 0, 10), (.CHIP_GROUP_VIEW_HEALTHY, 0, 0x4D), (.CORE_STATUS_STATE, 1, stLoaded)]
  { s with topo := f { s.topo with partition := [6, 7, 3], ranks := [6] } }
def agree (p : Nat) (f : Agreement → Agreement) : State := chip6 (fun x => { x with agreements := [f ⟨p, 356, true, 6, [7, 3], [], 0, false, false, []⟩] })
def oneGroup : MachineConfig := { group := 0, groups := 1, cables := [], hostwr := 0x7FF, holdupCfg := 5, mirror := 8192, perst := 1 }
def twoGroups : MachineConfig := { oneGroup with group := 1, groups := 2, cables := [⟨0, 33, 1, 70⟩, ⟨1, 70, 0, 33⟩] }
theorem witness_Topology_setup : (chip6 id).f .CHIP_ADDR_LOCK = 0 ∧ (put State.reset [(.CHIP_ADDR_LOCK, 0, 1)]).f .CHIP_ADDR_LOCK = 1 ∧ (chip6 id).topo.machine = none ∧
    (chip6 (fun x => { x with machine := some oneGroup })).topo.machine = some oneGroup ∧ cablesOk twoGroups = true ∧ twoGroups.group < twoGroups.groups ∧
    cablesOk { twoGroups with cables := [⟨0, 33, 1, 70⟩] } = false ∧ (chip6 id).f .CTL_LOCK_LOCK = 0 ∧
    (⟨1, 70, 0, 33⟩ : CablePair) ∈ twoGroups.cables ∧ (70 : Nat) = 32 * (put State.reset [(.CHIP_ADDR_POSITION, 0, 2)]).index + 6 := by decide +kernel
/-- A plan of the chips 6, 7 and 3, and the detour plan of a link between chips 7 and 6. -/
def plan5 : PlanInfo := ⟨5, [], none, [6, 7, 3], []⟩
def detour8 : PlanInfo := ⟨8, [], none, [6, 7], [(7, 2), (6, 2)]⟩
theorem witness_Topology_plan : let s := chip6 (fun x => { x with plans := [plan5, detour8] })
    s.outstanding 0x10 = false ∧ s.topo.plans.find? (fun x => x.id == 5) = some plan5 ∧ s.topo.plans.find? (fun x => x.id == 4) = none ∧
      s.planWritten plan5 = true ∧ s.permitsFit s.routeOf [] = true ∧ s.initiates 5 = true ∧ plan5.chips.filter (fun c => c != s.chipAddr) = [7, 3] ∧
      (s.armPlan 5 164).2 = 0 ∧ (put s [(.CHIP_STEWARD_SELF, 0, 0)]).initiates 5 = false ∧ detour8.ends.all (fun e => decide (s.chipAddr ≤ e.1)) = true ∧
      detour8.ends.any (fun e => e.1 == s.chipAddr) = true ∧ s.initiates 8 = true := by decide +kernel
theorem witness_Topology_answers : let s := agree 0xC0000001 (fun a => { a with answers := [(7, none)] })
    held s 0xC0000001 = some ⟨0xC0000001, 356, true, 6, [7, 3], [(7, none)], 0, false, false, []⟩ ∧ held s 5 = none ∧
      ([((7 : Nat), (none : Option Nat))].filter (fun x => x.1 != 3)).length + 1 = 2 ∧ s.cst 1 = stLoaded ∧ s.now + 64 < 356 := by decide +kernel
theorem witness_Topology_deadlines :
    held (agree 5 (fun a => { a with rounds := 3, bell := 164 })) 5 = some ⟨5, 164, true, 6, [7, 3], [], 3, false, false, []⟩ ∧ 164 ≤ (chip6 id).now + 64 ∧
    held (agree 5 (fun a => { a with confirmed := true, bell := 36, dones := [7] })) 5 = some ⟨5, 36, true, 6, [7, 3], [], 0, true, false, [7]⟩ ∧ 36 + 64 ≤ (chip6 id).now ∧
    held (agree 0xC0000001 (fun a => { a with initiator := false, from_ := 3 })) 0xC0000001 = some ⟨0xC0000001, 356, false, 3, [7, 3], [], 0, false, false, []⟩ := by
  decide +kernel
theorem witness_Topology_notices : let s := chip6 (fun x => { x with toSend := [⟨7, 1, 5, 3⟩] })
    s.topo.toSend = ⟨7, 1, 5, 3⟩ :: [] ∧ s.topo.sent = [] ∧ (s.f .CHIP_GROUP_VIEW_HEALTHY).testBit 0 = true ∧ s.f .CHIP_ADDR_GROUP * 32 + 0 ≠ 7 ∧ s.index = 6 ∧
    (let u := chip6 (fun x => { x with toSend := [⟨7, 1, 5, 3⟩], sent := [⟨7, 1, 37, 0⟩] }); u.topo.sent = [⟨7, 1, 37, 0⟩] ∧ u.now < 37 + 64) := by decide +kernel
theorem witness_Topology_merges : let m : Merge := ⟨7, 2, 3, 90, 1, 2, 4, 90⟩
    let s := chip6 (fun x => { x with merges := [m] })
    s.topo.merges.find? (fun m => decide (m.opened + s.f .CHIP_STEWARD_MERGE ≤ s.now)) = some m ∧ m.cls = 2 ∧ m.suspect / 32 % 1024 = s.f .CHIP_ADDR_GROUP ∧
      s.topo.recWait.length < 256 ∧ ¬(s.now < m.opened + s.f .CHIP_STEWARD_MERGE) := by decide +kernel
theorem witness_Topology_records : let r := List.replicate 32 9#8
    (let s := put (chip6 (fun x => { x with recWait := [(64, r)] })) [(.MBX_BIND_EN, 63, 1), (.MBX_BIND_SEND, 63, 0x14), (.MBX_BIND_SMASK, 63, 0)]
     s.topo.recSent = false ∧ s.topo.recWait = (64, r) :: [] ∧ r.length = 32 ∧ s.mbxSender 0x14 63 = true ∧ s.f .MBX_BIND_EN 63 = 1 ∧ s.f .MBX_STAT_LOCKED 63 = 0) ∧
    (let s := put (chip6 (fun x => { x with recWait := [(64, r)], recSent := true })) [(.MBX_STAT_TAKEN, 63, 1)]
     s.topo.recSent = true ∧ s.f .MBX_STAT_TAKEN 63 = 1 ∧ s.topo.recWait.length ≤ 1) ∧ State.reset.enabled 1 = true ∧ State.reset.enabled 127 = true := by decide +kernel

/-! ### Loading, weights and the ledger -/

/-- A bundle of one chip of one image, and a job for it. -/
def bundle : Bundle := { ncoreMin := 1, ncoreMax := 4, ncoreStep := 1, nchips := [1], grades := [128], speeds := [0], modes := [false], planMhz := 1800, images := [⟨3, 0, [1#8, 2#8]⟩], roles := [0], bellUs := 3, roundLen := 4, origin := 8, quiet := [], req := 1, rpl := 1, ctl := 1, awn := 4, margin := 2, hbmPlan := [], openTmo := 9, watch := 3, zgate := false, nilgate := true, sets := [], route := 0, tableBase := 0x1000000, regions := List.replicate 8192 0#8, shards := [], coreOff := 0, treeBase := 0, trees := [], plans := [plan5], planSets := [], holders := [], ranks := [6], spareOk := false, cuts := [], rankBase := 0x2000000, alts := [] }
def job : JobConfig := { ncore := 2, inv := false, grade := 128, speed := 0, ranks := [6], spares := [], reshape := 0, cls := 2, powerCtrl := 0, root := 0, parent := 0, alt := 0, altEn := false, links := [], thrOn := 256, thrOff := 128, openMap := [], seed := 1, startStep := 0, arg := 0, recBase := 0, tally := false, sheetBase := 0, sheetLog2 := 10, sheetHost := false, pmcUser := false, pmcSel := [], verify := [] }
/-- A command that the master has taken. -/
def tk (code : Nat) (st : Bool) : Taken := ⟨0, code, 3, 0, true, true, 0, [], st, false⟩
def taken (l : List Taken) (s : State) : State := { s with hst := { s.hst with taken := l } }
def loader : State := put (chip6 id) [(.CHIP_STEWARD_SELF, 0, 0), (.PWR_CLASS_ACT, 0, 2), (.CHIP_GRADE_NCORE_EN, 0, 128)]
theorem witness_LoadingAndWeights_load : loader.loadRefusal (loader.writeSets (bundle.sets ++ bundle.planSets)) job bundle = none ∧ job.cls = loader.f .PWR_CLASS_ACT ∧
    job.ranks = bundle.ranks ∧ loader.f .CHIP_STEWARD_SELF = 0 ∧ (bundle.sets.map (·.link)).Nodup ∧ loader.loadRefusal loader { job with grade := 96 } bundle = some (2, 0) ∧
    (taken [tk 0x21 true] loader).outstanding 0x21 = true ∧
    (let b := { bundle with ranks := [6, 7], alts := [⟨[6], []⟩] }
     b.alts = [⟨[6], []⟩] ∧ ∀ c ∈ [6], c ∈ b.ranks) := by decide +kernel
theorem witness_LoadingAndWeights_plain : bundleFor bundle job = bundle ∧ job.reshape ≠ 1 ∧ job.reshape ≠ 3 := ⟨rfl, by decide, by decide⟩
theorem test_wf_bundle : Instr.wf (.loadBundle job bundle 0) = true ∧ Instr.wf (.loadBundle job { bundle with regions := [0#8] } 0) = false := by decide +kernel
theorem witness_LoadingAndWeights_start : cannotStart (taken [tk 0x10 false] loader) ∧
    ¬cannotStart (put loader [(.CORE_STATUS_STATE, 0, stLoaded), (.CORE_BIND_BOUND, 0, 1), (.WGT_RGN_CFG_VALID, 3, 1), (.WGT_RGN_STATE_B, 3, bkActive)]) ∧
    loader.now + 64 ≤ (164 : BitVec 64).toNat ∧ (163 : BitVec 64).toNat < loader.now + 64 := by
  unfold cannotStart bankIs; decide +kernel
theorem witness_LoadingAndWeights_jobs : let s := put loader [(.CRI_JOB_BASE_BASE, 0, 0x50), (.CRI_JOB_BASE_LOG2, 0, 4), (.CRI_JOB_TAIL_TAIL, 0, 3), (.CRI_JOB_HEAD_HEAD, 0, 3)]
    [((9 : Word), (0 : Word), (0 : Word), (0 : Word))].all jobForm = true ∧ 15 ≤ jobRoom s ∧ jobRoom s < 16 ∧ ringInHbm s ∧
      [((2 ^ 25 : Word), (0 : Word), (0 : Word), (0 : Word))].all jobForm = false := by
  unfold ringInHbm; decide +kernel
/-- Region 3 has a LOADED and an ACTIVE bank with one shard; tree 9 feeds link side 0 and the stores; a job waits at the crier's tail. -/
def weights (w : Nat) : State :=
  let s := put (chip6 id) [(.CHIP_STEWARD_SELF, 0, 0), (.WGT_TABLE_BASE_BASE, 0, 0x30), (.WGT_RGN_CFG_VALID, 3, 1), (.WGT_RGN_CFG_SHARDS, 3, 1), (.WGT_RGN_STATE_A, 3, bkLoaded), (.WGT_RGN_STATE_B, 3, bkActive),
    (.WGT_CTRL_SCRUB_EN, 0, 1), (.WGT_SWAP_MASK_REGIONS, 0, 8), (.CRI_CTRL_EN, 0, 1), (.CRI_JOB_BASE_BASE, 0, 0x50), (.CRI_JOB_BASE_LOG2, 0, 4), (.CRI_TREE_BASE_BASE, 0, 0x40), (.CRI_JOB_TAIL_TAIL, 0, 3), (.CRI_JOB_HEAD_HEAD, 0, 5)]
  let m := memAt (0x30 * 65536 + 768 + 8) (leBytes 8 0x100000) []
  let m := memAt (0x30 * 65536 + 768 + 16) (leBytes 8 2 ++ leBytes 8 0 ++ leBytes 8 0x5000000 ++ leBytes 8 2) m
  let m := memAt (0x30 * 65536 + 0x2000) (leBytes 4 0x77 ++ leBytes 4 3 ++ leBytes 4 0 ++ leBytes 4 2 ++ leBytes 16 99) m
  let m := memAt (0x40 * 65536) (leBytes 2 9 ++ leBytes 1 1 ++ leBytes 1 1 ++ leBytes 4 2 ++ leBytes 8 (100 + 2 ^ 17)) m
  { s with hbm := memAt (0x50 * 65536 + 96) (leBytes 8 w) m, wgt := { s.wgt with shards := [(shardKey 3 0 0, ⟨2, 0, 0, 0⟩), (shardKey 3 1 0, ⟨2, 0, 0, 0⟩)] } }
def word (src shard : Nat) : Nat := 9 + src * 2 ^ 16 + 3 * 2 ^ 18 + shard * 2 ^ 32
theorem witness_LoadingAndWeights_crier : let s := weights (word 1 0x77)
    s.f .CRI_CTRL_EN = 1 ∧ s.criUsed ≠ 0 ∧ s.wgt.jobs = [] ∧ ringInHbm s ∧ tailTree s = 9 ∧ tailSrc s = 1 ∧ tailShard s = some 0 ∧
      0 < ((s.shardsOf (tailRegion s)).getD 0 ⟨0, 0, 0, 0, 0⟩).len ∧ tailShard (weights (word 1 0x78)) = none ∧ tailSrc (weights (word 2 0x77)) = 2 := by
  unfold ringInHbm; decide +kernel
theorem witness_LoadingAndWeights_tree : ((weights (word 1 0x77)).treeOf 9).map (fun x => (x.dests, x.vlen)) = some ([0, 4], 2) := by decide +kernel
/-- A job of the crier on tree 9 whose next piece is the first. -/
def crierJob : CriJob := { slot := 3, tree := 9, src := 1, region := 3, bank := 0, sbank := 0, shard := 0, addr := 0, tag := 0, next := [], host := [], err := false }
def crier (j : CriJob) : State := let s := weights (word 1 0x77); { s with wgt := { s.wgt with jobs := [j] } }
theorem witness_LoadingAndWeights_piece : (crier crierJob).wgt.jobs.find? (fun j => j.tree == (9 : BitVec 16).toNat) = some crierJob ∧
    (∀ x, (crier crierJob).treeOf 9 = some x → x.vlen = 2 → (crier crierJob).pieceHere crierJob x 0 = true ∧ 0 < ceilDiv ((crier crierJob).jobShard crierJob).len (x.vlen - 1)) ∧
    (crier { crierJob with src := 0 }).hst.busMaster = true ∧ (crier crierJob).transit = [] := by
  refine ⟨by decide +kernel, fun x _ hv => ?_, by decide +kernel, by decide +kernel⟩
  rw [hv]
  exact ⟨by rfl, by decide +kernel⟩
/-- Stack 0 and 1 give the crier and the scrub slots. -/
def slotting (s : State) : State := upto 2 (fun k s => s.setStack k { s.stack k with owners := [(7, .crier), (8, .scrub)] }) s
theorem witness_LoadingAndWeights_slots : let s := slotting (crier crierJob)
    s.slotted .crier 0 = true ∧ s.asked (.crier 9 0) = false ∧ s.asked .scrub = false ∧ (crier crierJob).hbms = [] ∧
      (let u := slotting { weights (word 1 0x77) with wgt := { (weights (word 1 0x77)).wgt with scrub := [(3, 1, 0)] } }
       u.scrubReads.any (fun a => u.slotted .scrub (stackOf a)) = true) := by decide +kernel
theorem witness_LoadingAndWeights_swap : let s := weights (word 1 0x77)
    s.outstanding 0x10 = false ∧ s.swappable 3 = true ∧ s.swappable 4 = false ∧ s.f .CHIP_STEWARD_SELF = 0 ∧ ahead s 164 = 64 ∧ s.boundaryArm 164 = true ∧
      s.boundaryArm 165 = false ∧ (s.f .WGT_SWAP_MASK_REGIONS).testBit 3 = true ∧ s.f .WGT_RGN_STATE_A 3 = bkLoaded ∧
      (put s [(.WGT_RGN_STATE_A, 3, bkFree)]).f .WGT_RGN_STATE_A 3 ≠ bkLoaded := by decide +kernel
theorem witness_LoadingAndWeights_scrub : let s := { weights (word 1 0x77) with wgt := { (weights (word 1 0x77)).wgt with scrub := [(3, 1, 0)] } }
    s.f .WGT_CTRL_SCRUB_EN = 1 ∧ s.f .WGT_STATUS_SCRUB_BUSY = 0 ∧ s.wgt.scrub = (3, 1, 0) :: [] ∧ (s.shard 3 1 0).st = 2 ∧ s.f .WGT_RGN_STATE_B 3 ≠ bkFree ∧
      (put s [(.WGT_RGN_STATE_B, 3, bkFree)]).f .WGT_RGN_STATE_B 3 = bkFree := by decide +kernel

/-- A run of host writes is open. -/
def hostRun (mode : Nat) (full : Bool) : State := put { ck with ldg := { LdgUnit.reset with run := some ⟨100, [1#8, 2#8]⟩, ringFull := full } } [(.LDG_CTRL_MODE, 0, mode)]
/-- Replay of these entries from the first. -/
def replay (es : List (List Byte)) : State := put { ck with hbm := memAt (0x60 * 65536) es.flatten [], ldg := { LdgUnit.reset with batch := some (64, 64, 3) } }
  [(.LDG_CTRL_MODE, 0, ldgFeed), (.LDG_RPL_BASE_BASE, 0, 0x60), (.LDG_RPL_PAY_BASE_BASE, 0, 0x61), (.LDG_RPL_CFG_COUNT, 0, es.length), (.LDG_RPL_CUR_CUR, 0, 0)]
def entry (kind last : Nat) : List Byte := (List.range 64).map (fun i => if i = 18 then BitVec.ofNat 8 kind else if i = 53 then BitVec.ofNat 8 last else 0)
theorem witness_LedgerCommands_writes : (hostRun 0 false).f .LDG_CTRL_MODE = ldgOff ∧ (hostRun 0 false).ldg.run ≠ none ∧ ck.ldg.run = none ∧
    (hostRun ldgRecord false).f .LDG_CTRL_MODE = ldgRecord ∧ (hostRun ldgRecord false).ldg.ringFull = false ∧ (hostRun ldgRecord true).ldg.ringFull = true ∧
    (put ck [(.HST_BAR2_OFF_OFF, 0, 0)]).f .HST_BAR2_OFF_OFF * 2 ^ 30 + (BitVec.ofNat 40 (hbmBytes - 2)).toNat + 2 ≤ hbmBytes := by decide +kernel
theorem witness_LedgerCommands_replay :
    (let s := replay [entry 1 1]; s.f .LDG_CTRL_MODE = ldgFeed ∧ s.rplCursor < s.f .LDG_RPL_CFG_COUNT ∧ (byteAt (s.rplBytes s.rplCursor) 18).toNat % 128 = 1 ∧
      (byteAt (s.rplBytes s.rplCursor) 53).toNat % 2 = 1) ∧
    (let s := replay [entry 0x0A 1, entry 2 1]; s.rplCursor = 1 ∧ (byteAt (s.rplBytes 1) 18).toNat % 128 = 2) ∧
    (let s := replay [entry 4 1]; s.rplCursor = 0 ∧ (byteAt (s.rplBytes 0) 18).toNat % 128 = 4) := by decide +kernel
theorem witness_LedgerCommands_mode : (put (bound []) [(.CORE_STATUS_STATE, 1, stRun)]).jobRuns = true ∧ (3 : BitVec 2).toNat = 3 ∧ State.reset.jobRuns = false ∧
    (64 : BitVec 32).toNat % 64 = 0 ∧ (BitVec.ofNat 32 (2 ^ 30)).toNat ≤ 2 ^ 30 ∧ (BitVec.ofNat 64 (hbmBytes - 64)).toNat + 64 ≤ hbmBytes ∧
    (replay []).ldg.batch = some (64, 64, 3) ∧ (put (replay []) [(.LDG_CTRL_MODE, 0, 0)]).f .LDG_CTRL_MODE = ldgOff ∧ (hostRun ldgRecord false).ldg.cycle = none ∧
    (replay [entry 2 1]).batchFed = true ∧ (replay [entry 2 1]).f .LDG_CTRL_MODE = (2 : BitVec 2).toNat := by decide +kernel
theorem witness_LedgerCommands_bar2 : ck.rgnStopped 16 = false ∧ (List.range 4).all (fun g => !ck.rgnStopped (20 + g)) = true ∧
    (put ck [(.CLK_RGN_STATUS_STOPPED, 23, 1)]).rgnStopped 23 = true ∧ (owned ck [(7, .host)]).slotted .host (stackOf 0) = true ∧ ck.slotted .host (stackOf 0) = false ∧
    (0 : BitVec 40).toNat + 2 ≤ 2 ^ ck.hst.bar2 := by decide +kernel
theorem witness_LoadingAndWeights_notree : let s := { put loader [(.CRI_CTRL_EN, 0, 1), (.CRI_JOB_BASE_LOG2, 0, 4), (.CRI_JOB_HEAD_HEAD, 0, 1)] with hbm := [] }
    s.f .CRI_CTRL_EN = 1 ∧ s.criUsed ≠ 0 ∧ s.wgt.jobs = [] ∧ ringInHbm s ∧ s.hbm = [] := by
  unfold ringInHbm; decide +kernel

/-! ### Mailboxes, the host, security -/

/-- Control core 2 receives on channel 3 from 0x14; the host on channel 5 from anyone. -/
def boxes (l : List (Fld × Nat × Nat)) : State := put ck ([(.MBX_BIND_SEND, 3, 0x14), (.MBX_BIND_SMASK, 3, 0), (.MBX_BIND_RECV, 3, 0x12), (.MBX_BIND_EN, 3, 1), (.MBX_BIND_SMASK, 5, 0xFF),
  (.MBX_BIND_EN, 5, 1), (.MBX_BIND_RECV, 5, 0), (.CTL_STATUS_RUNNING, 0, 0xFF), (.CTL_WDOG_LIMIT, 2, 5)] ++ l)
theorem witness_MailboxesAndMasters_send : maySend (boxes []) 0x14 3 ∧ ¬maySend (boxes []) 0x00 3 ∧ maySend (boxes []) 0x00 5 ∧ (boxes []).f .MBX_BIND_EN 3 = 1 ∧
    ¬lockedAway (boxes []) 0x14 3 ∧ lockedAway (boxes [(.MBX_STAT_LOCKED, 3, 1), (.MBX_STAT_OWNER, 3, 0x12)]) 0x14 3 ∧ (boxes []).f .MBX_STAT_FULL 3 = 0 ∧
    (boxes [(.MBX_STAT_FULL, 3, 1)]).f .MBX_STAT_FULL 3 = 1 ∧ (boxes []).f .MBX_BIND_RECV 3 = 0x10 + 2 := by
  unfold maySend lockedAway; decide +kernel
theorem witness_MailboxesAndMasters_take : let s := boxes [(.MBX_STAT_FULL, 3, 1)]
    s.f .MBX_BIND_RECV 3 = (0x12 : Master).toNat ∧ s.f .MBX_STAT_FULL 3 = 1 ∧ s.f .MBX_BIND_RECV 3 ≠ (0x11 : Master).toNat ∧ (boxes []).f .MBX_STAT_FULL 3 = 0 ∧
      (boxes [(.MBX_STAT_LOCKED, 3, 1), (.MBX_STAT_OWNER, 3, 0x14)]).f .MBX_STAT_OWNER 3 = (0x14 : Master).toNat ∧ (0x10 : Master).toNat = 0x10 + s.f .CTL_MASTER_CORE := by
  decide +kernel
theorem witness_MailboxesAndMasters_watchdog : let s := taken [tk 5 true, tk 6 false] (boxes [(.CTL_MASTER_CORE, 0, 2), (.MBX_STAT_LOCKED, 5, 1), (.MBX_STAT_OWNER, 5, 0x12)])
    s.f .CTL_WDOG_LIMIT 2 ≠ 0 ∧ (s.f .CTL_STATUS_RUNNING).testBit 2 = true ∧ s.f .CTL_MASTER_CORE = 2 ∧ (boxes []).f .CTL_MASTER_CORE ≠ 2 ∧
      s.f .MBX_BIND_RECV 3 = 0x10 + 2 ∧ s.f .MBX_STAT_LOCKED 5 = 1 ∧ s.f .MBX_STAT_OWNER 5 = 0x10 + 2 ∧ (boxes []).f .CTL_WDOG_LIMIT 1 = 0 := by decide +kernel
theorem witness_MailboxesAndMasters_masters : reachesRegs (0x01 : Master).toNat = false ∧ reachesRegs (0x20 : Master).toNat = true ∧
    (boxes [(.MBX_BIND_RECV, 3, 0x20)]).f .MBX_BIND_RECV 3 = 0x20 ∧ (taken [tk 0x11 true] (boxes [])).runsImmediate = false ∧
    (taken [tk 0x02 true] (boxes [])).runsImmediate = true := by decide +kernel
theorem witness_MailboxesAndMasters_l2 :
    let s := { State.reset with ctl := { CtlUnit.reset with l2 := [⟨0x13, 2, .own, [(9, 4#8)]⟩, ⟨0x11, 2, .own, [(8, 3#8)]⟩, ⟨0x12, 2, .writeback, []⟩] } }
    s.ctl.l2 = [⟨0x13, 2, .own, [(9, 4#8)]⟩, ⟨0x11, 2, .own, [(8, 3#8)]⟩, ⟨0x12, 2, .writeback, []⟩] ∧
      (s.l2Cycle.ctl.answers.map (fun a => (a.who, byteAt a.data 8))) = [(0x11, 0#8), (0x13, 3#8)] := by decide +kernel
/-- The host's queue is open and holds an entry. -/
def queue (f : HstUnit → HstUnit) : State := let s := put ck [(.HST_STATUS_READY, 0, 1), (.HST_CTRL_CQ_EN, 0, 1), (.HST_CQ_CFG_LOG2, 0, 6), (.HST_CQ_TAIL_TAIL, 0, 1)]; { s with hst := f s.hst }
/-- An entry of a command: code, step, last. -/
def ent (code step last : Nat) : List Byte := leBytes 2 code ++ leBytes 1 step ++ leBytes 1 last ++ leBytes 4 9 ++ List.replicate 56 0#8
theorem witness_HostCommands_take : let s := queue id
    s.f .HST_STATUS_READY = 1 ∧ s.f .HST_CTRL_CQ_EN = 1 ∧ s.f .HST_CQ_HEAD_HEAD ≠ s.f .HST_CQ_TAIL_TAIL % 2 ^ s.f .HST_CQ_CFG_LOG2 ∧ s.hst.cplFull = false ∧
      s.hst.held = [] ∧ s.hst.taken = [] ∧ s.hst.multi = none ∧ leAt (ent 0x11 0 1) 0 2 = 0x11 ∧ (0x11, CmdKind.deferred, [(24, 8)]) ∈ cmdTable ∧
      badBytes (ent 0x11 0 1) 0x11 0 true [(24, 8)] = false ∧ s.outstanding 0x11 = false ∧ leAt (ent 0x11 0 1) 8 8 = 0 ∧ State.reset.f .HST_CTRL_CQ_EN = 0 ∧ s.rgnStopped 16 = false ∧ s.hbms = [] ∧
      s.ctl.handover = none ∧ s.fedCommand = true := by decide +kernel
theorem witness_HostCommands_reject : badBytes (ent 0x11 0 5) 0x11 0 true [(24, 8)] = true ∧ cmdTable.all (fun r => r.1 != 0x03) = true ∧ leAt (ent 0x01 1 1) 2 1 ≠ 0 ∧
    (queue (fun h => { h with taken := [tk 0x11 true] })).outstanding 0x11 = true ∧ (0x50, CmdKind.multi, [(24, 8)]) ∈ cmdTable ∧
    badBytes (ent 0x50 0 0) 0x50 0 false [(24, 8)] = false := by decide +kernel
theorem witness_HostCommands_more : (queue (fun h => { h with multi := some (tk 0x50 true) })).hst.multi = some (tk 0x50 true) ∧ leAt (ent 0x50 2 0) 2 1 ≠ (tk 0x50 true).step + 1 ∧
    (999999999 : BitVec 32).toNat < 1000000000 ∧ (BitVec.ofNat 64 (2 ^ 48 - 1)).toNat < 2 ^ 48 ∧ 2 ^ 48 ≤ (BitVec.ofNat 64 (2 ^ 48)).toNat ∧
    (queue (fun h => { h with taken := [tk 0x11 true] })).hst.taken = [tk 0x11 true] ∧ (queue id).f .HST_ABORT_VALID 0 = 0 ∧ (boxes []).f .MBX_BIND_RECV 5 = 0 ∧
    State.reset.rst.boot = 0 ∧ (boxes []).rst.boot = 0 ∧ ({ boxes [] with rst := { RstUnit.reset with boot := 8 } } : State).rst.boot ≠ 0 ∧
    State.reset.f .CTL_STATUS_RUNNING = 0 ∧ ((boxes []).f .CTL_STATUS_RUNNING).testBit 0 = true := by decide +kernel
/-- A token with a wrong serial number never verifies; whether a right one does is the signature's matter, which is free. -/
def badToken : List Byte := List.replicate 256 0xFF#8
theorem witness_SecurityModule : (0x5A45524F : BitVec 32) ≠ 0x5A455250 ∧ (1023 : BitVec 32).toNat < 1024 ∧ 1024 ≤ (1024 : BitVec 32).toNat ∧
    State.reset.f .SEC_STATUS_ZEROISED = 0 ∧ (put ck [(.SEC_STATUS_ZEROISED, 0, 1)]).f .SEC_STATUS_ZEROISED = 1 ∧ State.reset.hst.busMaster = true ∧
    ck.tokenOk badToken = false := by decide +kernel

/-! ### The lifetime store, power, resets and start-up -/

def opJ : NorOp := ⟨.journal, 0x16, 0x2000000, some [1#8, 2#8]⟩
def opU : NorOp := ⟨.update, 0x10, 0x1000000, none⟩
/-- Hold-up is good. -/
def store (f : LifUnit → LifUnit) : State :=
  let s := put ck [(.LIF_HOLDUP_CFG_CAP, 0, 4000), (.LIF_HOLDUP_CFG_VMIN, 0, 5), (.LIF_HOLDUP_V, 0, 900), (.LIF_HOLDUP_OK, 0, 1), (.LIF_HOLDUP_CFG_EPROG, 0, 3), (.LIF_HOLDUP_CFG_EERASE, 0, 100), (.LIF_CTRL_EN, 0, 1)]
  { s with lif := f s.lif }
theorem witness_LifetimeAndFirmware_nor : let s := store (fun l => { l with queue := [opJ, opU], waiting := [opU] })
    s.lif.running = none ∧ s.lif.queue = opJ :: [opU] ∧ s.f .LIF_HOLDUP_OK = 1 ∧ (put s [(.LIF_HOLDUP_OK, 0, 0)]).f .LIF_HOLDUP_OK = 0 ∧ s.updBusy = true ∧
      (store (fun l => { l with running := some opU })).lif.running = some opU ∧ s.rst.wait = none := by decide +kernel
theorem witness_LifetimeAndFirmware_retry : let s := store (fun l => { l with waiting := [opJ, opU], retryGap := true })
    s.updBusy = false ∧ s.lif.waiting.find? (fun o => o.user != .journal) = some opU ∧ s.mayIssue opU = true ∧
      (put s [(.LIF_HOLDUP_V, 0, 3)]).mayIssue opU = false ∧ s.lif.retryGap = true := by decide +kernel
theorem witness_LifetimeAndFirmware_journal : let s := store id
    s.f .LIF_CTRL_EN = 1 ∧ s.lif.waiting = [] ∧ s.lif.queue = [] ∧ s.lif.running = none ∧ s.recErased s.lif.next = true ∧
      s.mayIssue ⟨.journal, 0x16, 0, some []⟩ = true ∧ (store (fun l => { l with nor := Mem.wrBytes [] (recAddr l.next) [1#8] })).recErased s.lif.next = false := by decide +kernel
/-- An update at this stage, after these restarts. -/
def upd (stage restarted : Nat) : FwUpd := ⟨List.replicate 512 0#8, 0, [], stage, restarted, 1, false, 4⟩
theorem witness_LifetimeAndFirmware_update : let s := { store id with fwu := some (upd 0 0) }
    s.fwu = some (upd 0 0) ∧ (upd 0 0).stage = 0 ∧ s.imageOk (upd 0 0).header (((upd 0 0).body.wrBytes 0 (List.replicate 64 1#8)).rdBytes 0 (leAt (upd 0 0).header 16 4)) = false ∧
      (store id).fwu = none ∧ (put s [(.SEC_SVN_MIN, 0, 3), (.SEC_SVN_RUN, 0, 4)]).f .SEC_SVN_MIN = 3 ∧ (List.replicate 4096 1#8).length % 4096 = 0 := by decide +kernel
theorem witness_LifetimeAndFirmware_restart : ([0, 1, 6, 7].all (fun i => (store id).mayRestart i)) = true ∧ (upd 2 7).stage = 2 ∧ (upd 1 0).stage = 1 ∧
    ({ store id with fwu := some (upd 2 7) } : State).fwu = some (upd 2 7) := by decide +kernel

/-- The chip runs: limits of 85, 95 and 110 degrees, 100 mW summed. -/
def powered (f : PwrUnit → PwrUnit) (l : List (Fld × Nat × Nat)) : State :=
  let s := put ck ([(.PWR_THERM_TRIP, 0, 95), (.PWR_THERM_RELEASE, 0, 85), (.PWR_THERM_CRIT, 0, 110), (.PWR_CLASS_ACT, 0, 2)] ++ l)
  { s with rst := { s.rst with held := false, boot := 8 }, pwr := f { s.pwr with trip := 95, release := 85, crit := 110, samples := 5, sum := 100 } }
theorem witness_PowerAndShutdown_thermal : let s := powered id [(.CLK_RGN_STATUS_HALVED, 3, 1)]
    ¬((95 : BitVec 8).toNat < s.pwr.trip ∨ s.f .CLK_RGN_STATUS_HALVED 2 = 1) ∧ (94 : BitVec 8).toNat < s.pwr.trip ∧ s.pwr.crit ≤ (110 : BitVec 8).toNat ∧
      (109 : BitVec 8).toNat < s.pwr.crit ∧ s.f .CLK_RGN_STATUS_HALVED 3 ≠ 0 ∧ s.clk.fchg = none ∧ 0 < s.f .PWR_CLASS_ACT ∧ s.load.loaded = false ∧
      s.admittedBell = some 116 ∧ ({ s with bel := BelUnit.reset } : State).admittedBell = none ∧ (powered id [(.PWR_CLASS_ACT, 0, 0)]).f .PWR_CLASS_ACT = 0 := by decide +kernel
theorem witness_PowerAndShutdown_measure : (powered id []).pwr.samples + 1 < 1000 ∧ 1000 ≤ (powered (fun p => { p with samples := 999, sum := 3000000 }) []).pwr.samples + 1 ∧
    1000 * (2200 + 400 * (powered id []).f .PWR_CLASS_ACT) < 3000000 + 1 ∧ ¬(1000 * (2200 + 400 * (powered id []).f .PWR_CLASS_ACT) < 3000000) ∧
    (powered id []).f .PWR_THERM_RELEASE < (powered id []).f .PWR_THERM_TRIP ∧ (powered id []).f .PWR_THERM_TRIP < (powered id []).f .PWR_THERM_CRIT ∧
    ¬((powered id [(.PWR_THERM_TRIP, 0, 85)]).f .PWR_THERM_RELEASE < 85) := by decide +kernel
theorem witness_PowerAndShutdown_class : let s := { powered id [(.PWR_CLASS_LOW, 0, 1)] with load := { LoadUnit.reset with loaded := true } }
    s.load.loaded = true ∧ (0 : BitVec 8).toNat < s.f .PWR_CLASS_LOW ∧ s.f .PWR_CLASS_LOW ≤ (1 : BitVec 8).toNat ∧ (2 : BitVec 8).toNat ≤ 2 ∧ 2 < (3 : BitVec 8).toNat := by decide +kernel
theorem witness_PowerAndShutdown_links : let s := powered (fun p => { p with down := some 5 }) [(.LNK_CTRL_EN, 5, 1), (.LNK_CTRL_EN, 9, 1), (.LNK_SEQ_TX_ACKED, 5, 9), (.LNK_SEQ_TX_NEXT, 5, 10)]
    s.jobRuns = false ∧ s.pwr.down = some 5 ∧ (s.f .LNK_SEQ_TX_ACKED 5 + 1) % 65536 = s.f .LNK_SEQ_TX_NEXT 5 ∧ s.f .LNK_CTRL_EN 5 = 1 ∧ s.f .LNK_CTRL_EN 9 = 1 ∧
      (∀ n, n < 64 → (powered id []).f .LNK_CTRL_EN n ≠ 1) ∧ ∀ m, m < 64 → 5 < m → m < 9 → s.f .LNK_CTRL_EN m ≠ 1 := by decide +kernel
theorem witness_Resets_chip : (powered id []).rst.held = false ∧ ({ ck with rst := { ck.rst with held := true } } : State).rst.held = true ∧ (powered id []).lif.running = none ∧
    (store (fun l => { l with running := some opJ })).lif.running = some opJ ∧ opJ.data = some [1#8, 2#8] ∧ (powered id [(.RST_CFG_PERST_MODE, 0, 1)]).f .RST_CFG_PERST_MODE = 1 ∧
    (powered id [(.RST_CFG_PERST_MODE, 0, 0)]).f .RST_CFG_PERST_MODE = 0 := by decide +kernel
theorem witness_Resets_cores : let s := powered id [(.RST_STATUS_CLUSTER, 0, 3)]
    s.f .PWR_CTRL_CG_RET = 1 ∧ (put s [(.PWR_CTRL_CG_RET, 0, 0)]).f .PWR_CTRL_CG_RET ≠ 1 ∧ s.rst.held = false ∧ (List.range 16).filter (fun k => (6#16).toNat.testBit k && !(s.f .RST_STATUS_CLUSTER).testBit k) = [2] ∧ (s.f .RST_STATUS_CLUSTER).testBit 1 = true ∧
      s.jobRuns = false ∧ s.clk.misaligned.testBit 1 = false ∧ ({ s with clk := { s.clk with misaligned := 2 } } : State).clk.misaligned.testBit 1 = true ∧ s.enabled 127 = true ∧ 127 ∉ s.rst.cores ∧ (s.f .RST_STATUS_CLUSTER).testBit 15 = false ∧ s.f .PWR_CLU_OFF 15 = 0 ∧
      (let u := powered id [(.PWR_CTRL_KO_IDLE, 0, 1)]; u.f .PWR_CTRL_KO_IDLE ≠ 0 ∧ u.f .PWR_CLU_OFF 3 ≠ 1 ∧ ∀ j, j < 8 → u.bound (8 * 3 + j) ≠ true) := by decide +kernel
/-- Core 1 has been in C while its job is loaded. -/
def inC : State := let s := put ck [(.CORE_BIND_BOUND, 1, 1), (.CORE_STATUS_STATE, 1, stIdle)]
  { s with rst := { RstUnit.reset with cores := [1] }, load := { LoadUnit.reset with loaded := true, job := some job } }
theorem witness_Resets_back : inC.rst.cores.head? = some 1 ∧ inC.load.loaded = true ∧ inC.bound 1 = true ∧ inC.cst 1 = stIdle ∧ inC.load.job = some job ∧
    (powered id []).rst.cores = [] := by decide +kernel
/-- Start-up has come to step b. -/
def boots (b : Nat) (f : RstUnit → RstUnit) (l : List (Fld × Nat × Nat)) : State :=
  let s := put (store id) l
  { s with rst := f { s.rst with boot := b, held := false }, sec := { s.sec with lidClosed := true } }
theorem witness_StartUp_boot : State.reset.rst.boot = 0 ∧ (boots 1 id []).rst.boot = 1 ∧ (boots 1 id []).rst.held = false ∧ (boots 1 id []).f .SEC_STATUS_SELFTEST_FAIL = 0 ∧
    (boots 1 id []).sec.lidClosed = true ∧ (boots 1 id []).slotOk 0 = false ∧ (boots 1 id []).slotOk 1 = false := by decide +kernel
theorem witness_StartUp_steps : (boots 2 id []).rst.boot = 2 ∧ (boots 2 id []).f .MBX_CTRL_BIND_LOCK = 0 ∧ (boots 3 (fun r => { r with failed := true }) []).rst.failed = true ∧
    (boots 3 id []).rst.failed = false ∧ (boots 4 id [(.RST_CAUSE_CAUSE, 0, 2)]).f .RST_CAUSE_CAUSE = 2 ∧ (boots 4 id [(.RST_CAUSE_CAUSE, 0, 1)]).f .RST_CAUSE_CAUSE ≤ 1 ∧
    (boots 5 id [(.CHIP_ADDR_LOCK, 0, 1), (.LNK_EXPECT_CHECK_EN, 3, 1)]).f .CHIP_ADDR_LOCK = 1 ∧ (boots 6 (fun r => { r with acq := 17, good := 64 }) []).rst.acq = 17 ∧
    (boots 6 id [(.BEL_CTRL_ROOT, 0, 1)]).f .BEL_CTRL_ROOT = 1 ∧ (boots 6 (fun r => { r with acq := 16 }) [(.BEL_CTRL_ROOT, 0, 0)]).f .BEL_CTRL_ROOT = 0 := by decide +kernel
theorem witness_StartUp_copy : let s := { boots 2 id [] with topo := { TopoUnit.reset with machine := some oneGroup } }
    s.topo.machine = some oneGroup ∧ oneGroup.group = s.f .CHIP_ADDR_GROUP ∧ s.copyWhole = true ∧ twoGroups.group ≠ s.f .CHIP_ADDR_GROUP := by decide +kernel
theorem witness_StartUp_ready : let s := { boxes [(.MBX_BIND_SMASK, 5, 0xFF), (.CTL_MASTER_CORE, 0, 0)] with rst := { RstUnit.reset with boot := 7, held := false } }
    s.rst.boot = 7 ∧ s.f .MBX_BIND_EN 5 = 1 ∧ s.f .MBX_BIND_RECV 5 = 0 ∧ s.mbxSender (0x10 + s.f .CTL_MASTER_CORE) 5 = true ∧ s.f .MBX_STAT_LOCKED 5 = 0 ∧
      ∀ d, d < 5 → s.f .MBX_BIND_EN d = 0 ∨ s.f .MBX_BIND_RECV d ≠ 0 := by decide +kernel

end Sys2Proof.Tests
end

section
/-!
SUPPORT for O41. The beat of a state: the bell number, the phase, and what decides which cores a pulse reaches. A pulse runs most of the device's units,
and none of them but the pulse itself sets a field of the beat: for each operation foo, `foo_beat` says that it leaves the beat alone. These lemmas are
`simp ↓`, so that `simp` peels the operations off a state from the outside and never enters their arguments; an equation that holds by
unfolding has the proof `(rfl)`, so that `simp` rewrites with it and the kernel has nothing to unfold.
-/
namespace Sys2Proof.Machine

/-- What a bell pulse sets and what decides which cores it reaches: the bell number, the phase, the fused cores, the clusters that are off, and the BELL
of every core. -/
structure Beat where
  now : Nat
  phase : Nat
  fuseLo : Nat
  fuseHi : Nat
  off : Nat → Nat
  bell : Nat → Nat

/-- The beat that a register file, a phase and the cores hold. -/
def beatOf (regs : Map Nat) (phase : Nat) (cores : Map Core) : Beat :=
  let f := fun (fl : Fld) (i : Nat) => Map.get (fl.resetAt i) regs (fl.key i) % 2 ^ fl.w
  { now := f .BEL_NOW_BELL 0, phase := phase, fuseLo := f .CHIP_FUSE_LO_EN 0, fuseHi := f .CHIP_FUSE_HI_EN 0, off := f .PWR_CLU_OFF
    bell := fun c => (Map.get Core.reset cores c).bell }

/-- The beat of a state. -/
def State.beat (s : State) : Beat := beatOf s.regs s.bel.phase s.cores

/-- The fields of the beat. -/
def beatFlds : List Fld := [.BEL_NOW_BELL, .CHIP_FUSE_LO_EN, .CHIP_FUSE_HI_EN, .PWR_CLU_OFF]

theorem beatFlds_code : ∀ g ∈ beatFlds, g.code < 1024 := by decide

/-- A field that is no part of the beat. -/
def Fld.offBeat (fl : Fld) : Bool := beatFlds.all (fun g => fl.code % 1024 != g.code)

@[simp ↓] theorem beatOf_self (s : State) : beatOf s.regs s.bel.phase s.cores = s.beat := (rfl)

@[simp ↓] theorem beat_mk (r h d fu c ev hb hs ck b l tp ct ho ln tr hl op w se li p rs lo fw fr pe) :
    (State.mk r h d fu c ev hb hs ck b l tp ct ho ln tr hl op w se li p rs lo fw fr pe).beat = beatOf r b.phase c := (rfl)

/-- An update of the bell unit that keeps the phase. -/
@[simp ↓ high] theorem beat_bel (s : State) (b : BelUnit) (h : b.phase = s.bel.phase) : ({ s with bel := b } : State).beat = s.beat :=
  congrArg (fun p => beatOf s.regs p s.cores) h

theorem Fld.offBeat_ne {fl : Fld} (h : fl.offBeat = true) (i j : Nat) : ∀ g ∈ beatFlds, g.key j ≠ fl.key i := by
  intro g hg
  have hc : fl.code % 1024 ≠ g.code := by simpa using List.all_eq_true.mp h g hg
  have hl := beatFlds_code g hg
  simp only [Fld.key]
  omega

/-- Register files that agree on the fields of the beat hold one beat. -/
theorem beatOf_congr {m m' : Map Nat} {p : Nat} {cs : Map Core}
    (h : ∀ g ∈ beatFlds, ∀ j, Map.get (g.resetAt j) m' (g.key j) = Map.get (g.resetAt j) m (g.key j)) : beatOf m' p cs = beatOf m p cs := by
  have k (g : Fld) (hg : g ∈ beatFlds := by simp [beatFlds]) (j : Nat) := h g hg j
  simp only [beatOf, k .BEL_NOW_BELL, k .CHIP_FUSE_LO_EN, k .CHIP_FUSE_HI_EN, k .PWR_CLU_OFF]

/-- A write of a field that is no part of the beat. -/
@[simp ↓] theorem beatOf_setF (s : State) (fl : Fld) (i v p : Nat) (cs : Map Core) (h : fl.offBeat = true) :
    beatOf (s.setF fl i v).regs p cs = beatOf s.regs p cs :=
  beatOf_congr fun g hg j => Map.get_set_other _ _ s.regs _ (fl.offBeat_ne h i j g hg)

@[simp ↓] theorem State.setF_beat (s : State) (fl : Fld) (i v : Nat) (h : fl.offBeat = true) : (s.setF fl i v).beat = s.beat :=
  beatOf_setF s fl i v _ _ h

@[simp ↓] theorem State.setStack_beat (s : State) (k : Nat) (x : Stack) : (s.setStack k x).beat = s.beat := (rfl)
@[simp ↓] theorem State.setLink_beat (s : State) (n : Nat) (x : LinkUnit) : (s.setLink n x).beat = s.beat := (rfl)
@[simp ↓] theorem State.modLink_beat (s : State) (n : Nat) (f : LinkUnit → LinkUnit) : (s.modLink n f).beat = s.beat := (rfl)

theorem State.setCore_beat (s : State) (n : Nat) (x : Core) (h : x.bell = (s.core n).bell) : (s.setCore n x).beat = s.beat := by
  have e : ∀ c, (Map.get Core.reset (s.setCore n x).cores c).bell = (Map.get Core.reset s.cores c).bell := by
    intro c
    by_cases hc : c = n
    · subst hc
      exact (congrArg Core.bell (s.core_setCore_same c x)).trans h
    · exact congrArg Core.bell (s.core_setCore_other x hc)
  simp only [State.beat, beatOf, State.setCore_regs, State.setCore_bel, e]

@[simp ↓] theorem State.modCore_beat (s : State) (n : Nat) (f : Core → Core) (h : ∀ k, (f k).bell = k.bell) : (s.modCore n f).beat = s.beat :=
  s.setCore_beat n _ (h _)

@[simp ↓] theorem beat_ite (c : Prop) [Decidable c] (s t : State) : (if c then s else t).beat = if c then s.beat else t.beat := apply_ite State.beat c s t

@[simp ↓] theorem foldl_beat {β : Type} (f : State → β → State) (h : ∀ s x, (f s x).beat = s.beat) (l : List β) (s : State) :
    (l.foldl f s).beat = s.beat := by
  induction l generalizing s with
  | nil => rfl
  | cons x l ih => exact (ih _).trans (h s x)

@[simp ↓] theorem upto_beat (f : Nat → State → State) (h : ∀ i s, (f i s).beat = s.beat) (n : Nat) (s : State) : (upto n f s).beat = s.beat :=
  foldl_beat _ (fun s i => h i s) _ s

end Sys2Proof.Machine
end

section
/-!
SUPPORT for O41. The shared operations keep the beat: cores, memories, counters, interrupts, the ledger, completions, notices and faults.
-/
namespace Sys2Proof.Machine

/-! ### Cores keep BELL -/

@[simp] theorem Core.put_bell (k : Core) (a : Nat) (bs : List Byte) : (k.put a bs).bell = k.bell := (rfl)
@[simp] theorem Core.setTag_bell (k : Core) (g : Nat) (p n : Bool) : (k.setTag g p n).bell = k.bell := (rfl)
@[simp] theorem Core.endWait_bell (k : Core) : k.endWait.bell = k.bell := (rfl)
@[simp] theorem Core.getsDone_bell (k : Core) (n f : Nat) : (k.getsDone n f).bell = k.bell := (rfl)
@[simp] theorem Core.setPort_bell (k : Core) (i : Nat) (o : Option PortOp) : (k.setPort i o).bell = k.bell := (rfl)
@[simp] theorem Core.newGen_bell (k : Core) (i : Nat) : (k.newGen i).bell = k.bell := (rfl)

/-- Passes that each keep BELL keep it together. -/
@[simp] theorem Core.upto_bell (f : Nat → Core → Core) (h : ∀ i k, (f i k).bell = k.bell) (n : Nat) (k : Core) : (upto n f k).bell = k.bell :=
  upto_inv (fun l => l.bell = k.bell) n f k rfl (fun i l _ hl => (h i l).trans hl)

@[simp] theorem Core.clearTags_bell (k : Core) (g n : Nat) : (k.clearTags g n).bell = k.bell := by simp [Core.clearTags]

@[simp] theorem Core.wrStore_bell (k : Core) (a : Nat) (bs : List Byte) : (k.wrStore a bs).bell = k.bell := by
  unfold Core.wrStore
  split <;> simp

/-! ### Fields, counters, interrupts -/

@[simp ↓] theorem State.bump_beat (s : State) (fl : Fld) (i k : Nat) (h : fl.offBeat = true) : (s.bump fl i k).beat = s.beat := s.setF_beat fl i _ h

@[simp ↓] theorem State.setFb_beat (s : State) (fl : Fld) (i b : Nat) (v : Bool) (h : fl.offBeat = true) : (s.setFb fl i b v).beat = s.beat :=
  s.setF_beat fl i _ h

@[simp ↓] theorem State.setFs_beat (s : State) (l : List (Fld × Nat)) (h : ∀ p ∈ l, p.1.offBeat = true) : (s.setFs l).beat = s.beat := by
  induction l generalizing s with
  | nil => rfl
  | cons p l ih =>
    exact (ih _ fun q hq => h q (List.mem_cons_of_mem _ hq)).trans (s.setF_beat p.1 0 p.2 (h p List.mem_cons_self))

@[simp ↓] theorem State.setLegal_beat (s : State) (fl : Fld) (i v : Nat) (h : fl.offBeat = true) : (s.setLegal fl i v).beat = s.beat := by
  simp [State.setLegal, h]

@[simp ↓] theorem State.irq_beat (s : State) (i : Nat) (src : IrqSrc) : (s.irq i src).beat = s.beat := by simp [State.irq]

@[simp ↓] theorem State.irqMaster_beat (s : State) (src : IrqSrc) : (s.irqMaster src).beat = s.beat := by simp [State.irqMaster]

@[simp ↓] theorem State.irqMasterIf_beat (s : State) (en : Bool) (src : IrqSrc) : (s.irqMasterIf en src).beat = s.beat := by simp [State.irqMasterIf]

/-! ### Memories -/

@[simp ↓] theorem State.cleanWords_beat (s : State) (a n k : Nat) : (s.cleanWords a n k).beat = s.beat := by simp [State.cleanWords]

@[simp ↓] theorem State.hbmWrite_beat (s : State) (a : Nat) (bs : List Byte) : (s.hbmWrite a bs).beat = s.beat := by simp [State.hbmWrite]

@[simp ↓] theorem State.wrByte_beat (s : State) (a : Nat) (b : Byte) : (s.wrByte a b).beat = s.beat := by
  unfold State.wrByte
  split <;> simp

@[simp ↓] theorem State.wrEach_beat (s : State) (a : Nat) (bs : List Byte) : (s.wrEach a bs).beat = s.beat := by
  induction bs generalizing s a with
  | nil => rfl
  | cons b bs ih => exact (ih _ _).trans (s.wrByte_beat a b)

@[simp ↓] theorem State.wrBytes_beat (s : State) (a : Nat) (bs : List Byte) : (s.wrBytes a bs).beat = s.beat := by simp [State.wrBytes]

@[simp ↓] theorem State.wrFar_beat (s : State) (host : Bool) (a : Nat) (bs : List Byte) : (s.wrFar host a bs).beat = s.beat := by simp [State.wrFar]

/-! ### Core events -/

@[simp ↓] theorem State.pmc_beat (s : State) (n e k : Nat) : (s.pmc n e k).beat = s.beat := by simp +decide [State.pmc]

@[simp ↓] theorem State.deliver_beat (s : State) (n e k : Nat) : (s.deliver n e k).beat = s.beat := by simp +decide [State.deliver]

@[simp ↓] theorem State.deliver?_beat (s : State) (n : Nat) (e : Option Nat) : (s.deliver? n e).beat = s.beat := by
  cases e with
  | none => rfl
  | some e => exact s.deliver_beat n e 1

/-! ### The ledger -/

@[simp ↓] theorem State.ldgNear_beat (s : State) : s.ldgNear.beat = s.beat := by simp +decide [State.ldgNear]

@[simp ↓] theorem State.ldgPayload_beat (s : State) (bs : List Byte) : (s.ldgPayload bs).1.beat = s.beat := by
  simp +decide [State.ldgPayload, apply_ite Prod.fst]

@[simp ↓] theorem State.ldgPut_beat (s : State) (e : LdgEntry) (wall : Nat × Nat) (payload : List Byte) : (s.ldgPut e wall payload).beat = s.beat := by
  simp +decide [State.ldgPut, apply_ite Prod.fst]

@[simp ↓] theorem State.ldgAppendAt_beat (s : State) (e : LdgEntry) (wall : Nat × Nat) (payload : List Byte) : (s.ldgAppendAt e wall payload).beat = s.beat := by
  unfold State.ldgAppendAt
  split_ifs
  · rfl
  · split <;> simp

/-- A cycle's entries leave the beat that its work leaves. -/
theorem State.ldgTogether_beat_of (s : State) (f : State → State) : ∃ l, (s.ldgTogether f).beat = (f { s with ldg := l }).beat := by
  unfold State.ldgTogether
  split
  · exact ⟨s.ldg, rfl⟩
  · exact ⟨{ s.ldg with cycle := some [] }, by simp⟩

@[simp ↓] theorem State.ldgTogether_beat (s : State) (f : State → State) (h : ∀ t, (f t).beat = t.beat) : (s.ldgTogether f).beat = s.beat := by
  obtain ⟨l, e⟩ := s.ldgTogether_beat_of f
  exact e.trans (h _)

@[simp ↓] theorem State.ldgAppend_beat (s : State) (e : LdgEntry) (payload : List Byte) : (s.ldgAppend e payload).beat = s.beat := by simp [State.ldgAppend]

@[simp ↓] theorem State.ldgFault_beat (s : State) (src cause what : Nat) : (s.ldgFault src cause what).beat = s.beat := by simp [State.ldgFault]

@[simp ↓] theorem State.rplRewind_beat (s : State) : s.rplRewind.beat = s.beat := by simp +decide [State.rplRewind]

@[simp ↓] theorem State.rplEnd_beat (s : State) (flag : Fld) (h : flag.offBeat = true) : (s.rplEnd flag).beat = s.beat := by simp +decide [State.rplEnd, h]

@[simp ↓] theorem State.rplSettle_beat (s : State) : s.rplSettle.beat = s.beat := by simp +decide [State.rplSettle]

@[simp ↓] theorem State.rplAdvance_beat (s : State) (i : Nat) : (s.rplAdvance i).beat = s.beat := by simp +decide [State.rplAdvance]

@[simp ↓] theorem State.mismatch_beat (s : State) (reason kind seq : Nat) : (s.mismatch reason kind seq).beat = s.beat := by simp +decide [State.mismatch]

@[simp ↓] theorem State.ldgCompare_beat (s : State) (e : LdgEntry) : (s.ldgCompare e).beat = s.beat := by simp +decide [State.ldgCompare]

@[simp ↓] theorem State.ldgInput_beat (s : State) (e : LdgEntry) (payload : List Byte) : (s.ldgInput e payload).beat = s.beat := by simp [State.ldgInput]

@[simp ↓] theorem State.armedHere_beat (s : State) (key : Nat) : (s.armedHere key).beat = s.beat := by simp [State.armedHere, State.armedBy]

@[simp ↓] theorem State.commitEntry_beat (s : State) (key plan : Nat) : (s.commitEntry key plan).beat = s.beat := by simp [State.commitEntry]

/-! ### Completions -/

@[simp ↓] theorem State.msix_beat (s : State) (v : Nat) : (s.msix v).beat = s.beat := by simp +decide [State.msix]

@[simp ↓] theorem State.cplWrite_beat (s : State) (c : Completion) : (s.cplWrite c).beat = s.beat := by simp +decide [State.cplWrite]

@[simp ↓] theorem State.cplDeliver_beat (s : State) (c : Completion) : (s.cplDeliver c).beat = s.beat := by simp +decide [State.cplDeliver]

@[simp ↓] theorem State.complete_beat (s : State) (code status detail : Nat) : (s.complete code status detail).beat = s.beat := by
  unfold State.complete
  split <;> simp

@[simp ↓] theorem State.ok_beat (s : State) (code : Nat) : (s.ok code).beat = s.beat := s.complete_beat code cOk 0

@[simp ↓] theorem State.refuse_beat (s : State) (code reason sub : Nat) : (s.refuse code reason sub).beat = s.beat := s.complete_beat code cRefused _

@[simp ↓] theorem State.markStarted_beat (s : State) (code : Nat) (b : Bool) : (s.markStarted code b).beat = s.beat := by
  unfold State.markStarted
  split <;> simp

/-! ### Notices, steps, faults -/

@[simp ↓] theorem State.raiseNotice_beat (s : State) (cls suspect detail : Nat) : (s.raiseNotice cls suspect detail).beat = s.beat := by simp [State.raiseNotice]

@[simp ↓] theorem State.stepTo_beat (s : State) (k : Nat) : (s.stepTo k).beat = s.beat := by simp +decide [State.stepTo]

@[simp ↓] theorem State.stepCheck_beat (s : State) : s.stepCheck.beat = s.beat := by
  unfold State.stepCheck
  split <;> simp

@[simp ↓] theorem State.recordFault_beat (s : State) (n code slot detail addr st : Nat) : (s.recordFault n code slot detail addr st).beat = s.beat := by
  simp +decide [State.recordFault]

@[simp ↓] theorem State.lifEvent_beat (s : State) (kind detail : Nat) : (s.lifEvent kind detail).beat = s.beat := by simp +decide [State.lifEvent]

@[simp ↓] theorem State.stopStep_beat (s : State) (cause core : Nat) : (s.stopStep cause core).beat = s.beat := by simp +decide [State.stopStep]

@[simp ↓] theorem State.coreFault_beat (s : State) (n code slot detail addr : Nat) : (s.coreFault n code slot detail addr).beat = s.beat := by
  simp [State.coreFault]

@[simp ↓] theorem State.coreDone_beat (s : State) (n : Nat) : (s.coreDone n).beat = s.beat := by simp +decide [State.coreDone]

/-! ### Reads of HBM and of the core store -/

@[simp ↓] theorem State.hbmUe_beat (s : State) (a : Nat) : (s.hbmUe a).beat = s.beat := by simp +decide [State.hbmUe]

@[simp ↓] theorem State.eccWord_beat (s : State) (a : Nat) : (s.eccWord a).beat = s.beat := by simp +decide [State.eccWord]

@[simp ↓] theorem State.eccScan_beat (s : State) (a n : Nat) : (s.eccScan a n).beat = s.beat := by simp [State.eccScan]

@[simp ↓] theorem State.hbmRead_beat (s : State) (a n : Nat) : (s.hbmRead a n).2.beat = s.beat := s.eccScan_beat a n

@[simp ↓] theorem State.hbmWait_beat (s : State) (o : SlotOwner) (a n : Nat) (act : HbmAct) : (s.hbmWait o a n act).beat = s.beat := by simp [State.hbmWait]

@[simp ↓] theorem State.storeRead_beat (s : State) (c a n : Nat) : (s.storeRead c a n).beat = s.beat := by simp +decide [State.storeRead]

@[simp ↓] theorem State.fillRead_beat (s : State) (c a n : Nat) : (s.fillRead c a n).2.beat = s.beat := by
  unfold State.fillRead
  dsimp only
  split <;> simp

end Sys2Proof.Machine
end

section
/-!
SUPPORT for O41. Cores, weights, flows, the porter and the streamer keep the beat.
-/
namespace Sys2Proof.Machine

/-! ### Registers of a core, and the packets it issues -/

@[simp ↓] theorem State.setSr_beat (s : State) (c : Nat) (r : BitVec 5) (v : Nat) : (s.setSr c r v).beat = s.beat := by simp +decide [State.setSr]

@[simp ↓] theorem State.setVr_beat (s : State) (c : Nat) (r : BitVec 5) (v : VReg) : (s.setVr c r v).beat = s.beat := by simp +decide [State.setVr]

@[simp ↓] theorem State.setPr_beat (s : State) (c : Nat) (p : BitVec 3) (v : PReg) : (s.setPr c p v).beat = s.beat := by simp +decide [State.setPr]

@[simp ↓] theorem State.setVFlags_beat (s : State) (c : Nat) (g : VFlags) : (s.setVFlags c g).beat = s.beat := by simp +decide [State.setVFlags]

@[simp ↓] theorem State.setMxFlags_beat (s : State) (c : Nat) (isat ninv : Bool) : (s.setMxFlags c isat ninv).beat = s.beat := by
  simp +decide [State.setMxFlags]

@[simp ↓] theorem State.pmcIf_beat (s : State) (n e k : Nat) : (s.pmcIf n e k).beat = s.beat := by simp +decide [State.pmcIf]

@[simp ↓] theorem State.foldGranule_beat (s : State) (t kind key : Nat) (bs : List Byte) : (s.foldGranule t kind key bs).beat = s.beat := by
  simp +decide [State.foldGranule]

@[simp ↓] theorem State.tallyTo_beat (s : State) (c limit : Nat) : (s.tallyTo c limit).beat = s.beat := by simp +decide [State.tallyTo]

@[simp ↓] theorem State.spend_beat (s : State) (n k : Nat) (back : Bool) : (s.spend n k back).beat = s.beat := by simp +decide [State.spend]

@[simp ↓] theorem State.advance_beat (s : State) (n : Nat) (ctl : Ctl) : (s.advance n ctl).beat = s.beat := by simp +decide [State.advance]

@[simp ↓] theorem State.schedule_beat (s : State) (n : Nat) (slots : List Slot) : (s.schedule n slots).beat = s.beat := by simp +decide [State.schedule]

@[simp ↓] theorem State.countPacket_beat (s : State) (n : Nat) (slots : List Slot) : (s.countPacket n slots).beat = s.beat := by
  simp +decide [State.countPacket]

@[simp ↓] theorem State.talNear_beat (s : State) : s.talNear.beat = s.beat := by simp +decide [State.talNear]

@[simp ↓] theorem State.emit_beat (s : State) (c t : Nat) : (s.emit c t).beat = s.beat := by simp +decide [State.emit]

/-! ### Weight banks and pieces -/

@[simp ↓] theorem State.setShard_beat (s : State) (r bank idx : Nat) (x : ShardSt) : (s.setShard r bank idx x).beat = s.beat := by
  simp +decide [State.setShard]

@[simp ↓] theorem State.absentBank_beat (s : State) (r bank : Nat) : (s.absentBank r bank).beat = s.beat := by simp +decide [State.absentBank]

@[simp ↓] theorem State.setBank_beat (s : State) (r b st : Nat) : (s.setBank r b st).beat = s.beat := by simp +decide [State.setBank]

@[simp ↓] theorem State.recordBad_beat (s : State) (r b idx src : Nat) : (s.recordBad r b idx src).beat = s.beat := by simp +decide [State.recordBad]

@[simp ↓] theorem State.badShard_beat (s : State) (r b idx : Nat) : (s.badShard r b idx).beat = s.beat := by simp +decide [State.badShard]

@[simp ↓] theorem State.loadedShard_beat (s : State) (r b idx : Nat) (e : ShardEnt) : (s.loadedShard r b idx e).beat = s.beat := by
  simp +decide [State.loadedShard]

@[simp ↓] theorem State.pieceGranule_beat (s : State) (p : PieceIn) (g : Nat) (bs : List Byte) : (s.pieceGranule p g bs).beat = s.beat := by
  simp +decide [State.pieceGranule]

@[simp ↓] theorem State.pieceStart_beat (s : State) (hdr : List Byte) (vlen : Nat) : (s.pieceStart hdr vlen).1.beat = s.beat := by
  simp +decide [State.pieceStart, apply_ite Prod.fst]

@[simp ↓] theorem State.pieceLand_beat (s : State) (k g vlen : Nat) (bs : List Byte) : (s.pieceLand k g vlen bs).beat = s.beat := by
  unfold State.pieceLand
  dsimp only
  split_ifs
  · simp
  · split <;> simp

/-! ### Flows and permits -/

@[simp ↓] theorem State.setTflow_beat (s : State) (n f : Nat) (x : TFlow) : (s.setTflow n f x).beat = s.beat := by simp +decide [State.setTflow]

@[simp ↓] theorem State.setRflow_beat (s : State) (n f : Nat) (x : RFlow) : (s.setRflow n f x).beat = s.beat := by simp +decide [State.setRflow]

@[simp ↓] theorem State.loadTx_beat (s : State) (n base f : Nat) : (s.loadTx n base f).beat = s.beat := by simp +decide [State.loadTx]

@[simp ↓] theorem State.gainPermit_beat (s : State) (link flow k : Nat) : (s.gainPermit link flow k).beat = s.beat := by simp +decide [State.gainPermit]

@[simp ↓] theorem State.sendPermit_beat (s : State) (on : Option Nat) (p : Permit) : (s.sendPermit on p).beat = s.beat := by
  unfold State.sendPermit
  split_ifs
  · simp
  · dsimp only
    split <;> simp +decide

@[simp ↓] theorem State.vectorGranule_beat (s : State) (n f v : Nat) (d : Desc) : (s.vectorGranule n f v d).beat = s.beat := by
  unfold State.vectorGranule
  cases s.physical (dCore d) with
  | none => simp
  | some c => simp

/-! ### Granules that land, and the frames held for them -/

@[simp ↓] theorem State.landStore_beat (s : State) (c a op : Nat) (bs : List Byte) (nil : Bool) : (s.landStore c a op bs nil).beat = s.beat := by
  refine s.modCore_beat _ _ fun k => ?_
  dsimp only
  split_ifs <;> simp

@[simp ↓] theorem State.landHbm_beat (s : State) (a op : Nat) (bs : List Byte) (nil : Bool) : (s.landHbm a op bs nil).beat = s.beat := by
  simp +decide [State.landHbm]

@[simp ↓] theorem State.putTransit_beat (s : State) (k : Nat) (bs : List Byte) (nil : Bool) (fanout : Nat) : (s.putTransit k bs nil fanout).beat = s.beat := by
  simp +decide [State.putTransit]

@[simp ↓] theorem State.landFold_beat (s : State) (d : Desc) (f g : Nat) (bs : List Byte) : (s.landFold d f g bs).beat = s.beat := by
  simp +decide [State.landFold]

@[simp ↓] theorem State.landLocal_beat (s : State) (h : Held) : (s.landLocal h).beat = s.beat := by
  refine (State.vectorGranule_beat ..).trans ?_
  split_ifs
  · rfl
  · cases s.physical (dCore h.desc) with
    | none => rfl
    | some c => exact s.landStore_beat ..
  · exact s.landHbm_beat ..
  · exact s.pieceLand_beat ..

@[simp ↓] theorem State.landGranule_beat (s : State) (h : Held) : (s.landGranule h).beat = s.beat := by simp [State.landGranule]

@[simp ↓] theorem State.heldStep_beat (s : State) : s.heldStep.beat = s.beat := by
  unfold State.heldStep
  split
  · rfl
  · simp

@[simp ↓] theorem State.heldWrite_beat (s : State) : s.heldWrite.beat = s.beat := by simp +decide [State.heldWrite]

@[simp ↓] theorem State.heldDrop_beat (s : State) (p : Held → Bool) : (s.heldDrop p).beat = s.beat := by simp +decide [State.heldDrop]

@[simp ↓] theorem State.clearTags_beat (s : State) (c g n : Nat) : (s.clearTags c g n).beat = s.beat := by simp +decide [State.clearTags]

@[simp ↓] theorem State.release_beat (s : State) (c n f : Nat) : (s.release c n f).beat = s.beat := by simp +decide [State.release]

/-! ### Frames of the open fabric -/

@[simp ↓] theorem State.returnCredit_beat (s : State) (p : OpenPkt) : (s.returnCredit p).beat = s.beat := by
  unfold State.returnCredit
  split <;> simp

@[simp ↓] theorem State.enqueue_beat (s : State) (n : Nat) (p : OpenPkt) : (s.enqueue n p).beat = s.beat := by simp +decide [State.enqueue]

theorem State.place_beat (s : State) (on : Option Nat) (p : OpenPkt) {t : State} (h : s.place on p = some t) : t.beat = s.beat := by
  unfold State.place at h
  split at h
  · obtain rfl := Option.some.inj h
    simp
  · split at h
    · contradiction
    · obtain rfl := Option.some.inj h
      simp +decide

@[simp ↓] theorem State.sendPkt_beat (s : State) (on : Option Nat) (p : OpenPkt) : (s.sendPkt on p).beat = s.beat := by
  unfold State.sendPkt
  split
  next t ht => exact s.place_beat on p ht
  · dsimp only
    split_ifs
    · simp +decide
    · split
      next u hu => simp +decide [State.place_beat _ _ _ hu]
      · simp +decide

/-! ### The porter and the streamer -/

@[simp ↓] theorem State.tagWhole_beat (s : State) (a n : Nat) : (s.tagWhole a n).beat = s.beat := by simp +decide [State.tagWhole]

@[simp ↓] theorem State.opFree_beat (s : State) (c i : Nat) (o : PortOp) : (s.opFree c i o).beat = s.beat := by simp +decide [State.opFree]

@[simp ↓] theorem State.portErr_beat (s : State) (c op status tag addr : Nat) : (s.portErr c op status tag addr).beat = s.beat := by
  simp +decide [State.portErr]

@[simp ↓] theorem State.opDone_beat (s : State) (c i : Nat) (o : PortOp) (status : Nat) : (s.opDone c i o status).beat = s.beat := by
  simp +decide [State.opDone]

@[simp ↓] theorem State.opData_beat (s : State) (c : Nat) (o : PortOp) : (s.opData c o).2.beat = s.beat := by
  unfold State.opData
  split <;> simp

@[simp ↓] theorem State.opSend_beat (s : State) (c i : Nat) (o : PortOp) : (s.opSend c i o).beat = s.beat := by simp [State.opSend]

@[simp ↓] theorem foldl_fst_beat {α β : Type} (f : State × α → β → State × α) (h : ∀ a x, (f a x).1.beat = a.1.beat) (l : List β)
    (a : State × α) : (l.foldl f a).1.beat = a.1.beat := by
  induction l generalizing a with
  | nil => rfl
  | cons x l ih => exact (ih _).trans (h a x)

@[simp ↓] theorem State.sendOps_beat (s : State) (c : Nat) : (s.sendOps c).beat = s.beat := by
  refine foldl_fst_beat _ (fun a x => ?_) _ _
  dsimp only
  split_ifs <;> simp

@[simp ↓] theorem State.modStream_beat (s : State) (c j : Nat) (f : Machine.Stream → Machine.Stream) : (s.modStream c j f).beat = s.beat := by
  simp +decide [State.modStream]

@[simp ↓] theorem State.streamWrite_beat (s : State) (c : Nat) (x : Machine.Stream) (i : Nat) (bs : List Byte) : (s.streamWrite c x i bs).beat = s.beat := by
  simp +decide [State.streamWrite]

@[simp ↓] theorem State.streamCount_beat (s : State) (c n : Nat) : (s.streamCount c n).beat = s.beat := by simp +decide [State.streamCount]

@[simp ↓] theorem State.pieceSend_beat (s : State) (c n : Nat) (x : Machine.Stream) (j len : Nat) : (s.pieceSend c n x j len).beat = s.beat := by
  simp [State.pieceSend, apply_ite Prod.snd]

@[simp ↓] theorem State.sendPiece_beat (s : State) (c j : Nat) : (s.sendPiece c j).beat = s.beat := by
  unfold State.sendPiece
  split
  · rfl
  · split
    · dsimp only
      split_ifs <;> simp
    · rfl

@[simp ↓] theorem State.sendPieces_beat (s : State) (c : Nat) : (s.sendPieces c).beat = s.beat := by simp +decide [State.sendPieces]

end Sys2Proof.Machine
end

section
/-!
SUPPORT for O41. Links, commits, swaps, agreements, the job's set-up and the clocks keep the beat; the time clock moves the phase alone.
-/
namespace Sys2Proof.Machine

/-! ### Routes, link states and flushed frames -/

@[simp ↓] theorem State.pieceAnswer_beat (s : State) (c : Nat) (x : Machine.Stream) (j : Nat) (p : Piece) (status : Nat) (data : List Byte) :
    (s.pieceAnswer c x j p status data).beat = s.beat := by
  simp +decide [State.pieceAnswer]

@[simp ↓] theorem State.writeRoutes_beat (s : State) (base : Nat) (es : List (Nat × Byte)) : (s.writeRoutes base es).beat = s.beat := by
  simp +decide [State.writeRoutes]

/-- The registers of a route commit are no part of the beat. (Stated for any values, so that no check of it unfolds a bell's number.) -/
theorem State.setOpnCommit_beat (s : State) (b st a : Nat) (c : Option Nat) :
    let t := ((s.setF .OPN_COMMIT_BELL 0 b).setF .OPN_COMMIT_STATUS 0 st).setF .OPN_COMMIT_ARM 0 a
    ({ t with opn := { t.opn with commit := c, base := none, moving := [] } } : State).beat = s.beat := by
  simp +decide

@[simp ↓] theorem State.armOpn_beat (s : State) (bell : Nat) : (s.armOpn bell).beat = s.beat :=
  (State.armedHere_beat _ _).trans (s.setOpnCommit_beat _ _ _ _)

@[simp ↓] theorem State.routeReplace_beat (s : State) (gone : List Nat) : (s.routeReplace gone).beat = s.beat := by
  unfold State.routeReplace
  split_ifs
  · simp
  · split
    · rfl
    · dsimp only
      split_ifs <;> simp +decide

@[simp ↓] theorem State.rerouteDue_beat (s : State) : s.rerouteDue.beat = s.beat := by simp +decide [State.rerouteDue]

@[simp ↓] theorem State.commitCfg_beat (s : State) (n : Nat) : (s.commitCfg n).beat = s.beat := by simp +decide [State.commitCfg]

@[simp ↓] theorem State.commitRbuf_beat (s : State) (n : Nat) : (s.commitRbuf n).beat = s.beat := by simp +decide [State.commitRbuf]

@[simp ↓] theorem State.setLanes_beat (s : State) (n sig lock : Nat) : (s.setLanes n sig lock).beat = s.beat := by simp +decide [State.setLanes]

@[simp ↓] theorem State.setLk_beat (s : State) (n st : Nat) : (s.setLk n st).beat = s.beat := by simp +decide [State.setLk]

@[simp ↓] theorem State.unfresh_beat (s : State) (n : Nat) : (s.unfresh n).beat = s.beat := by simp +decide [State.unfresh]

@[simp ↓] theorem State.leaveUp_beat (s : State) (n : Nat) : (s.leaveUp n).beat = s.beat := by simp +decide [State.leaveUp]

@[simp ↓] theorem State.toDetect_beat (s : State) (n : Nat) : (s.toDetect n).beat = s.beat := by simp +decide [State.toDetect]

@[simp ↓] theorem State.dropKeys_beat (s : State) (n : Nat) : (s.dropKeys n).beat = s.beat := by simp +decide [State.dropKeys]

@[simp ↓] theorem State.flushLocal_beat (s : State) (c : Nat) (p : OpenPkt) : (s.flushLocal c p).beat = s.beat := by
  unfold State.flushLocal
  dsimp only
  split_ifs
  · rfl
  · cases (s.core c).port (p.tag % 256) with
    | none => rfl
    | some o => simp
  · split
    · split <;> simp
    · rfl

@[simp ↓] theorem State.flushPkt_beat (s : State) (p : OpenPkt) : (s.flushPkt p).beat = s.beat := by
  unfold State.flushPkt
  split
  · simp
  · split_ifs <;> simp

@[simp ↓] theorem State.setModule_beat (s : State) (n v : Nat) : (s.setModule n v).beat = s.beat := by simp +decide [State.setModule]

@[simp ↓] theorem State.linkEnable_beat (s : State) (n : Nat) : (s.linkEnable n).beat = s.beat := by simp +decide [State.linkEnable]

@[simp ↓] theorem State.linkDisable_beat (s : State) (n : Nat) : (s.linkDisable n).beat = s.beat := by simp +decide [State.linkDisable]

@[simp ↓] theorem State.loadTxFlows_beat (s : State) (n base : Nat) (p : List Run) : (s.loadTxFlows n base p).beat = s.beat := by
  simp +decide [State.loadTxFlows]

/-! ### Commits of flows and routes -/

@[simp ↓] theorem State.armStl_beat (s : State) (n bell : Nat) : (s.armStl n bell).beat = s.beat := by simp +decide [State.armStl]

@[simp ↓] theorem State.decideStl_beat (s : State) (n : Nat) : (s.decideStl n).beat = s.beat := by
  unfold State.decideStl
  split
  · rfl
  · dsimp only
    split_ifs <;> simp +decide

@[simp ↓] theorem State.applyStl_beat (s : State) (n : Nat) : (s.applyStl n).beat = s.beat := by
  unfold State.applyStl
  split
  · rfl
  · dsimp only
    split_ifs
    · rfl
    · split <;> simp +decide

@[simp ↓] theorem State.decideOpn_beat (s : State) : s.decideOpn.beat = s.beat := by
  unfold State.decideOpn
  split
  · rfl
  · dsimp only
    split_ifs <;> simp +decide

@[simp ↓] theorem State.flushMoved_beat (s : State) (n : Nat) : (s.flushMoved n).beat = s.beat := by simp +decide [State.flushMoved]

@[simp ↓] theorem State.applyOpn_beat (s : State) : s.applyOpn.beat = s.beat := by
  unfold State.applyOpn
  split
  · rfl
  · dsimp only
    split_ifs <;> simp +decide

@[simp ↓] theorem State.watchLink_beat (s : State) (n : Nat) : (s.watchLink n).beat = s.beat := by simp +decide [State.watchLink]

/-! ### The clocks and the bell unit -/

@[simp ↓] theorem State.alignStart_beat (s : State) (mask : Nat) : (s.alignStart mask).beat = s.beat := by simp +decide [State.alignStart]

@[simp ↓] theorem State.fchgStop_beat (s : State) : s.fchgStop.beat = s.beat := by
  unfold State.fchgStop
  split
  · rfl
  · dsimp only
    split_ifs <;> simp +decide

/-- The registers of a bell commit are no part of the beat. -/
theorem State.setCommit_beat (s : State) (b a st : Nat) (c : Option Nat) (d : Option BellSet) :
    let t := ((s.setF .BEL_COMMIT_BELL 0 b).setF .BEL_COMMIT_ARM 0 a).setF .BEL_COMMIT_STATUS 0 st
    ({ t with bel := { t.bel with commit := c, decided := d } } : State).beat = s.beat := by
  simp +decide

@[simp ↓] theorem State.armBel_beat (s : State) (bell : Nat) : (s.armBel bell).beat = s.beat :=
  (State.armedHere_beat _ _).trans (s.setCommit_beat _ _ _ _ _)

@[simp ↓] theorem State.setInc_beat (s : State) (fl : Fld) (v : Nat) (h : fl.offBeat = true) : (s.setInc fl v).beat = s.beat := by
  simp +decide [State.setInc, h]

@[simp ↓] theorem State.setParent_beat (s : State) (parent alt en : Nat) : (s.setParent parent alt en).beat = s.beat := by simp +decide [State.setParent]

@[simp ↓] theorem State.setPhase_beat (s : State) (p : Nat) : (s.setPhase p).beat = { s.beat with phase := p } :=
  congrArg (fun b : Beat => { b with phase := p })
    (by simp +decide : ((s.setF .BEL_PHASE_NS 0 (p / 2 ^ 32)).setF .BEL_PHASE_FRAC 0 (p / 2 ^ 16)).beat = s.beat)

@[simp ↓] theorem State.fireTrig_beat (s : State) (t : Nat) : (s.fireTrig t).beat = s.beat := by simp +decide [State.fireTrig]

@[simp ↓] theorem State.fireDue_beat (s : State) : s.fireDue.beat = s.beat := by
  refine upto_beat _ (fun t u => ?_) 8 s
  split
  · split_ifs <;> simp
  · rfl

/-! ### Weight swaps -/

@[simp ↓] theorem State.crierBell_beat (s : State) : s.crierBell.beat = s.beat := by
  refine foldl_beat _ (fun u j => ?_) _ s
  split <;> simp +decide

@[simp ↓] theorem getD_map_beat {α : Type} (o : Option α) (f : α → State) (s : State) (h : ∀ x, (f x).beat = s.beat) :
    ((o.map f).getD s).beat = s.beat := by cases o <;> simp [h]

/-- The writes of an armed swap, whatever the bell and the status. -/
theorem State.setSwap_beat (s : State) (b st : Nat) (rs : List Nat) (f : State → Nat → State) (hf : ∀ u r, (f u r).beat = u.beat) (w : Option Nat) :
    let t := ((s.setF .WGT_SWAP_BELL 0 b).setF .WGT_SWAP_STATUS 0 st).setF .WGT_SWAP_ARM 0 (b2n (st == 1))
    (if st ≠ 1 then ({ t with wgt := { t.wgt with swap := none } } : State).armedHere 66
    else
      let u := rs.foldl f t
      ({ u with wgt := { u.wgt with swap := w, swapBad := false } } : State).armedHere 66).beat = s.beat := by
  simp +decide [hf]

@[simp ↓] theorem State.armSwap_beat (s : State) (bell : Nat) : (s.armSwap bell).beat = s.beat :=
  s.setSwap_beat _ _ _ _ (fun u r => by simp) _

@[simp ↓] theorem State.bankWord_beat (s : State) (n r : Nat) : (s.bankWord n r).beat = s.beat := by simp +decide [State.bankWord]

@[simp ↓] theorem State.swapRegion_beat (s : State) (r b : Nat) : (s.swapRegion r b).beat = s.beat := by simp +decide [State.swapRegion]

@[simp ↓] theorem State.drainRegion_beat (s : State) (r : Nat) : (s.drainRegion r).beat = s.beat := by
  unfold State.drainRegion
  split
  · rfl
  · dsimp only
    split_ifs <;> simp +decide

@[simp ↓] theorem State.swapBell_beat (s : State) (plan : Nat) : (s.swapBell plan).beat = s.beat := by
  unfold State.swapBell
  split
  · rfl
  · dsimp only
    split_ifs <;> simp +decide

/-! ### Agreements -/

@[simp ↓] theorem State.ctlSend_beat (s : State) (dst op : Nat) (data : List Byte) : (s.ctlSend dst op data).beat = s.beat := by
  simp +decide [State.ctlSend]

@[simp ↓] theorem State.putAgree_beat (s : State) (p : Nat) (a : Option Agreement) : (s.putAgree p a).beat = s.beat := by simp +decide [State.putAgree]

@[simp ↓] theorem State.takeJob_beat (s : State) (j : Option JobConfig) (b : Option Bundle) : (s.takeJob j b).beat = s.beat := by
  simp +decide [State.takeJob]

@[simp ↓] theorem State.dropLoad_beat (s : State) : s.dropLoad.beat = s.beat := by simp +decide [State.dropLoad]

@[simp ↓] theorem State.agreeFail_beat (s : State) (p : Nat) : (s.agreeFail p).beat = s.beat := by simp +decide [State.agreeFail]

@[simp ↓] theorem State.armPlan_beat (s : State) (p b : Nat) : (s.armPlan p b).1.beat = s.beat := by
  unfold State.armPlan
  dsimp only
  split
  · simp
  · split
    · simp +decide
    · split
      · split
        · simp
        · split <;> simp
      · split
        · split <;> simp +decide
        · rfl

@[simp ↓] theorem State.agreeArm_beat (s : State) (a : Agreement) : (s.agreeArm a).beat = s.beat := by simp [State.agreeArm]

@[simp ↓] theorem State.agreeConfirm_beat (s : State) (a : Agreement) : (s.agreeConfirm a).beat = s.beat := by simp +decide [State.agreeConfirm]

@[simp ↓] theorem State.agreePropose_beat (s : State) (a : Agreement) : (s.agreePropose a).beat = s.beat := by simp +decide [State.agreePropose]

@[simp ↓] theorem State.agreeWanted_beat (s : State) : s.agreeWanted.beat = s.beat := by simp +decide [State.agreeWanted]

@[simp ↓] theorem State.agreeBell_beat (s : State) : s.agreeBell.beat = s.beat := by simp +decide [State.agreeBell]

/-! ### The job set up -/

@[simp ↓] theorem State.dropFlights_beat (s : State) (p : Nat → Bool) : (s.dropFlights p).beat = s.beat := by simp +decide [State.dropFlights]

@[simp ↓] theorem State.abandonPuts_beat (s : State) (p : Nat → Bool) : (s.abandonPuts p).beat = s.beat := by simp +decide [State.abandonPuts]

@[simp ↓] theorem State.showFence_beat (s : State) (n : Nat) : (s.showFence n).beat = s.beat := by simp +decide [State.showFence]

@[simp ↓] theorem State.clearFlows_beat (s : State) : s.clearFlows.beat = s.beat := by simp +decide [State.clearFlows]

@[simp ↓] theorem State.setHbmPlan_beat (s : State) (plan : List (Nat × Nat × Nat × Nat)) : (s.setHbmPlan plan).beat = s.beat := by
  simp +decide [State.setHbmPlan]

@[simp ↓] theorem State.setLinks_beat (s : State) (ls : List LinkCfg) : (s.setLinks ls).beat = s.beat := by simp +decide [State.setLinks]

@[simp ↓] theorem State.keepRegion_beat (s old : State) (r : Nat) (keep : Bool) : (s.keepRegion old r keep).beat = s.beat := by
  unfold State.keepRegion
  cases keep with
  | false => simp +decide
  | true =>
    refine (foldl_beat _ (fun t i => ?_) _ _).trans ((foldl_beat _ (fun t p => ?_) _ _).trans ?_)
    · simp +decide
    · split <;> simp
    · simp

@[simp ↓] theorem State.scrubRead_beat (s : State) (r b g n d : Nat) : (s.scrubRead r b g n d).2.beat = s.beat := by
  induction n generalizing s g d with
  | zero => rfl
  | succ n ih =>
    unfold State.scrubRead
    extract_lets a x k y t
    have ht : t.beat = s.beat := (State.setStack_beat ..).trans (s.hbmRead_beat a 512)
    rw [ih, ht]

@[simp ↓] theorem State.verifyShard_beat (s : State) (r b : Nat) (e : ShardEnt) : (s.verifyShard r b e).2.beat = s.beat := by
  simp [State.verifyShard, State.fresh, apply_ite Prod.snd]

@[simp ↓] theorem State.verifyBank_beat (s : State) (r b : Nat) : (s.verifyBank r b).beat = s.beat := by simp [State.verifyBank]

@[simp ↓] theorem State.loadWeights_beat (s : State) (j : JobConfig) (b : Bundle) : (s.loadWeights j b).beat = s.beat := by
  simp +decide [State.loadWeights]

@[simp ↓] theorem State.setJob_beat (s : State) (j : JobConfig) (b : Bundle) (rank : Option Nat) : (s.setJob j b rank).beat = s.beat := by
  simp +decide [State.setJob]

@[simp ↓] theorem State.bankWords_beat (s : State) (n : Nat) : (s.bankWords n).beat = s.beat := by simp +decide [State.bankWords]

/-! ### Cores started, and what they issue -/

@[simp ↓] theorem State.startCore_beat (s : State) (n : Nat) : (s.startCore n).beat = s.beat := by simp +decide [State.startCore]

@[simp ↓] theorem State.startDue_beat (s : State) : s.startDue.beat = s.beat := by simp +decide [State.startDue]

@[simp ↓] theorem State.streamIssue_beat (s : State) (c : Nat) (x : Machine.Stream) : (s.streamIssue c x).beat = s.beat := by
  unfold State.streamIssue
  split <;> simp

@[simp ↓] theorem State.portIssue_beat (s : State) (c : Nat) (o : PortOp) : (s.portIssue c o).beat = s.beat := by
  unfold State.portIssue
  split
  · rfl
  · dsimp only
    have h (t : State) (i : Nat) (o : Option PortOp) : (t.setCore c (((t.core c).newGen i).setPort i o)).beat = t.beat :=
      t.setCore_beat c _ rfl
    split_ifs <;> simp +decide [h]

/-! ### Time, and what a bell applies -/

/-- The wall registers are no part of the beat. -/
theorem State.setWall_beat (s : State) (n m f : Nat) :
    let t := (s.setF .BEL_WALL_NS_NS 0 n).setF .BEL_WALL_S_S 0 m
    ({ t with bel := { t.bel with wallFrac := f } } : State).beat = s.beat := by
  simp +decide

@[simp ↓] theorem State.wallAdvance_beat (s : State) (k : Nat) : (s.wallAdvance k).beat = s.beat :=
  s.setWall_beat _ _ _

@[simp ↓] theorem State.timeAdvance_beat (s : State) (k : Nat) : (s.timeAdvance k).beat = { s.beat with phase := s.bel.phase + k * s.f .BEL_FT_INC_INC } := by
  rw [State.timeAdvance, State.setPhase_beat, State.wallAdvance_beat]

@[simp ↓] theorem State.decideBel_beat (s : State) : s.decideBel.beat = s.beat := by
  unfold State.decideBel
  split
  · rfl
  · dsimp only
    split_ifs <;> simp +decide

@[simp ↓] theorem State.applyBel_beat (s : State) : s.applyBel.beat = s.beat := by
  unfold State.applyBel
  split
  · dsimp only
    split_ifs <;> simp +decide
  · rfl

@[simp ↓] theorem State.commits_beat (s : State) : s.commits.beat = s.beat := by
  exact (foldl_beat _ (fun u k => u.commitEntry_beat _ _) _ _).trans (by simp)

@[simp ↓] theorem State.servo_beat (s : State) : s.servo.beat = s.beat := by simp +decide [State.servo]

@[simp ↓] theorem State.markCount_beat (s : State) : s.markCount.beat = s.beat := by simp +decide [State.markCount]

@[simp ↓] theorem State.pulseLink_beat (s : State) (n : Nat) : (s.pulseLink n).beat = s.beat := by simp +decide [State.pulseLink]

@[simp ↓] theorem State.pulseBanks_beat (s : State) : s.pulseBanks.beat = s.beat := by simp +decide [State.pulseBanks]

end Sys2Proof.Machine
end

section
/-!
SUPPORT for O41. What the slot of a waiting packet runs keeps the beat, so that a core that looks at its packet again does.
-/
namespace Sys2Proof.Machine

/-! ### Slots keep the beat -/

/-- A slot whose effect keeps the beat. -/
structure Sem.Steady (m : Sem) : Prop where
  run_beat : ∀ u, (m.run u).beat = u.beat

theorem Sem.steady_of_id {m : Sem} (h : m.run = id) : m.Steady := ⟨fun u => congrArg (fun f => (f u).beat) h⟩

theorem semResult_steady (c : CoreId) (rd : BitVec 5) (v lat : Nat) (need : List Nat) : (semResult c rd v lat need).Steady := ⟨fun u => u.setSr_beat c rd v⟩

theorem semLoad_steady (n : Nat) (c : CoreId) (rd rs1 : BitVec 5) (imm : BitVec 22) (s : State) : (semLoad n c rd rs1 imm s).Steady :=
  ⟨fun u => (State.setSr_beat ..).trans (u.storeRead_beat ..)⟩

theorem semStore_steady (n : Nat) (c : CoreId) (rd rs1 : BitVec 5) (imm : BitVec 22) (s : State) : (semStore n c rd rs1 imm s).Steady :=
  ⟨fun u => u.modCore_beat _ _ fun k => k.wrStore_bell _ _⟩

theorem semJal_steady (c : CoreId) (rd : BitVec 5) (imm : BitVec 22) (s : State) : (semJal c rd imm s).Steady := ⟨fun u => u.setSr_beat ..⟩

theorem semRdsh_steady (c : CoreId) (rd : BitVec 5) (imm : BitVec 22) (s : State) : (semRdsh c rd imm s).Steady := ⟨fun u => u.setSr_beat ..⟩

theorem semWaite_steady (c : CoreId) (e : BitVec 4) (rs1 : BitVec 5) (imm : BitVec 22) (s : State) : (semWaite c e rs1 imm s).Steady :=
  ⟨fun u => u.setF_beat _ _ _ (by decide)⟩

theorem semEvsend_steady (c : CoreId) (e : BitVec 4) (rs1 : BitVec 5) (s : State) : (semEvsend c e rs1 s).Steady := by
  refine ⟨fun u => ?_⟩
  unfold semEvsend
  dsimp only
  split <;> simp

theorem semBellwait_steady (r : Bool) (c : CoreId) (rs1 : BitVec 5) (imm : BitVec 22) (s : State) : (semBellwait r c rs1 imm s).Steady := by
  refine ⟨fun u => ?_⟩
  simp +decide [semBellwait]

theorem semStepinc_steady (c : CoreId) : (semStepinc c).Steady := ⟨fun u => (State.stepCheck_beat _).trans (u.setF_beat _ _ _ (by decide))⟩

theorem semPclr_steady (c : CoreId) (rs1 : BitVec 5) (imm : BitVec 22) (s : State) : (semPclr c rs1 imm s).Steady := ⟨fun u => u.clearTags_beat ..⟩

theorem semRelease_steady (c : CoreId) (rs1 : BitVec 5) (s : State) : (semRelease c rs1 s).Steady := ⟨fun u => u.release_beat ..⟩

theorem semPort_steady (opc : Nat) (kind : PortKind) (c : CoreId) (dt : BitVec 4) (sub : BitVec 3) (even : Bool) (ev : BitVec 4)
    (rn rr rl : BitVec 5) (b : Bool) (s : State) : (semPort opc kind c dt sub even ev rn rr rl b s).Steady := ⟨fun u => u.portIssue_beat ..⟩

theorem semStream_steady (opc : Nat) (load : Bool) (c : CoreId) (even : Bool) (ev : BitVec 4) (rt rn rr rl : BitVec 5) (ps : Bool) (s : State) :
    (semStream opc load c even ev rt rn rr rl ps s).Steady := ⟨fun u => u.streamIssue_beat ..⟩

theorem semMxcfg_steady (c : CoreId) (rx rq rs : BitVec 5) (sp as ws : Bool) (af wf : BitVec 4) (s : State) : (semMxcfg c rx rq rs sp as ws af wf s).Steady :=
  ⟨fun u => u.modCore_beat _ _ fun _ => rfl⟩

theorem semMxlw_steady (c : CoreId) (we : BitVec 2) (rk rw : BitVec 5) (s : State) : (semMxlw c we rk rw s).Steady := by
  refine ⟨fun u => (State.modCore_beat _ _ _ ?_).trans (u.storeRead_beat ..)⟩
  exact fun _ => rfl

theorem semMxrun_steady (c : CoreId) (msk clr : Bool) (nb ab ne we : BitVec 2) (rc ra : BitVec 5) (s : State) :
    (semMxrun c msk clr nb ab ne we rc ra s).Steady := by
  refine ⟨fun u => ?_⟩
  simp +decide [semMxrun]

theorem semMxdrain_steady (c : CoreId) (ev : BitVec 4) (even clr : Bool) (f : BitVec 4) (a : BitVec 2) (rs rd : BitVec 5) (s : State) :
    (semMxdrain c ev even clr f a rs rd s).Steady := by
  refine ⟨fun u => (State.modCore_beat _ _ _ fun k => ?_).trans (u.pmcIf_beat ..)⟩
  dsimp only
  split_ifs <;> simp

theorem semMxmask_steady (c : CoreId) (mode : Bool) (nb ab : BitVec 2) (rf : BitVec 5) (s : State) : (semMxmask c mode nb ab rf s).Steady := by
  refine ⟨fun u => u.modCore_beat _ _ fun k => ?_⟩
  split_ifs <;> rfl

theorem semTally_steady (c : CoreId) (rk rt rn rs : BitVec 5) (s : State) : (semTally c rk rt rn rs s).Steady := ⟨fun u => u.modCore_beat _ _ fun _ => rfl⟩

theorem semTemit_steady (c : CoreId) (rt : BitVec 5) (s : State) : (semTemit c rt s).Steady := ⟨fun u => (State.emit_beat ..).trans (u.tallyTo_beat ..)⟩

theorem semPmcrd_steady (c : CoreId) (sel : BitVec 4) (rd : BitVec 5) (s : State) : (semPmcrd c sel rd s).Steady := by
  refine ⟨fun u => ?_⟩
  simp +decide [semPmcrd]

theorem semLanes_steady (op : LaneOp) (opc lat occ : Nat) (src : List (BitVec 5)) (c : CoreId) (ty pg : BitVec 3) (vb va vd : BitVec 5)
    (bad : Bool) (s : State) : (semLanes op opc lat occ src c ty pg vb va vd bad s).Steady := by
  refine ⟨fun u => ?_⟩
  simp [semLanes]

theorem semVbcast_steady (c : CoreId) (ty pg : BitVec 3) (ra vd : BitVec 5) (s : State) : (semVbcast c ty pg ra vd s).Steady := by
  refine ⟨fun u => ?_⟩
  simp [semVbcast]

theorem semVsel_steady (c : CoreId) (ty pg : BitVec 3) (vb va vd : BitVec 5) (s : State) : (semVsel c ty pg vb va vd s).Steady := by
  refine ⟨fun u => ?_⟩
  simp [semVsel]

theorem semCmp_steady (cmp : Nat → Nat → Bool) (opc : Nat) (c : CoreId) (ty pg : BitVec 3) (vb va vd : BitVec 5) (s : State) :
    (semCmp cmp opc c ty pg vb va vd s).Steady := by
  refine ⟨fun u => ?_⟩
  simp [semCmp]

theorem semVcvt_steady (c : CoreId) (x : BitVec 11) (ty pg : BitVec 3) (vb va vd : BitVec 5) (s : State) : (semVcvt c x ty pg vb va vd s).Steady := by
  refine ⟨fun u => ?_⟩
  simp [semVcvt]

theorem semVmxsc_steady (c : CoreId) (x : BitVec 11) (ty pg : BitVec 3) (vb va vd : BitVec 5) (s : State) : (semVmxsc c x ty pg vb va vd s).Steady := by
  refine ⟨fun u => ?_⟩
  simp [semVmxsc]

theorem semVwid_steady (c : CoreId) (x : BitVec 11) (ty pg : BitVec 3) (vb va vd : BitVec 5) (s : State) : (semVwid c x ty pg vb va vd s).Steady := by
  refine ⟨fun u => ?_⟩
  simp [semVwid]

theorem semTree_steady (op : LaneOp) (opc : Nat) (c : CoreId) (ty pg : BitVec 3) (va vd : BitVec 5) (s : State) : (semTree op opc c ty pg va vd s).Steady := by
  refine ⟨fun u => ?_⟩
  simp [semTree]

theorem semVld_steady (c : CoreId) (imm : BitVec 14) (pg : BitVec 3) (rs vd : BitVec 5) (s : State) : (semVld c imm pg rs vd s).Steady := by
  refine ⟨fun u => ?_⟩
  simp [semVld]

/-- Stores of the governed lanes keep BELL. -/
theorem Core.lanes_bell (p : PReg) (a : Nat → Nat) (bs : Nat → List Byte) (n : Nat) (k : Core) :
    (upto n (fun i k => if p.toNat.testBit i then k.wrStore (a i) (bs i) else k) k).bell = k.bell :=
  Core.upto_bell _ (fun i k => by split_ifs <;> simp) n k

theorem semVst_steady (c : CoreId) (imm : BitVec 14) (pg : BitVec 3) (rs vs : BitVec 5) (s : State) : (semVst c imm pg rs vs s).Steady := by
  refine ⟨fun u => ?_⟩
  simp [semVst, Core.lanes_bell]

theorem semVgath_steady (c : CoreId) (pg : BitVec 3) (vi rs vd : BitVec 5) (s : State) : (semVgath c pg vi rs vd s).Steady := by
  refine ⟨fun u => ?_⟩
  simp [semVgath]

theorem semVscat_steady (c : CoreId) (pg : BitVec 3) (vi rs vs : BitVec 5) (s : State) : (semVscat c pg vi rs vs s).Steady := by
  refine ⟨fun u => ?_⟩
  simp [semVscat, Core.lanes_bell]

theorem semPred_steady (f : Nat → Nat → Nat) (opc : Nat) (c : CoreId) (pg : BitVec 3) (vb va vd : BitVec 5) (s : State) :
    (semPred f opc c pg vb va vd s).Steady := ⟨fun u => u.setPr_beat ..⟩

theorem semRand_steady (c : CoreId) (x : BitVec 11) (ty pg : BitVec 3) (rt ri vd : BitVec 5) (s : State) : (semRand c x ty pg rt ri vd s).Steady := by
  refine ⟨fun u => ?_⟩
  simp [semRand]

theorem semPack_steady (c : CoreId) (sc sf : BitVec 5) (pd pm : BitVec 3) (vs vd : BitVec 5) (s : State) : (semPack c sc sf pd pm vs vd s).Steady := by
  refine ⟨fun u => ?_⟩
  simp +decide [semPack]

theorem semUnpack_steady (c : CoreId) (sf : BitVec 5) (pm : BitVec 3) (vs vd : BitVec 5) (s : State) : (semUnpack c sf pm vs vd s).Steady := by
  refine ⟨fun u => ?_⟩
  simp [semUnpack]

theorem Sem.steady_of_slot {k : Nat} {i : Instr} {m : Sem} {x : Slot} (h : some (⟨k, i, m⟩ : Slot) = some x) (hm : m.Steady) : x.sem.Steady := by
  cases h
  exact hm

/-- Every instruction that a core can wait with keeps the beat. -/
theorem slotOf_steady (released : Bool) (i : Instr) (s : State) (x : Slot) (h : slotOf released i s = some x) : x.sem.Steady := by
  cases i with
  | nop | beq | bne | blt | bge | bltu | bgeu | jr | loop | trap | halt | waitp => exact Sem.steady_of_slot h (Sem.steady_of_id rfl)
  | add | sub | and | or | xor | sll | srl | sra | slt | sltu | min | max | mul | mulhu | addi | andi | ori | xori | slli | srli | srai | slti
  | lix | evread =>
    exact Sem.steady_of_slot h (semResult_steady ..)
  | ld | lw => exact Sem.steady_of_slot h (semLoad_steady ..)
  | st | sw => exact Sem.steady_of_slot h (semStore_steady ..)
  | jal => exact Sem.steady_of_slot h (semJal_steady ..)
  | rdsh => exact Sem.steady_of_slot h (semRdsh_steady ..)
  | waite => exact Sem.steady_of_slot h (semWaite_steady ..)
  | evsend => exact Sem.steady_of_slot h (semEvsend_steady ..)
  | release => exact Sem.steady_of_slot h (semRelease_steady ..)
  | pclr => exact Sem.steady_of_slot h (semPclr_steady ..)
  | bellwait => exact Sem.steady_of_slot h (semBellwait_steady ..)
  | stepinc => exact Sem.steady_of_slot h (semStepinc_steady ..)
  | pack => exact Sem.steady_of_slot h (semPack_steady ..)
  | unpack => exact Sem.steady_of_slot h (semUnpack_steady ..)
  | put | get | acc | atom => exact Sem.steady_of_slot h (semPort_steady ..)
  | mxcfg => exact Sem.steady_of_slot h (semMxcfg_steady ..)
  | mxlw => exact Sem.steady_of_slot h (semMxlw_steady ..)
  | mxrun => exact Sem.steady_of_slot h (semMxrun_steady ..)
  | mxdrain => exact Sem.steady_of_slot h (semMxdrain_steady ..)
  | mxmask => exact Sem.steady_of_slot h (semMxmask_steady ..)
  | vmov | vadd | vsub | vmul | vfma | vmin | vmax | vabs | vneg | vdiv | vsqrt | vand | vor | vxor | vshl | vshr | vsra | vexp | vlog
  | vrsqrt | vtanh | verf | vsigm =>
    exact Sem.steady_of_slot h (semLanes_steady ..)
  | vbcast => exact Sem.steady_of_slot h (semVbcast_steady ..)
  | vcmpeq | vcmplt | vcmple => exact Sem.steady_of_slot h (semCmp_steady ..)
  | vsel => exact Sem.steady_of_slot h (semVsel_steady ..)
  | vcvt => exact Sem.steady_of_slot h (semVcvt_steady ..)
  | vmxsc => exact Sem.steady_of_slot h (semVmxsc_steady ..)
  | vwid => exact Sem.steady_of_slot h (semVwid_steady ..)
  | vrsum | vrmax => exact Sem.steady_of_slot h (semTree_steady ..)
  | vld => exact Sem.steady_of_slot h (semVld_steady ..)
  | vst => exact Sem.steady_of_slot h (semVst_steady ..)
  | vgath => exact Sem.steady_of_slot h (semVgath_steady ..)
  | vscat => exact Sem.steady_of_slot h (semVscat_steady ..)
  | pand | por | pxor | pnot => exact Sem.steady_of_slot h (semPred_steady ..)
  | rand => exact Sem.steady_of_slot h (semRand_steady ..)
  | tally => exact Sem.steady_of_slot h (semTally_steady ..)
  | temit => exact Sem.steady_of_slot h (semTemit_steady ..)
  | pmcrd => exact Sem.steady_of_slot h (semPmcrd_steady ..)
  | sld | sst => exact Sem.steady_of_slot h (semStream_steady ..)
  | _ => cases h

/-- Slots that keep the beat keep it together. -/
theorem foldl_slots_beat (slots : List Slot) (h : ∀ x ∈ slots, x.sem.Steady) (s : State) :
    (slots.foldl (fun s x => x.sem.run s) s).beat = s.beat := by
  induction slots generalizing s with
  | nil => rfl
  | cons x slots ih => exact (ih (fun y hy => h y (List.mem_cons_of_mem _ hy)) _).trans ((h x List.mem_cons_self).run_beat s)

theorem packet_complete_beat (n : Nat) (slots : List Slot) (h : ∀ x ∈ slots, x.sem.Steady) (s : State) : (complete_ n slots s).beat = s.beat := by
  simp +decide [complete_, foldl_slots_beat slots h]

@[simp ↓] theorem enterWait_beat (n kind : Nat) (slots : List Slot) (s : State) : (enterWait n kind slots s).beat = s.beat := by simp +decide [enterWait]

theorem issueNow_beat (n : Nat) (slots : List Slot) (h : ∀ x ∈ slots, x.sem.Steady) (s : State) : (issueNow n slots s).beat = s.beat := by
  unfold issueNow
  split
  · simp [State.fresh]
  · simp [packet_complete_beat n slots h]

theorem State.waitSlots_steady (s : State) (c : Nat) : ∀ x ∈ s.waitSlots c, x.sem.Steady := by
  intro x hx
  obtain ⟨i, -, hi⟩ := List.mem_filterMap.mp hx
  exact slotOf_steady _ i s x hi

@[simp ↓] theorem State.retry_beat (s : State) (c : CoreId) : (s.retry c).beat = s.beat := by simp [State.retry, issueNow_beat _ _ (s.waitSlots_steady c)]

end Sys2Proof.Machine
end

section
/-!
SUPPORT for O41. A load wakes the clusters of its cores and resets these: the one part of a pulse, before it reaches the cores, that changes the beat.
-/
namespace Sys2Proof.Machine

/-! ### What a load does to the beat: it wakes clusters, and resets cores -/

/-- Beat b has the bell, the phase and the fuses of a, and every cluster that is on in a is on in b. -/
structure Beat.Wakes (a b : Beat) : Prop where
  now : b.now = a.now
  phase : b.phase = a.phase
  fuseLo : b.fuseLo = a.fuseLo
  fuseHi : b.fuseHi = a.fuseHi
  off : ∀ k, a.off k = 0 → b.off k = 0

theorem Beat.Wakes.of_eq {a b : Beat} (h : b = a) : a.Wakes b := by
  subst h
  exact ⟨rfl, rfl, rfl, rfl, fun _ h => h⟩

theorem Beat.Wakes.trans {a b c : Beat} (h : a.Wakes b) (g : b.Wakes c) : a.Wakes c :=
  ⟨g.now.trans h.now, g.phase.trans h.phase, g.fuseLo.trans h.fuseLo, g.fuseHi.trans h.fuseHi, fun k hk => g.off k (h.off k hk)⟩

theorem foldl_wakes {β : Type} (f : State → β → State) (h : ∀ (s : State) x, s.beat.Wakes (f s x).beat) (l : List β) (s : State) :
    s.beat.Wakes (l.foldl f s).beat := by
  induction l generalizing s with
  | nil => exact .of_eq rfl
  | cons x l ih => exact (h s x).trans (ih _)

theorem upto_wakes (f : Nat → State → State) (h : ∀ i (s : State), s.beat.Wakes (f i s).beat) (n : Nat) (s : State) :
    s.beat.Wakes (upto n f s).beat :=
  foldl_wakes _ (fun s i => h i s) _ s

theorem State.modCore_wakes (s : State) (n : Nat) (f : Core → Core) : s.beat.Wakes (s.modCore n f).beat := ⟨rfl, rfl, rfl, rfl, fun _ h => h⟩

theorem State.enterCg_wakes (s : State) (n : Nat) : s.beat.Wakes (s.enterCg n).beat := s.modCore_wakes n _

/-- No reset of a cluster or of a core returns a field of the beat to its reset value. -/
theorem beatFlds_kept : ∀ g ∈ beatFlds, (fldOf g.code).all (fun x => !x.2.resetBy .K && !x.2.resetBy .C) = true := by decide +kernel

/-- A reset of fields that the beat's are not among. -/
theorem State.resetIf_beat (s : State) (p : Reg → Fld → Nat → Bool)
    (h : ∀ r fl i, fl.resetBy .K = false → fl.resetBy .C = false → p r fl i = false) : (s.resetIf p).beat = s.beat := by
  refine beatOf_congr fun g hg j => ?_
  have hk : g.key j % 1024 = g.code ∧ g.key j / 1024 = j := by
    have := beatFlds_code g hg
    simp only [Fld.key]
    omega
  simp only [State.resetIf, Map.get_keep, hk]
  have hr := beatFlds_kept g hg
  cases e : fldOf g.code with
  | none => rfl
  | some x =>
    obtain ⟨r, fl⟩ := x
    simp only [e, Option.all_some, Bool.and_eq_true, Bool.not_eq_true'] at hr
    simp [h r fl j hr.1 hr.2]

theorem State.showFence_wakes (s : State) (n : Nat) (f : Core → Core) : s.beat.Wakes ((s.modCore n f).showFence n).beat :=
  (s.modCore_wakes n f).trans (.of_eq (State.showFence_beat _ _))

theorem State.clusterClear_wakes (s : State) (k : Nat) : s.beat.Wakes (s.clusterClear k).beat := by
  unfold State.clusterClear
  refine (Beat.Wakes.of_eq ?_).trans (upto_wakes _ (fun j t => ?_) 8 _)
  · rw [State.abandonPuts_beat, State.dropFlights_beat, State.resetIf_beat]
    intro r fl i hk hc
    simp [clusterScope, hk]
  · exact (t.modCore_wakes _ _).trans (State.showFence_wakes _ _ _)

theorem State.coreClear_wakes (s : State) (n : Nat) : s.beat.Wakes (s.coreClear n).beat := by
  unfold State.coreClear
  refine (Beat.Wakes.of_eq ?_).trans (State.showFence_wakes _ n _)
  rw [State.abandonPuts_beat, State.dropFlights_beat, State.resetIf_beat]
  intro r fl i hk hc
  simp [hc]

/-- Turning a cluster on. -/
theorem State.cluOn_wakes (s : State) (k : Nat) : s.beat.Wakes (s.setF .PWR_CLU_OFF k 0).beat := by
  refine ⟨s.f_setF_code _ _ _ _ _ (by decide), rfl, s.f_setF_code _ _ _ _ _ (by decide), s.f_setF_code _ _ _ _ _ (by decide), fun j hj => ?_⟩
  change (s.setF .PWR_CLU_OFF k 0).f .PWR_CLU_OFF j = 0
  by_cases e : j = k
  · rw [e, State.f_setF_same, Nat.zero_mod]
  · rw [State.f_setF_idx _ _ _ e]
    exact hj

theorem State.clusterWake_wakes (s : State) (k : Nat) : s.beat.Wakes (s.clusterWake k).beat := by
  unfold State.clusterWake
  split_ifs
  · exact .of_eq rfl
  · refine ((s.cluOn_wakes k).trans (State.clusterClear_wakes _ k)).trans (.of_eq ?_)
    simp +decide

theorem State.bindCore_wakes (s : State) (j : JobConfig) (b : Bundle) (img : Image) (role rank n l : Nat) :
    s.beat.Wakes (s.bindCore j b img role rank n l).beat := by
  unfold State.bindCore
  extract_lets s1 s2 s3 s4 s5 s6 s7 s8 s9
  have h1 : s.beat.Wakes s1.beat := (s.clusterWake_wakes _).trans (State.modCore_wakes _ n _)
  have h7 : s7.beat = s1.beat := by simp +decide [s2, s3, s4, s5, s6, s7]
  have h8 : s7.beat.Wakes ((s7.coreClear n).modCore n (fun c => { c with cg := false })).beat := (s7.coreClear_wakes n).trans (State.modCore_wakes _ n _)
  refine ((h1.trans (.of_eq h7)).trans h8).trans (.of_eq ?_)
  simp +decide [s8, s9]

theorem State.finishLoad_wakes (s : State) : s.beat.Wakes s.finishLoad.beat := by
  unfold State.finishLoad
  split
  next j b hj hb =>
    extract_lets rank s0 s1 s2 s3 s4
    have h1 : s1.beat = s.beat := by simp +decide [s0, s1]
    have h2 : s1.beat.Wakes s2.beat := by
      unfold s2
      clear_value rank
      split
      · split
        · exact foldl_wakes _ (fun t p => t.bindCore_wakes ..) _ _
        · exact .of_eq rfl
      · exact .of_eq rfl
    have h3 : s2.beat.Wakes s3.beat := (foldl_wakes _ (fun t n => t.enterCg_wakes n) _ _).trans
      (.of_eq ((State.setLinks_beat ..).trans (State.loadWeights_beat ..)))
    refine (((Beat.Wakes.of_eq h1).trans h2).trans h3).trans (.of_eq ?_)
    simp [s4]
  · exact .of_eq rfl

theorem State.loadBell_wakes (s : State) : s.beat.Wakes s.loadBell.beat := by
  unfold State.loadBell
  split_ifs
  · exact .of_eq rfl
  · exact s.finishLoad_wakes
  · exact .of_eq s.dropLoad_beat

end Sys2Proof.Machine
end

section
/-!
SUPPORT for O41. The pulse and the end of a bell (R49, R67).
-/
namespace Sys2Proof.Machine

/-! ### The pulse -/

theorem State.now_eq_beat (s : State) : s.now = s.beat.now := (rfl)
theorem State.phase_eq_beat (s : State) : s.bel.phase = s.beat.phase := (rfl)
theorem State.cluOff_eq_beat (s : State) (k : Nat) : s.f .PWR_CLU_OFF k = s.beat.off k := (rfl)

theorem State.enabled_congr {s t : State} (hlo : t.beat.fuseLo = s.beat.fuseLo) (hhi : t.beat.fuseHi = s.beat.fuseHi) (n : Nat) :
    t.enabled n = s.enabled n := by
  have lo : t.f .CHIP_FUSE_LO_EN = s.f .CHIP_FUSE_LO_EN := hlo
  have hi : t.f .CHIP_FUSE_HI_EN = s.f .CHIP_FUSE_HI_EN := hhi
  simp only [State.enabled, lo, hi]

/-- Beat b is a with the BELL of some cores set to a's bell. -/
structure Beat.Rings (a b : Beat) : Prop where
  now : b.now = a.now
  phase : b.phase = a.phase
  fuseLo : b.fuseLo = a.fuseLo
  fuseHi : b.fuseHi = a.fuseHi
  off : b.off = a.off
  bell : ∀ c, b.bell c = a.bell c ∨ b.bell c = a.now % 2 ^ 64

theorem Beat.Rings.refl (a : Beat) : a.Rings a := ⟨rfl, rfl, rfl, rfl, rfl, fun _ => .inl rfl⟩

theorem Beat.Rings.trans {a b c : Beat} (h : a.Rings b) (g : b.Rings c) : a.Rings c where
  now := g.now.trans h.now
  phase := g.phase.trans h.phase
  fuseLo := g.fuseLo.trans h.fuseLo
  fuseHi := g.fuseHi.trans h.fuseHi
  off := g.off.trans h.off
  bell d := by
    rcases g.bell d with e | e
    · rw [e]
      exact h.bell d
    · rw [e, h.now]
      exact .inr rfl

/-- A core that has the bell keeps it. -/
theorem Beat.Rings.keeps {a b : Beat} (h : a.Rings b) {c : Nat} (hc : a.bell c = a.now % 2 ^ 64) : b.bell c = a.now % 2 ^ 64 := by
  rcases h.bell c with e | e
  · exact e.trans hc
  · exact e

/-- The beat with the BELL of core c at its bell. -/
def Beat.ring (b : Beat) (c : Nat) : Beat := { b with bell := Function.update b.bell c (b.now % 2 ^ 64) }

theorem Beat.ring_rings (b : Beat) (c : Nat) : b.Rings (b.ring c) := by
  refine ⟨rfl, rfl, rfl, rfl, rfl, fun d => ?_⟩
  by_cases hd : d = c
  · subst hd
    exact .inr (Function.update_self ..)
  · exact .inl (Function.update_of_ne hd ..)

theorem State.setCore_ring (s : State) (c : Nat) (k : Core) (hk : k.bell = s.now % 2 ^ 64) : (s.setCore c k).beat = s.beat.ring c := by
  refine congrArg (fun b => ({ s.beat with bell := b } : Beat)) (funext fun d => ?_)
  by_cases hd : d = c
  · subst hd
    exact ((congrArg Core.bell (s.core_setCore_same d k)).trans hk).trans (Function.update_self d (s.now % 2 ^ 64) s.beat.bell).symm
  · exact (congrArg Core.bell (s.core_setCore_other k hd)).trans (Function.update_of_ne hd _ s.beat.bell).symm

theorem State.pulseCore_beat (s : State) (c : CoreId) : (s.pulseCore c).beat = s.beat.ring c := by
  unfold State.pulseCore
  extract_lets t
  have ht : t.beat = s.beat.ring c := s.setCore_ring c _ rfl
  split_ifs
  · exact (t.retry_beat c).trans ht
  · exact ht

/-- The pulse as it reaches one core after another. -/
def State.pulseSome (l : List CoreId) (s : State) : State :=
  l.foldl (fun (s : State) (c : CoreId) => if s.enabled c ∧ s.f .PWR_CLU_OFF (c / 8) = 0 then s.pulseCore c else s) s

theorem State.pulseSome_rings (l : List CoreId) (s : State) : s.beat.Rings (State.pulseSome l s).beat := by
  induction l generalizing s with
  | nil => exact .refl _
  | cons c l ih =>
    refine Beat.Rings.trans ?_ (ih _)
    dsimp only
    split_ifs
    · exact s.pulseCore_beat c ▸ s.beat.ring_rings c
    · exact .refl _

/-- An enabled core of a cluster that is on has the bell after the pulse. -/
theorem State.pulseCores_bell (s : State) (c : CoreId) (he : s.enabled c = true) (ho : s.f .PWR_CLU_OFF (c / 8) = 0) :
    s.pulseCores.beat.bell c = s.now % 2 ^ 64 := by
  obtain ⟨l₁, l₂, hl⟩ := List.append_of_mem (List.mem_finRange c)
  have hp : s.pulseCores = State.pulseSome l₂ (State.pulseSome [c] (State.pulseSome l₁ s)) := by
    simp only [State.pulseCores, hl, State.pulseSome, List.foldl_append, List.foldl_cons, List.foldl_nil]
  have h₁ := State.pulseSome_rings l₁ s
  generalize State.pulseSome l₁ s = s₁ at hp h₁
  have he₁ : s₁.enabled c = true := (State.enabled_congr h₁.fuseLo h₁.fuseHi c).trans he
  have ho₁ : s₁.f .PWR_CLU_OFF (c / 8) = 0 := (congrFun h₁.off (c / 8)).trans ho
  have hc : State.pulseSome [c] s₁ = s₁.pulseCore c := if_pos ⟨he₁, ho₁⟩
  have hn : (s₁.pulseCore c).beat.now = s.now := (congrArg Beat.now (s₁.pulseCore_beat c)).trans h₁.now
  have hb : (s₁.pulseCore c).beat.bell c = (s₁.pulseCore c).beat.now % 2 ^ 64 := by
    rw [State.pulseCore_beat]
    exact Function.update_self ..
  rw [hp, hc, (State.pulseSome_rings l₂ _).keeps hb, hn]

theorem State.pulseCores_rings (s : State) : s.beat.Rings s.pulseCores.beat := State.pulseSome_rings _ s

theorem State.setNow_beat (s : State) (n : Nat) : (s.setF .BEL_NOW_BELL 0 n).beat = { s.beat with now := n % 2 ^ 64 } := by
  have lo := s.f_setF_code .BEL_NOW_BELL .CHIP_FUSE_LO_EN 0 0 n (by decide)
  have hi := s.f_setF_code .BEL_NOW_BELL .CHIP_FUSE_HI_EN 0 0 n (by decide)
  have off (j : Nat) := s.f_setF_code .BEL_NOW_BELL .PWR_CLU_OFF 0 j n (by decide)
  have now := s.f_setF_same .BEL_NOW_BELL 0 n
  simp only [State.f] at lo hi off now
  simp only [State.beat, beatOf, lo, hi, off, now]
  rfl

/-- Beat b is the one that a pulse makes of beat a (R49, R67): the next bell, the phase p, and the BELL of every core that `on` names. -/
structure Beat.Pulsed (a b : Beat) (p : Nat) (on : Nat → Bool) : Prop where
  now : b.now = (a.now + 1) % 2 ^ 64
  phase : b.phase = p
  bell : ∀ c : CoreId, on c = true → a.off (c / 8) = 0 → b.bell c = (a.now + 1) % 2 ^ 64

theorem State.pulse_pulsed (s : State) : s.beat.Pulsed s.pulse.beat s.beat.phase s.enabled := by
  unfold State.pulse
  extract_lets s1 s3 s4 s5 s6
  have h5 : s5.beat = { s.beat with now := (s.now + 1) % 2 ^ 64 } := by
    refine Eq.trans ?_ (s.setNow_beat (s.now + 1))
    simp [s1, s3, s4, s5]
  have h := s5.loadBell_wakes
  have hd : s5.loadBell.startDue.beat = s5.loadBell.beat := State.startDue_beat _
  have hr := s5.loadBell.startDue.pulseCores_rings
  have he : s6.fireDue.fchgStop.agreeBell.rerouteDue.agreeWanted.beat = s6.beat := by simp
  rw [h5] at h
  rw [hd] at hr
  rw [he]
  refine ⟨hr.now.trans h.now, hr.phase.trans h.phase, fun c hc ho => ?_⟩
  rw [State.pulseCores_bell, State.now_eq_beat, hd, h.now, Nat.mod_mod, s.now_eq_beat]
  · rw [← hc]
    exact State.enabled_congr (by rw [hd, h.fuseLo]) (by rw [hd, h.fuseHi]) c
  · rw [State.cluOff_eq_beat, hd]
    exact h.off _ ho

/-! ### BELL_PULSE -/

/-- The cycles to the end of a distance overshoot it by less than one cycle. -/
theorem ceilDiv_bounds (a : Nat) {d : Nat} (hd : 0 < d) : a ≤ ceilDiv a d * d ∧ ceilDiv a d * d < a + d := by
  have h := Nat.div_add_mod (a + d - 1) d
  have hm := Nat.mod_lt (a + d - 1) hd
  rw [Nat.mul_comm] at h
  unfold ceilDiv
  omega

theorem State.setWall_activeUs (s : State) (n m f : Nat) :
    let t := (s.setF .BEL_WALL_NS_NS 0 n).setF .BEL_WALL_S_S 0 m
    ({ t with bel := { t.bel with wallFrac := f } } : State).f .BEL_ACTIVE_US = s.f .BEL_ACTIVE_US := by
  intro t
  exact (State.f_setF_code _ _ _ _ _ _ (by decide)).trans (s.f_setF_code _ _ _ _ _ (by decide))

theorem State.setPhase_activeUs (s : State) (p : Nat) : (s.setPhase p).f .BEL_ACTIVE_US = s.f .BEL_ACTIVE_US :=
  (State.f_setF_code _ _ _ _ _ _ (by decide)).trans (s.f_setF_code _ _ _ _ _ (by decide))

theorem State.timeAdvance_bellSpan (s : State) (k : Nat) : (s.timeAdvance k).bellSpan = s.bellSpan :=
  congrArg (fun us => us * 1000 * 2 ^ 32) ((State.setPhase_activeUs _ _).trans (s.setWall_activeUs _ _ _))

/-- A pulse whose ledger entries are put in order keeps what the pulse does. -/
theorem State.ldgTogether_pulsed (s : State) : s.beat.Pulsed (s.ldgTogether State.pulse).beat s.beat.phase s.enabled := by
  obtain ⟨l, hl⟩ := s.ldgTogether_beat_of State.pulse
  have h := ({ s with ldg := l } : State).pulse_pulsed
  rw [hl]
  exact h

/-- The end of a bell carries its length over to the next (R49). -/
theorem State.bellEnd_pulsed (s : State) : s.beat.Pulsed s.bellEnd.beat (s.bel.phase - s.bellSpan) s.enabled := by
  unfold State.bellEnd
  generalize s.bel.phase - s.bellSpan = p
  have hb := s.setPhase_beat p
  have he : (s.setPhase p).enabled = s.enabled := funext fun c => State.enabled_congr (by rw [hb]) (by rw [hb]) c
  have h := (s.setPhase p).ldgTogether_pulsed
  rw [hb, he] at h
  exact ⟨h.now, h.phase, h.bell⟩

/-- BELL_PULSE (R49, R67): the time clock runs the least number of cycles that ends the bell. -/
theorem bellPulse_sets (s : State) (hi : 0 < s.f .BEL_FT_INC_INC) (hp : s.bel.phase < bellUnits s) :
    ∃ t k, exec .bellPulse s = .next t ∧ t.now = (s.now + 1) % 2 ^ 64 ∧ t.bel.phase + bellUnits s = s.bel.phase + k * s.f .BEL_FT_INC_INC ∧
      t.bel.phase < s.f .BEL_FT_INC_INC ∧
      ∀ c : CoreId, s.enabled c = true → s.f .PWR_CLU_OFF (c / 8) = 0 → (t.core c).bell = (s.now + 1) % 2 ^ 64 := by
  have hk := ceilDiv_bounds (bellUnits s - s.bel.phase) hi
  have hc : s.cyclesLeft = ceilDiv (bellUnits s - s.bel.phase) (s.f .BEL_FT_INC_INC) :=
    congrArg (ceilDiv _) (Nat.max_eq_left hi)
  rw [← hc] at hk
  have hb := s.timeAdvance_beat s.cyclesLeft
  have he : s.enabled = (s.timeAdvance s.cyclesLeft).enabled := funext fun c => State.enabled_congr (by rw [hb]) (by rw [hb]) c
  have h := (s.timeAdvance s.cyclesLeft).bellEnd_pulsed
  rw [s.timeAdvance_bellSpan, State.phase_eq_beat, hb, ← he] at h
  have hph : (s.timeAdvance s.cyclesLeft).bellEnd.bel.phase = s.bel.phase + s.cyclesLeft * s.f .BEL_FT_INC_INC - bellUnits s := h.phase
  exact ⟨_, s.cyclesLeft, rfl, h.now, by omega, by omega, h.bell⟩

end Sys2Proof.Machine
end

section
/-!
PROOF of O41. What each other command of the bell unit sets (R51, R53-R56), and the statement.
-/
namespace Sys2Proof.Machine

/-! ### The other commands of the bell unit -/

/-- A write of a listed field, in a frame of listed fields. -/
theorem sameRegs_setF_flds {s t : State} {l : List Fld} (h : sameRegs s t (flds l)) (g : Fld) (j v : Nat) (hg : g.code < 1024)
    (ht : touches l g = true) : sameRegs s (t.setF g j v) (flds l) :=
  sameRegs_setF h g j v hg fun _ hc => touches_code l hc ht

/-- The distance of R60 is the signed difference of the low 32 bits. -/
theorem bellDist_eq_ahead (s : State) (b : Nat) : bellDist s b = ahead s b := by
  simp only [bellDist, ahead, signed, BitVec.toInt_eq_toNat_cond, BitVec.toNat_sub, BitVec.toNat_ofNat]
  omega

/-- The registers of a bell commit, armed for b or refused. -/
def State.commitRegs (s : State) (b : Nat) (ok : Bool) : State :=
  ((s.setF .BEL_COMMIT_BELL 0 b).setF .BEL_COMMIT_ARM 0 (b2n ok)).setF .BEL_COMMIT_STATUS 0 (if ok then 1 else 2)

theorem State.commitRegs_sets (s : State) (b : Nat) (ok : Bool) (hb : b < 2 ^ 32) : (s.commitRegs b ok).f .BEL_COMMIT_BELL = b ∧
    (s.commitRegs b ok).f .BEL_COMMIT_ARM = b2n ok ∧ (s.commitRegs b ok).f .BEL_COMMIT_STATUS = (if ok then 1 else 2) ∧
    sameRegs s (s.commitRegs b ok) (flds [.BEL_COMMIT_BELL, .BEL_COMMIT_ARM, .BEL_COMMIT_STATUS]) := by
  refine ⟨?_, ?_, ?_, ?_⟩
  · rw [State.commitRegs, State.f_setF_code _ _ _ _ _ _ (by decide), State.f_setF_code _ _ _ _ _ _ (by decide), State.f_setF_same]
    exact Nat.mod_eq_of_lt hb
  · rw [State.commitRegs, State.f_setF_code _ _ _ _ _ _ (by decide), State.f_setF_same]
    cases ok <;> rfl
  · rw [State.commitRegs, State.f_setF_same]
    cases ok <;> rfl
  · refine sameRegs_setF_flds (sameRegs_setF_flds (sameRegs_setF_flds (sameRegs_refl s _) _ _ _ ?_ ?_) _ _ _ ?_ ?_) _ _ _ ?_ ?_ <;> decide

/-- A state with the commit of the bell unit, and who armed it. -/
def State.withCommit (s : State) (c : Option Nat) : State := ({ s with bel := { s.bel with commit := c, decided := none } } : State).armedHere 0

theorem State.armBel_eq (s : State) (b : Nat) : s.armBel b =
    (s.commitRegs b (decide (64 ≤ ahead s b))).withCommit (if decide (64 ≤ ahead s b) = true then some ((s.now : Int) + ahead s b).toNat else none) := by
  unfold State.armBel
  rw [bellOf, bellDist_eq_ahead]
  rfl

/-- BEL_COMMIT_ARM (R51): a commit at least 64 bells ahead is armed, another refused. -/
theorem belCommitArm_sets (s : State) (bell : BitVec 32) :
    let d := ahead s bell.toNat
    ∃ t, exec (.belCommitArm bell) s = .next t ∧ t.f .BEL_COMMIT_BELL = bell.toNat ∧ t.f .BEL_COMMIT_ARM = (if 64 ≤ d then 1 else 0) ∧
      t.f .BEL_COMMIT_STATUS = (if 64 ≤ d then 1 else 2) ∧ t.bel.commit = (if 64 ≤ d then some ((s.now : Int) + d).toNat else none) ∧
      t.bel.decided = none ∧ sameRegs s t (flds [.BEL_COMMIT_BELL, .BEL_COMMIT_ARM, .BEL_COMMIT_STATUS]) ∧
      Map.get 0 t.ctl.armers 0 = 0x10 + s.f .CTL_MASTER_CORE ∧
      { t with regs := s.regs, ctl := { t.ctl with armers := s.ctl.armers }, bel := { t.bel with commit := s.bel.commit, decided := s.bel.decided } } = s := by
  intro d
  obtain ⟨hb, ha, hs, hr⟩ := s.commitRegs_sets bell.toNat (decide (64 ≤ d)) bell.isLt
  have hx : exec (.belCommitArm bell) s = .next ((s.commitRegs bell.toNat (decide (64 ≤ d))).withCommit
      (if decide (64 ≤ d) = true then some ((s.now : Int) + d).toNat else none)) := congrArg Host.Outcome.next (s.armBel_eq _)
  clear_value d
  refine ⟨_, hx, hb, ?_, ?_, by simp only [decide_eq_true_eq]; rfl, rfl, sameRegs_of_regs hr rfl, ?_, rfl⟩
  · exact ha.trans (by simp [b2n])
  · exact hs.trans (by simp)
  · exact (Map.get_set_same ..).trans (congrArg (0x10 + ·) (hr .CTL_MASTER_CORE (by decide +kernel) 0 (by decide)))

theorem State.setInc_sets (s : State) (v : Nat) : (s.setInc .BEL_FT_INC_INC v).f .BEL_FT_INC_INC = min (max v incMin) incMax ∧
    (s.setInc .BEL_FT_INC_INC v).f .BEL_STATUS_INC_CLAMP = (if incMin ≤ v ∧ v ≤ incMax then s.f .BEL_STATUS_INC_CLAMP else 1) ∧
    sameRegs s (s.setInc .BEL_FT_INC_INC v) (flds [.BEL_FT_INC_INC, .BEL_STATUS_INC_CLAMP]) ∧ onlyRegs s (s.setInc .BEL_FT_INC_INC v) := by
  have hm : min (max v incMin) incMax % 2 ^ Fld.BEL_FT_INC_INC.w = min (max v incMin) incMax :=
    Nat.mod_eq_of_lt (Nat.lt_of_le_of_lt (Nat.min_le_right ..) (by decide))
  have h1 : sameRegs s (s.setF .BEL_FT_INC_INC 0 (min (max v incMin) incMax)) (flds [.BEL_FT_INC_INC, .BEL_STATUS_INC_CLAMP]) :=
    sameRegs_setF_flds (sameRegs_refl s _) _ _ _ (by decide) (by decide)
  unfold State.setInc
  extract_lets t
  split_ifs
  · refine ⟨(State.f_setF_same ..).trans hm, State.f_setF_code _ _ _ _ _ _ (by decide), h1, rfl⟩
  · refine ⟨?_, State.f_setF_same .., sameRegs_setF_flds h1 _ _ _ (by decide) (by decide), rfl⟩
    exact (State.f_setF_code _ _ _ _ _ _ (by decide)).trans ((State.f_setF_same ..).trans hm)

/-- Before joining, BEL_FT_SETBELL sets the bell number (R56). -/
theorem State.setBell_sets (s : State) (b : Nat) (hj : s.f .BEL_STATUS_JOINED = 0) (hb : b < 2 ^ 64) :
    (s.setBell b).now = b ∧ sameRegs s (s.setBell b) (flds [.BEL_NOW_BELL]) ∧ onlyRegs s (s.setBell b) := by
  have e : s.setBell b = s.setF .BEL_NOW_BELL 0 b := if_neg (by omega)
  rw [e]
  exact ⟨(State.f_setF_same ..).trans (Nat.mod_eq_of_lt hb), sameRegs_setF_flds (sameRegs_refl s _) _ _ _ (by decide) (by decide), rfl⟩

theorem State.setPhase_now (s : State) (p : Nat) : (s.setPhase p).now = s.now :=
  (State.f_setF_code _ _ _ _ _ _ (by decide)).trans (s.f_setF_code _ _ _ _ _ (by decide))

theorem State.setPhase_sameRegs {s t : State} (p : Nat) (h : sameRegs s t (flds [.BEL_NOW_BELL, .BEL_PHASE_NS, .BEL_PHASE_FRAC])) :
    sameRegs s (t.setPhase p) (flds [.BEL_NOW_BELL, .BEL_PHASE_NS, .BEL_PHASE_FRAC]) :=
  sameRegs_of_regs (sameRegs_setF_flds (sameRegs_setF_flds h .BEL_PHASE_NS 0 (p / 2 ^ 32) (by decide) (by decide))
    .BEL_PHASE_FRAC 0 (p / 2 ^ 16) (by decide) (by decide)) rfl

theorem join_sets (s : State) : ∃ t, exec .join s = .next t ∧ t.f .BEL_STATUS_JOINED = 1 ∧
    sameRegs s t (flds [.BEL_STATUS_JOINED, .BEL_CTRL_JOIN]) ∧ onlyRegs s t := by
  refine ⟨s.joinFabric, rfl, State.f_setF_same .., ?_, rfl⟩
  exact sameRegs_setF_flds (sameRegs_setF_flds (sameRegs_refl s _) _ _ _ (by decide) (by decide)) _ _ _ (by decide) (by decide)

/-- State t is s with bell n and phase p. -/
structure State.Stepped (s t : State) (n p : Nat) : Prop where
  now : t.now = n
  phase : t.bel.phase = p
  regs : sameRegs s t (flds [.BEL_NOW_BELL, .BEL_PHASE_NS, .BEL_PHASE_FRAC])
  rest : { t with regs := s.regs, bel := { t.bel with phase := s.bel.phase } } = s

theorem State.setPhase_stepped (s : State) (p : Nat) : s.Stepped (s.setPhase p) s.now p :=
  ⟨s.setPhase_now p, rfl, State.setPhase_sameRegs p (sameRegs_refl s _), rfl⟩

theorem State.setNow_setPhase_stepped (s : State) {n : Nat} (p : Nat) (hn : n < 2 ^ 64) : s.Stepped ((s.setF .BEL_NOW_BELL 0 n).setPhase p) n p :=
  ⟨(State.setPhase_now ..).trans ((State.f_setF_same ..).trans (Nat.mod_eq_of_lt hn)), rfl,
    State.setPhase_sameRegs p (sameRegs_setF_flds (sameRegs_refl s _) _ _ _ (by decide) (by decide)), rfl⟩

/-- The bells that a step below zero borrows: no more than have passed, and enough to bring the phase to zero or above. -/
theorem borrow_bounds {now span : Nat} {p : Int} (hspan : 0 < span) (hp : p < 0) (ht : 0 ≤ ((now * span : Nat) : Int) + p) :
    ceilDiv (-p).toNat span ≤ now ∧ 0 ≤ p + (ceilDiv (-p).toNat span * span : Nat) := by
  have hk := ceilDiv_bounds (-p).toNat hspan
  generalize ceilDiv (-p).toNat span = k at hk
  have hlt : k * span < (now + 1) * span := by
    rw [Nat.add_mul]
    omega
  exact ⟨Nat.lt_succ_iff.mp (Nat.lt_of_mul_lt_mul_right hlt), by omega⟩

/-- Before joining, BEL_FT_STEP moves bell and phase together by a signed step (R56). -/
theorem State.stepPhase_stepped (s : State) (d : Int) (hspan : 0 < bellUnits s)
    (ht : 0 ≤ ((s.now * bellUnits s : Nat) : Int) + ((s.bel.phase : Int) + d * 2 ^ 16)) :
    ∃ n p, s.Stepped (s.stepPhase d) n p ∧
      ((n * bellUnits s + p : Nat) : Int) = ((s.now * bellUnits s : Nat) : Int) + ((s.bel.phase : Int) + d * 2 ^ 16) ∧
      (0 ≤ (s.bel.phase : Int) + d * 2 ^ 16 → n = s.now) := by
  have hsp : max s.bellSpan 1 = bellUnits s := Nat.max_eq_left hspan
  unfold State.stepPhase
  rw [hsp]
  generalize bellUnits s = span at *
  generalize (s.bel.phase : Int) + d * 2 ^ 16 = p at *
  by_cases hp : 0 ≤ p
  · rw [if_pos hp]
    exact ⟨_, _, s.setPhase_stepped _, by omega, fun _ => rfl⟩
  · rw [if_neg hp]
    dsimp only
    obtain ⟨hk, hpos⟩ := borrow_bounds hspan (not_le.mp hp) ht
    generalize ceilDiv (-p).toNat span = k at hk hpos ⊢
    have hv : ((s.now : Int) - (k : Int)).toNat = s.now - k := by omega
    have hn : s.now - k < 2 ^ 64 := Nat.lt_of_le_of_lt (Nat.sub_le ..) (s.f_lt .BEL_NOW_BELL 0)
    have hm := Nat.mul_le_mul_right span hk
    rw [hv]
    refine ⟨_, _, s.setNow_setPhase_stepped _ hn, ?_, fun h => absurd h hp⟩
    rw [Nat.sub_mul]
    omega

theorem belFtStepWrite_sets (s : State) (step : BitVec 48) (hj : s.f .BEL_STATUS_JOINED = 0) (hspan : 0 < bellUnits s)
    (ht : 0 ≤ ((s.now * bellUnits s + s.bel.phase : Nat) : Int) + step.toInt * 2 ^ 16) :
    ∃ t, exec (.belFtStepWrite step) s = .next t ∧
      ((t.now * bellUnits s + t.bel.phase : Nat) : Int) = ((s.now * bellUnits s + s.bel.phase : Nat) : Int) + step.toInt * 2 ^ 16 ∧
      (0 ≤ (s.bel.phase : Int) + step.toInt * 2 ^ 16 → t.now = s.now) ∧ sameRegs s t (flds [.BEL_NOW_BELL, .BEL_PHASE_NS, .BEL_PHASE_FRAC]) ∧
      { t with regs := s.regs, bel := { t.bel with phase := s.bel.phase } } = s := by
  have hx : exec (.belFtStepWrite step) s = .next (s.stepPhase step.toInt) := congrArg Host.Outcome.next (if_neg (by omega))
  rw [Nat.cast_add, add_assoc] at ht ⊢
  obtain ⟨n, p, ⟨hnow, hphase, hregs, hrest⟩, hsum, hn⟩ := s.stepPhase_stepped step.toInt hspan ht
  refine ⟨_, hx, ?_, fun h => hnow.trans (hn h), hregs, hrest⟩
  rw [hnow, hphase]
  exact hsum

theorem State.setParent_sets (s : State) (p a e : Nat) (hp : p < 64) (ha : a < 64) (he : e < 2) :
    (s.setParent p a e).f .BEL_PARENT_PARENT = p ∧ (s.setParent p a e).f .BEL_PARENT_ALT = a ∧ (s.setParent p a e).f .BEL_PARENT_ALT_EN = e ∧
      (s.setParent p a e).f .BEL_STATUS_ALT_ACTIVE = 0 ∧
      sameRegs s (s.setParent p a e) (flds [.BEL_PARENT_PARENT, .BEL_PARENT_ALT, .BEL_PARENT_ALT_EN, .BEL_STATUS_ALT_ACTIVE, .BEL_STATUS_PARENT_FRESH]) := by
  unfold State.setParent
  extract_lets s1 s2
  have hs (g : Fld) (h : (Fld.BEL_STATUS_ALT_ACTIVE.code % 1024 == g.code % 1024) = false ∧
      (Fld.BEL_STATUS_PARENT_FRESH.code % 1024 == g.code % 1024) = false) :
      s2.f g = s1.f g := (State.f_setF_code _ _ _ _ _ _ h.2).trans (State.f_setF_code _ _ _ _ _ _ h.1)
  refine ⟨(hs _ (by decide)).trans ?_, (hs _ (by decide)).trans ?_, (hs _ (by decide)).trans ?_, ?_, ?_⟩
  · rw [State.f_setF_code _ _ _ _ _ _ (by decide), State.f_setF_code _ _ _ _ _ _ (by decide), State.f_setF_same]
    exact Nat.mod_eq_of_lt hp
  · rw [State.f_setF_code _ _ _ _ _ _ (by decide), State.f_setF_same]
    exact Nat.mod_eq_of_lt ha
  · rw [State.f_setF_same]
    exact Nat.mod_eq_of_lt he
  · exact (State.f_setF_code _ _ _ _ _ _ (by decide)).trans (State.f_setF_same ..)
  · refine sameRegs_of_regs (sameRegs_setF_flds (sameRegs_setF_flds (sameRegs_setF_flds (sameRegs_setF_flds (sameRegs_setF_flds (sameRegs_refl s _)
      .BEL_PARENT_PARENT 0 p ?_ ?_) .BEL_PARENT_ALT 0 a ?_ ?_) .BEL_PARENT_ALT_EN 0 e ?_ ?_) .BEL_STATUS_ALT_ACTIVE 0 0 ?_ ?_)
      .BEL_STATUS_PARENT_FRESH 0 _ ?_ ?_) rfl <;> decide

/-- BEL_PARENT_WRITE (R54): the two slots, the first of them active. -/
theorem belParentWrite_sets (s : State) (v : BitVec 32) :
    ∃ t, exec (.belParentWrite v) s = .next t ∧ t.f .BEL_PARENT_PARENT = v.toNat % 64 ∧ t.f .BEL_PARENT_ALT = v.toNat / 256 % 64 ∧
      t.f .BEL_PARENT_ALT_EN = v.toNat / 2 ^ 15 % 2 ∧ t.f .BEL_STATUS_ALT_ACTIVE = 0 ∧ t.bel.noMark = 0 ∧
      sameRegs s t (flds [.BEL_PARENT_PARENT, .BEL_PARENT_ALT, .BEL_PARENT_ALT_EN, .BEL_STATUS_ALT_ACTIVE, .BEL_STATUS_PARENT_FRESH]) ∧
      { t with regs := s.regs, bel := { t.bel with noMark := s.bel.noMark, freshFor := s.bel.freshFor } } = s := by
  have hf : field v.toNat 0 6 = v.toNat % 64 ∧ field v.toNat 8 6 = v.toNat / 256 % 64 ∧ field v.toNat 15 1 = v.toNat / 2 ^ 15 % 2 := by simp [field]
  have hx : exec (.belParentWrite v) s = .next (s.setParent (field v.toNat 0 6) (field v.toNat 8 6) (field v.toNat 15 1)) := rfl
  rw [hf.1, hf.2.1, hf.2.2] at hx
  obtain ⟨hp, ha, he, hact, hr⟩ := s.setParent_sets (v.toNat % 64) (v.toNat / 256 % 64) (v.toNat / 2 ^ 15 % 2)
    (Nat.mod_lt _ (by decide)) (Nat.mod_lt _ (by decide)) (Nat.mod_lt _ (by decide))
  exact ⟨_, hx, hp, ha, he, hact, rfl, hr, rfl⟩

/-- The registers at a holdover's entry: the other slot becomes active where the parent may alternate. -/
def State.holdoverRegs (s : State) : State :=
  if s.f .BEL_PARENT_ALT_EN = 1 then (s.setF .BEL_STATUS_HOLDOVER 0 1).setF .BEL_STATUS_ALT_ACTIVE 0 (1 - s.f .BEL_STATUS_ALT_ACTIVE)
  else s.setF .BEL_STATUS_HOLDOVER 0 1

theorem State.holdoverRegs_sets (s : State) : s.holdoverRegs.f .BEL_STATUS_HOLDOVER = 1 ∧
    s.holdoverRegs.f .BEL_STATUS_ALT_ACTIVE = (if s.f .BEL_PARENT_ALT_EN = 1 then 1 - s.f .BEL_STATUS_ALT_ACTIVE else s.f .BEL_STATUS_ALT_ACTIVE) ∧
    s.holdoverRegs.now = s.now ∧ s.holdoverRegs.topo = s.topo ∧ sameRegs s s.holdoverRegs (flds [.BEL_STATUS_HOLDOVER, .BEL_STATUS_ALT_ACTIVE]) := by
  have h1 : sameRegs s (s.setF .BEL_STATUS_HOLDOVER 0 1) (flds [.BEL_STATUS_HOLDOVER, .BEL_STATUS_ALT_ACTIVE]) :=
    sameRegs_setF_flds (sameRegs_refl s _) _ _ _ (by decide) (by decide)
  have hn : (s.setF .BEL_STATUS_HOLDOVER 0 1).now = s.now := s.f_setF_code _ _ _ _ _ (by decide)
  unfold State.holdoverRegs
  split_ifs
  · refine ⟨(State.f_setF_code _ _ _ _ _ _ (by decide)).trans (State.f_setF_same ..), ?_, (State.f_setF_code _ _ _ _ _ _ (by decide)).trans hn, rfl,
      sameRegs_setF_flds h1 _ _ _ (by decide) (by decide)⟩
    exact (State.f_setF_same ..).trans (Nat.mod_eq_of_lt (Nat.lt_of_le_of_lt (Nat.sub_le ..) (by decide)))
  · exact ⟨State.f_setF_same .., State.f_setF_code _ _ _ _ _ _ (by decide), hn, rfl, h1⟩

/-- HOLDOVER_ENTRY (R54, R281). -/
theorem holdoverEntry_sets (s : State) :
    let due := s.f .BEL_CTRL_ROOT = 0 ∧ max (s.f .BEL_HOLD_LIMIT_BELLS) 1 ≤ s.bel.noMark
    (¬due → exec .holdoverEntry s = .next s) ∧
    (due → ∃ t, exec .holdoverEntry s = .next t ∧ t.f .BEL_STATUS_HOLDOVER = 1 ∧
      t.f .BEL_STATUS_ALT_ACTIVE = (if s.f .BEL_PARENT_ALT_EN = 1 then 1 - s.f .BEL_STATUS_ALT_ACTIVE else s.f .BEL_STATUS_ALT_ACTIVE) ∧ t.bel.noMark = 0 ∧
      (s.f .BEL_STATUS_HOLDOVER = 0 → ∃ p, t.topo.toSend = s.topo.toSend ++ [⟨s.f .LNK_PEER_CHIP p, 0x5, s.now, p⟩]) ∧
      (s.f .BEL_STATUS_HOLDOVER = 1 → t.topo = s.topo) ∧ sameRegs s t (flds [.BEL_STATUS_HOLDOVER, .BEL_STATUS_ALT_ACTIVE])) := by
  intro due
  have hroot : s.f .BEL_CTRL_ROOT < 2 := s.f_lt .BEL_CTRL_ROOT 0
  obtain ⟨hh, ha, hn, ht, hr⟩ := s.holdoverRegs_sets
  refine ⟨fun hd => congrArg Host.Outcome.next (if_pos ?_), fun ⟨h0, hm⟩ => ?_⟩
  · by_contra hc
    exact hd (by omega)
  · have hx : exec .holdoverEntry s = .next (if s.f .BEL_STATUS_HOLDOVER = 1 then
        { s.holdoverRegs with bel := { s.holdoverRegs.bel with noMark := 0, freshFor := 0 } }
        else ({ s.holdoverRegs with bel := { s.holdoverRegs.bel with noMark := 0, freshFor := 0 } } : State).raiseNotice 0x5
          (s.f .LNK_PEER_CHIP s.parentLink) s.parentLink) := congrArg Host.Outcome.next (if_neg (by omega))
    split_ifs at hx with hv
    · exact ⟨_, hx, hh, ha, rfl, fun h => absurd (hv.symm.trans h) (by decide), fun _ => ht, sameRegs_of_regs hr rfl⟩
    · refine ⟨_, hx, hh, ha, rfl, fun _ => ⟨s.parentLink, ?_⟩, fun h => absurd h hv, sameRegs_of_regs hr rfl⟩
      rw [← hn, ← ht]
      rfl

/-- Settles O41: each command of the bell unit by the lemma above that says what it sets. -/
theorem bellUnit : Obligations.BellUnit := by
  refine ⟨bellPulse_sets, belCommitArm_sets, fun s inc => ⟨_, rfl, s.setInc_sets inc.toNat⟩, fun s bell step hj => ⟨?_, ?_⟩,
    fun s bell step hj => ⟨?_, ?_⟩, join_sets, belParentWrite_sets, holdoverEntry_sets⟩
  · exact congrArg Host.Outcome.next (if_pos hj)
  · exact congrArg Host.Outcome.next (if_pos hj)
  · exact ⟨_, rfl, s.setBell_sets bell.toNat hj bell.isLt⟩
  · exact fun hspan ht => belFtStepWrite_sets s step hj hspan ht

end Sys2Proof.Machine
end

section
/-!
SUPPORT for O22. Lanes: a vector register and a predicate as lists of lanes, and the held lanes of a predicate in rising order (R87).
-/
namespace Sys2Proof.Machine

/-! ### Registers from their lanes -/

/-- Digit i of the number that lists its digits of w bits, the lowest first. -/
theorem field_digits (w : Nat) (es : List Nat) (i : Nat) :
    field (es.foldr (fun e a => e % 2 ^ w + a * 2 ^ w) 0) (w * i) w = es.getD i 0 % 2 ^ w := by
  have hw : 0 < 2 ^ w := Nat.two_pow_pos w
  induction es generalizing i with
  | nil => simp [field]
  | cons e es ih =>
    cases i with
    | zero => simp [field]
    | succ i =>
      have hs : (e % 2 ^ w + List.foldr (fun e a => e % 2 ^ w + a * 2 ^ w) 0 es * 2 ^ w) / 2 ^ w =
          List.foldr (fun e a => e % 2 ^ w + a * 2 ^ w) 0 es := by
        rw [Nat.add_mul_div_right _ _ hw, Nat.div_eq_of_lt (Nat.mod_lt _ hw), Nat.zero_add]
      have hp : 2 ^ (w * (i + 1)) = 2 ^ w * 2 ^ (w * i) := by rw [Nat.mul_succ, Nat.add_comm, Nat.pow_add]
      rw [List.foldr_cons, field, hp, ← Nat.div_div_eq_div_mul, hs]
      exact ih i

/-- Bits above the field do not show in it. -/
theorem field_mod_two_pow (x n lo w : Nat) (h : lo + w ≤ n) : field (x % 2 ^ n) lo w = field x lo w := by
  apply Nat.eq_of_testBit_eq
  intro j
  simp only [field, Nat.testBit_mod_two_pow, Nat.testBit_div_two_pow]
  by_cases hj : j < w
  · simp [show j + lo < n by omega]
  · simp [hj]

theorem elem_packElems (w : Nat) (es : List Nat) (i : Nat) (h : w * i + w ≤ 8192) : elem (packElems w es) w i = es.getD i 0 % 2 ^ w := by
  simp only [elem, packElems, BitVec.toNat_ofNat, field_mod_two_pow _ _ _ _ h, field_digits]

theorem testBit_bits (bs : List Bool) (i : Nat) : (bs.foldr (fun b a => b2n b + a * 2) 0).testBit i = bs.getD i false := by
  induction bs generalizing i with
  | nil => simp
  | cons b bs ih =>
    have hb : b2n b < 2 := by cases b <;> decide
    cases i with
    | zero => cases b <;> simp [b2n, Nat.testBit_zero]
    | succ i =>
      rw [List.foldr_cons, Nat.testBit_succ, show (b2n b + bs.foldr (fun b a => b2n b + a * 2) 0 * 2) / 2 = bs.foldr (fun b a => b2n b + a * 2) 0 by omega]
      exact ih i

theorem testBit_packBits (bs : List Bool) (i : Nat) (h : i < 256) : (packBits bs).toNat.testBit i = bs.getD i false := by
  rw [packBits, BitVec.toNat_ofNat, Nat.testBit_mod_two_pow, testBit_bits]
  simp [h]

/-! ### The held lanes in rising order -/

section Ranks

variable {p : Nat → Bool} {n i : Nat}

/-- A number that p holds stands, among those below n in rising order, at the place that its rank names. -/
theorem getElem?_filter_range (hi : i < n) (hp : p i = true) :
    ((List.range n).filter p)[((List.range i).filter p).length]? = some i := by
  obtain ⟨k, rfl⟩ := Nat.exists_eq_add_of_lt hi
  rw [Nat.add_assoc, List.range_add, List.filter_append, List.getElem?_append_right le_rfl, Nat.sub_self, List.range_succ_eq_map]
  simp [hp]

theorem length_filter_range_lt (hi : i < n) (hp : p i = true) : ((List.range i).filter p).length < ((List.range n).filter p).length :=
  (List.getElem?_eq_some_iff.mp (getElem?_filter_range hi hp)).1

/-- The numbers that a list of the first `room` leaves over are those of rank `room` and above. -/
theorem mem_drop_filter_range (room : Nat) (hi : i < n) :
    i ∈ ((List.range n).filter p).drop room ↔ p i = true ∧ room ≤ ((List.range i).filter p).length := by
  constructor
  · intro hm
    have hp : p i = true := (List.mem_filter.mp (List.mem_of_mem_drop hm)).2
    obtain ⟨k, hk⟩ := List.mem_iff_getElem?.mp hm
    rw [List.getElem?_drop] at hk
    have hr := getElem?_filter_range hi hp
    have hd : ((List.range n).filter p).Nodup := List.nodup_range.filter p
    have he : ((List.range i).filter p).length = room + k :=
      (List.getElem?_inj (length_filter_range_lt hi hp) hd).mp (hr.trans hk.symm)
    exact ⟨hp, by omega⟩
  · rintro ⟨hp, hr⟩
    refine List.mem_iff_getElem?.mpr ⟨((List.range i).filter p).length - room, ?_⟩
    rw [List.getElem?_drop, Nat.add_sub_cancel' hr]
    exact getElem?_filter_range hi hp

/-- Of the numbers below n, those below i are the numbers below i. -/
theorem filter_lt_filter_range (hi : i ≤ n) : ((List.range n).filter p).filter (fun j => decide (j < i)) = (List.range i).filter p := by
  obtain ⟨k, rfl⟩ := Nat.exists_eq_add_of_le hi
  have hlow : ((List.range i).filter p).filter (fun j => decide (j < i)) = (List.range i).filter p :=
    List.filter_eq_self.mpr fun j hj => decide_eq_true (List.mem_range.mp (List.mem_of_mem_filter hj))
  have hhigh : (((List.range k).map (i + ·)).filter p).filter (fun j => decide (j < i)) = [] := by
    refine List.filter_eq_nil_iff.mpr fun j hj => ?_
    obtain ⟨m, -, rfl⟩ := List.mem_map.mp (List.mem_of_mem_filter hj)
    simp
  rw [List.range_add, List.filter_append, List.filter_append, hlow, hhigh, List.append_nil]

end Ranks

end Sys2Proof.Machine
end

section
/-!
SUPPORT for O22. The registers of a core: what a read gives after a write of one, what a write leaves alone, and what a packet of one slot makes of the
registers of the device and of memory.
-/
namespace Sys2Proof.Machine

/-! ### Writes of a core's registers -/

@[simp] theorem State.core_modCore_same (s : State) (c : Nat) (f : Core → Core) : (s.modCore c f).core c = f (s.core c) := State.core_setCore_same ..

@[simp] theorem State.core_setVr (s : State) (c : Nat) (q : BitVec 5) (v : VReg) :
    (s.setVr c q v).core c = { s.core c with vregs := Map.set 0 (s.core c).vregs q.toNat v } := State.core_modCore_same ..

@[simp] theorem State.core_setSr (s : State) (c : Nat) (q : BitVec 5) (v : Nat) :
    (s.setSr c q v).core c =
      { s.core c with sregs := if q = 0 then (s.core c).sregs else Map.set 0 (s.core c).sregs q.toNat (BitVec.ofNat 64 v) } := by
  unfold State.setSr
  split_ifs
  · rfl
  · exact State.core_modCore_same ..

@[simp] theorem State.core_setPr (s : State) (c : Nat) (q : BitVec 3) (v : PReg) :
    (s.setPr c q v).core c = { s.core c with pregs := if q = 0 then (s.core c).pregs else Map.set 0 (s.core c).pregs q.toNat v } := by
  unfold State.setPr
  split_ifs
  · rfl
  · exact State.core_modCore_same ..

@[simp] theorem State.setVr_regs (s : State) (c : Nat) (q : BitVec 5) (v : VReg) : (s.setVr c q v).regs = s.regs := rfl

@[simp] theorem State.setSr_regs (s : State) (c : Nat) (q : BitVec 5) (v : Nat) : (s.setSr c q v).regs = s.regs := by
  unfold State.setSr
  split_ifs <;> rfl

@[simp] theorem State.setPr_regs (s : State) (c : Nat) (q : BitVec 3) (v : PReg) : (s.setPr c q v).regs = s.regs := by
  unfold State.setPr
  split_ifs <;> rfl

@[simp] theorem State.core_bump (s : State) (fl : Fld) (i k j : Nat) : (s.bump fl i k).core j = s.core j := rfl

theorem onlyCore_refl (s : State) (c : Nat) : onlyCore s s c := (quietCore_refl s c).1

theorem onlyCore_setVr (s : State) (c : Nat) (q : BitVec 5) (v : VReg) : onlyCore s (s.setVr c q v) c := onlyCore_modCore ..

theorem onlyCore_setSr (s : State) (c : Nat) (q : BitVec 5) (v : Nat) : onlyCore s (s.setSr c q v) c := by
  unfold State.setSr
  split_ifs
  · exact onlyCore_refl s c
  · exact onlyCore_modCore ..

theorem onlyCore_setPr (s : State) (c : Nat) (q : BitVec 3) (v : PReg) : onlyCore s (s.setPr c q v) c := by
  unfold State.setPr
  split_ifs
  · exact onlyCore_refl s c
  · exact onlyCore_modCore ..

theorem onlyCore_bump (s : State) (fl : Fld) (i k c : Nat) : onlyCore s (s.bump fl i k) c := (quietCore_setF s fl i _ c).1

/-! ### Reads of a core's registers -/

section Reads

variable {s t : State} {c : Nat}

theorem gpr_congr (h : (t.core c).sregs = (s.core c).sregs) (r : BitVec 5) : gpr t c r = gpr s c r := by
  simp only [gpr, State.sr, h]

theorem vr_congr (h : (t.core c).vregs = (s.core c).vregs) (r : BitVec 5) : t.vr c r = s.vr c r := by
  simp only [State.vr, h]

theorem pr_congr (h : (t.core c).pregs = (s.core c).pregs) (p : BitVec 3) : t.pr c p = s.pr c p := by
  simp only [State.pr, h]

/-- Scalar registers after a write of one (R63). -/
theorem gpr_of_written {q : BitVec 5} {v : Nat}
    (h : (t.core c).sregs = if q = 0 then (s.core c).sregs else Map.set 0 (s.core c).sregs q.toNat (BitVec.ofNat 64 v)) (r : BitVec 5) :
    gpr t c r = if r = q ∧ r ≠ 0 then BitVec.ofNat 64 v else gpr s c r := by
  by_cases hq : q = 0
  · rw [if_pos hq] at h
    rw [if_neg (by rintro ⟨rfl, hr⟩; exact hr hq)]
    exact gpr_congr h r
  · rw [if_neg hq] at h
    by_cases hr : r = q
    · subst hr
      rw [if_pos ⟨rfl, hq⟩, gpr, State.sr, if_neg hq, h, Map.get_set_same, BitVec.ofNat_toNat, BitVec.setWidth_eq]
    · have hn : r.toNat ≠ q.toNat := fun e => hr (BitVec.eq_of_toNat_eq e)
      simp [gpr, State.sr, h, hr, Map.get_set_other _ _ _ _ hn]

theorem vr_of_written {q : BitVec 5} {v : VReg} (h : (t.core c).vregs = Map.set 0 (s.core c).vregs q.toNat v) :
    t.vr c q = v ∧ ∀ r, r ≠ q → t.vr c r = s.vr c r := by
  refine ⟨?_, fun r hr => ?_⟩
  · rw [State.vr, h, Map.get_set_same]
  · rw [State.vr, h, Map.get_set_other _ _ _ _ fun e => hr (BitVec.eq_of_toNat_eq e)]
    rfl

/-- Predicates after a write of one (R63). -/
theorem pr_of_written {q : BitVec 3} {v : PReg}
    (h : (t.core c).pregs = if q = 0 then (s.core c).pregs else Map.set 0 (s.core c).pregs q.toNat v) :
    (q ≠ 0 → t.pr c q = v) ∧ ∀ p, p ≠ q → t.pr c p = s.pr c p := by
  by_cases hq : q = 0
  · rw [if_pos hq] at h
    exact ⟨fun h0 => absurd hq h0, fun p _ => pr_congr h p⟩
  · rw [if_neg hq] at h
    refine ⟨fun _ => ?_, fun p hp => ?_⟩
    · rw [State.pr, if_neg hq, h, Map.get_set_same]
    · rw [State.pr, h, Map.get_set_other _ _ _ _ fun e => hp (BitVec.eq_of_toNat_eq e)]
      rfl

end Reads

/-- The signed reading of a scalar register. -/
theorem signed_sr (s : State) (c : Nat) (r : BitVec 5) : signed 64 (s.sr c r) = (gpr s c r).toInt := by
  simp only [signed, gpr, BitVec.toInt_eq_toNat_cond, BitVec.toNat_ofNat]
  omega

/-! ### A packet of one slot -/

theorem fldsAt_false {l : List Fld} {g : Fld} (h : touches l g = false) (n i : Nat) : fldsAt l n g i = false := by
  simp [fldsAt, h]

theorem fldsAt_code {l : List Fld} {g : Fld} (h : touches l g = true) (n : Nat) : ∀ fl, fl.code = g.code → fldsAt l n fl n = true := by
  intro fl hc
  simp [fldsAt, touches_code l hc h]

/-- A counter after a count (R16). -/
theorem State.f_bump_same (s : State) (fl : Fld) (i k : Nat) : (s.bump fl i k).f fl i = min (s.f fl i + k) (2 ^ fl.w - 1) := by
  have hw : 0 < 2 ^ fl.w := Nat.two_pow_pos _
  exact (State.f_setF_same ..).trans (Nat.mod_eq_of_lt (by omega))

theorem quietCore_sregs {s t : State} {c : Nat} (h : quietCore s t c) : (t.core c).sregs = (s.core c).sregs := (congrArg Core.sregs h.2 :)

theorem quietCore_vregs {s t : State} {c : Nat} (h : quietCore s t c) : (t.core c).vregs = (s.core c).vregs := (congrArg Core.vregs h.2 :)

theorem quietCore_pregs {s t : State} {c : Nat} (h : quietCore s t c) : (t.core c).pregs = (s.core c).pregs := (congrArg Core.pregs h.2 :)

/-- Parts of the core that `put` restores may differ from a counted state's: the frame asks for no more. -/
theorem counted_put {s s1 : State} {c : Nat} (h : counted s s1 c) (put : Core → Core → Core) (hput : put (s.core c) (s.core c) = s.core c) {l : Core}
    (hl : put (s.core c) (issueCore (s.core c) l) = put (s.core c) (issueCore (s.core c) (s1.core c))) :
    put (s.core c) (issueCore (s.core c) l) = s.core c := by
  rw [hl, h.2.1.2, hput]

/-- The fields that issuing a packet may change. -/
def issueFlds : List Fld :=
  [.CORE_PC_PC, .CORE_STATUS_STATE, .CORE_STATUS_WAIT_KIND, .PMC_CYCLES_CYCLES, .PMC_STATUS_SAT, .PMC_STORE_CE_COUNT, .MXE_WAIT_CYC_CYCLES,
   .PMC_CNT_COUNT]

theorem issueTouch_false {g : Fld} (h : touches issueFlds g = false) (n i : Nat) : issueTouch n g i = false := by
  have hc : touches [.PMC_CNT_COUNT] g = false := touches_mono (by decide) h
  rw [issueTouch, fldsAt_false (touches_mono (by decide) h), hc]
  rfl

/-- The fields that the counting and the scoreboard may change. -/
def counterFlds : List Fld := [.PMC_CYCLES_CYCLES, .PMC_STATUS_SAT, .MXE_WAIT_CYC_CYCLES, .PMC_CNT_COUNT]

/-- Another field reads in a counted state as before it. -/
theorem counted_f {s s1 : State} {n : Nat} (h : counted s s1 n) {g : Fld} (hm : g ∈ allFlds) (hg : touches counterFlds g = false) (i : Nat) :
    s1.f g i = s.f g i := by
  refine h.1 g hm i ?_
  have hc : touches [.PMC_CNT_COUNT] g = false := touches_mono (by decide) hg
  rw [counterTouch, fldsAt_false (touches_mono (by decide) hg), hc]
  rfl

/-- An issue that goes on at the next packet, as `one_seq` gives it, and the registers after the slot's effect: of those, the packet's end changes the
PC, the state and the wait of the core alone. -/
theorem one_seq_regs (n slot : Nat) (i : Instr) (m : Sem) (s : State) (hi : canIssue s n) (hf : m.faults = []) (hw : m.wait = 0) (hc : m.ctl = .seq)
    (touch : Fld → Nat → Bool) (put : Core → Core → Core)
    (hr : ∀ s1, counted s s1 n → sameRegs s1 (m.run s1) touch ∧ onlyCore s1 (m.run s1) n ∧
      put (s.core n) (issueCore (s.core n) ((m.run s1).core n)) = s.core n ∧ ((m.run s1).core n).loops = (s1.core n).loops)
    (ht : touch .CORE_PC_PC n = false) (hg : touch .CORE_PROG_SIZE n = false) :
    ∃ s1 t, counted s s1 n ∧ one n slot i m s = .next t ∧ wentOn s t n ∧ coreFrame s t n touch put ∧ quietCore (m.run s1) t n ∧
      sameRegs (m.run s1) t (fldsAt [.CORE_PC_PC, .CORE_STATUS_STATE, .CORE_STATUS_WAIT_KIND] n) := by
  obtain ⟨s1, h1, e⟩ := one_run n slot i m s hi.1.1 hi.1.2 hf hw
  obtain ⟨-, t, -, et, hwent, hframe, -⟩ := one_seq n slot i m s hi hf hw hc touch put hr ht hg
  obtain rfl : wrapUp n m.ctl (m.run s1) = t := Host.Outcome.next.inj (e.symm.trans et)
  obtain ⟨hregs, -, -, hloops⟩ := hr s1 h1
  have hpc : (m.run s1).f .CORE_PC_PC n = s.f .CORE_PC_PC n :=
    (hregs _ (by decide +kernel) _ ht).trans (counted_f h1 (by decide +kernel) (by decide) n)
  have hsize : (m.run s1).progPackets n = s.progPackets n := congrArg (fun k => (k + 1) * 4096)
    ((hregs .CORE_PROG_SIZE (by decide +kernel) n hg).trans (counted_f h1 (by decide +kernel) (by decide) n))
  have hnext : (nextPc m.ctl ((m.run s1).core n).loops ((m.run s1).f .CORE_PC_PC n)).2 < (m.run s1).progPackets n := by
    rw [hc, hpc, hsize, hloops, h1.2.2]
    exact hi.2
  obtain ⟨hend, hquiet, -⟩ := wrapUp_seq n m.ctl (m.run s1) (by simp [hc]) hnext
  exact ⟨s1, _, h1, e, hwent, hframe, hquiet, hend⟩

/-- An issue that leaves the store of its core and the fused cores alone leaves memory alone. -/
theorem sameBytes_of_coreFrame {s t : State} {c : Nat} {touch : Fld → Nat → Bool} {put : Core → Core → Core} (h : coreFrame s t c touch put)
    (hs : (t.core c).store = (s.core c).store) (hlo : touch .CHIP_FUSE_LO_EN 0 = false) (hhi : touch .CHIP_FUSE_HI_EN 0 = false) :
    sameBytes s t := by
  obtain ⟨hregs, ⟨hrest, hcores⟩, -⟩ := h
  have hf (g : Fld) (hm : g ∈ allFlds) (hi : touches issueFlds g = false) (hg : touch g 0 = false) : t.f g = s.f g :=
    hregs g hm 0 (Bool.or_eq_false_iff.mpr ⟨issueTouch_false hi c 0, hg⟩)
  have hen (n : Nat) : t.enabled n = s.enabled n :=
    State.enabled_congr (hf .CHIP_FUSE_LO_EN (by decide +kernel) (by decide) hlo) (hf .CHIP_FUSE_HI_EN (by decide +kernel) (by decide) hhi) n
  have hstore (n : Nat) : (t.core n).store = (s.core n).store := by
    by_cases hn : n = c
    · rw [hn, hs]
    · rw [hcores n hn]
  have hhbm : t.hbm = s.hbm := (congrArg State.hbm hrest :)
  have hctl : t.ctl = s.ctl := (congrArg State.ctl hrest :)
  intro x
  simp only [State.rdByte, hhbm, hctl, hen, hstore]

end Sys2Proof.Machine
end

section
/-!
PROOF of O22. PACK and UNPACK (R87, R88): their effect on a counted state as writes of registers, then the statement lane by lane.
-/
namespace Sys2Proof.Machine

theorem lane_of_packElems {t : State} {c : Nat} {r : BitVec 5} {es : List Nat} (h : t.vr c r = packElems 32 es) {k : Nat} (hk : k < 256) :
    lane t c r k = BitVec.ofNat 32 (es.getD k 0) := by
  rw [lane, h, elem_packElems _ _ _ (by omega)]
  exact BitVec.eq_of_toNat_eq (by simp)

theorem lane_congr {s t : State} {c : Nat} {r : BitVec 5} (h : t.vr c r = s.vr c r) (k : Nat) : lane t c r k = lane s c r k := by
  rw [lane, lane, h]

theorem rank_le (s : State) (c : Nat) (p : BitVec 3) (i : Nat) : rank s c p i ≤ i := (List.length_filter_le ..).trans_eq List.length_range

/-! ### PACK -/

/-- The rows that PACK finds free: s[sc] - s[sf], at least 0. -/
def packRoom (s : State) (c : Nat) (sc sf : BitVec 5) : Nat := ((gpr s c sc).toInt - (gpr s c sf).toInt).toNat

/-- The lanes that PACK moves, in rising order. -/
def packMoved (s : State) (c : Nat) (pm : BitVec 3) (room : Nat) : List Nat := (setLanes (s.pr c pm)).take room

/-- The lanes for which PACK finds no room, in rising order. -/
def packSpilled (s : State) (c : Nat) (pm : BitVec 3) (room : Nat) : List Nat := (setLanes (s.pr c pm)).drop room

/-- The lanes of vd after PACK. -/
def packLanes (s : State) (c : Nat) (pm : BitVec 3) (vs : BitVec 5) (room : Nat) : List Nat :=
  (packMoved s c pm room).map (elem (s.vr c vs) 32) ++ List.replicate (256 - (packMoved s c pm room).length) 0xFFFFFFFF

/-- The bits of pd after PACK. -/
def packMask (s : State) (c : Nat) (pm : BitVec 3) (room : Nat) : List Bool := (List.range 256).map (fun i => (packSpilled s c pm room).contains i)

theorem packMoved_length (s : State) (c : Nat) (pm : BitVec 3) (room : Nat) : (packMoved s c pm room).length = min (rank s c pm 256) room :=
  (List.length_take ..).trans (Nat.min_comm ..)

theorem packSpilled_length (s : State) (c : Nat) (pm : BitVec 3) (room : Nat) : (packSpilled s c pm room).length = rank s c pm 256 - room :=
  List.length_drop ..

/-- A held lane that finds room moves to the place its rank names. -/
theorem packLanes_moved {s : State} {c : Nat} {pm : BitVec 3} {room i : Nat} (vs : BitVec 5) (hi : i < 256) (hp : holds s c pm i = true)
    (hr : rank s c pm i < room) : (packLanes s c pm vs room).getD (rank s c pm i) 0 = elem (s.vr c vs) 32 i := by
  have hm : (packMoved s c pm room)[rank s c pm i]? = some i := (List.getElem?_take_of_lt hr).trans (getElem?_filter_range hi hp)
  rw [List.getD_eq_getElem?_getD, packLanes, List.getElem?_append_left (by simpa using (List.getElem?_eq_some_iff.mp hm).1), List.getElem?_map, hm]
  rfl

theorem packLanes_rest {s : State} {c : Nat} {pm : BitVec 3} {room k : Nat} (vs : BitVec 5) (hk : k < 256) (hr : min (rank s c pm 256) room ≤ k) :
    (packLanes s c pm vs room).getD k 0 = 0xFFFFFFFF := by
  rw [← packMoved_length] at hr
  rw [List.getD_eq_getElem?_getD, packLanes, List.getElem?_append_right (by simpa using hr), List.length_map, List.getElem?_replicate,
    if_pos (by omega)]
  rfl

theorem packMask_bit {s : State} {c : Nat} {pm : BitVec 3} {room i : Nat} (hi : i < 256) :
    (packMask s c pm room).getD i false = (holds s c pm i && decide (room ≤ rank s c pm i)) := by
  have hs : i ∈ packSpilled s c pm room ↔ holds s c pm i = true ∧ room ≤ rank s c pm i := mem_drop_filter_range room hi
  rw [packMask, List.getD_eq_getElem?_getD, List.getElem?_map, List.getElem?_range hi]
  simp [hs]

/-- PACK's effect, write by write. -/
theorem semPack_run (c : CoreId) (sc sf : BitVec 5) (pd pm : BitVec 3) (vs vd : BitVec 5) (s t : State) :
    (semPack c sc sf pd pm vs vd s).run t =
      ((((t.setVr c vd (packElems 32 (packLanes s c pm vs (packRoom s c sc sf)))).setPr c pd (packBits (packMask s c pm (packRoom s c sc sf)))).setSr c sf
        (s.sr c sf + (packMoved s c pm (packRoom s c sc sf)).length)).bump .CORE_PACK_OVF_STEP_OVF c
        (packSpilled s c pm (packRoom s c sc sf)).length).bump .CORE_PACK_OVF_TOTAL c (packSpilled s c pm (packRoom s c sc sf)).length := by
  have hroom : (max 0 (signed 64 (s.sr c sc) - signed 64 (s.sr c sf))).toNat = packRoom s c sc sf := by
    rw [signed_sr, signed_sr, packRoom]
    omega
  rw [← hroom]
  rfl

theorem core_semPack_run (c : CoreId) (sc sf : BitVec 5) (pd pm : BitVec 3) (vs vd : BitVec 5) (s t : State) :
    ((semPack c sc sf pd pm vs vd s).run t).core c = { t.core c with
      vregs := Map.set 0 (t.core c).vregs vd.toNat (packElems 32 (packLanes s c pm vs (packRoom s c sc sf)))
      pregs := if pd = 0 then (t.core c).pregs else Map.set 0 (t.core c).pregs pd.toNat (packBits (packMask s c pm (packRoom s c sc sf)))
      sregs := if sf = 0 then (t.core c).sregs else Map.set 0 (t.core c).sregs sf.toNat
        (BitVec.ofNat 64 (s.sr c sf + (packMoved s c pm (packRoom s c sc sf)).length)) } := by
  rw [semPack_run]
  simp only [State.core_bump, State.core_setSr, State.core_setPr, State.core_setVr]

theorem onlyCore_semPack_run (c : CoreId) (sc sf : BitVec 5) (pd pm : BitVec 3) (vs vd : BitVec 5) (s t : State) :
    onlyCore t ((semPack c sc sf pd pm vs vd s).run t) c := by
  rw [semPack_run]
  exact onlyCore_trans (onlyCore_setVr ..) <| onlyCore_trans (onlyCore_setPr ..) <| onlyCore_trans (onlyCore_setSr ..) <|
    onlyCore_trans (onlyCore_bump ..) (onlyCore_bump ..)

theorem semPack_run_frame {s s1 : State} (c : CoreId) (sc sf : BitVec 5) (pd pm : BitVec 3) (vs vd : BitVec 5) (h : counted s s1 c) :
    scalars (s.core c) (vectors (s.core c) (predicates (s.core c) (issueCore (s.core c) (((semPack c sc sf pd pm vs vd s).run s1).core c)))) =
      s.core c := by
  rw [core_semPack_run]
  exact counted_put h (fun k l => scalars k (vectors k (predicates k l))) rfl rfl

/-- The registers of the device after PACK: its two counters have moved (R87). -/
theorem regs_semPack_run (c : CoreId) (sc sf : BitVec 5) (pd pm : BitVec 3) (vs vd : BitVec 5) (s t : State) :
    let u := (semPack c sc sf pd pm vs vd s).run t
    let n := rank s c pm 256 - packRoom s c sc sf
    sameRegs t u (fldsAt [.CORE_PACK_OVF_STEP_OVF, .CORE_PACK_OVF_TOTAL] c) ∧
      u.f .CORE_PACK_OVF_STEP_OVF c = min (t.f .CORE_PACK_OVF_STEP_OVF c + n) (2 ^ 32 - 1) ∧
      u.f .CORE_PACK_OVF_TOTAL c = min (t.f .CORE_PACK_OVF_TOTAL c + n) (2 ^ 32 - 1) := by
  intro u n
  obtain ⟨w, hu, hw⟩ : ∃ w : State, u = (w.bump .CORE_PACK_OVF_STEP_OVF c n).bump .CORE_PACK_OVF_TOTAL c n ∧ w.regs = t.regs := by
    refine ⟨_, (semPack_run ..).trans (by rw [packSpilled_length]), ?_⟩
    simp only [State.setSr_regs, State.setPr_regs, State.setVr_regs]
  have hf (g : Fld) : w.f g c = t.f g c := by simp only [State.f, hw]
  rw [hu]
  refine ⟨?_, ?_, ?_⟩
  · refine sameRegs_bump (sameRegs_bump (sameRegs_of_regs (sameRegs_refl t _) hw) _ _ _ (by decide) ?_) _ _ _ (by decide) ?_
    · exact fldsAt_code (by decide) c
    · exact fldsAt_code (by decide) c
  · rw [← hf]
    exact (State.f_setF_code _ _ _ _ _ _ (by decide)).trans (State.f_bump_same ..)
  · rw [State.f_bump_same, ← hf]
    congr 2
    exact State.f_setF_code _ _ _ _ _ _ (by decide)

/-- PACK (R87, R88), lane by lane. -/
theorem pack_sets (s : State) (c : CoreId) (sc sf : BitVec 5) (pd pm : BitVec 3) (vs vd : BitVec 5) (hi : canIssue s c) :
    let room := packRoom s c sc sf
    let all := rank s c pm 256
    ∃ t, exec (.pack c sc sf pd pm vs vd) s = .next t ∧
      (∀ i, i < 256 → holds s c pm i = true → rank s c pm i < room → lane t c vd (rank s c pm i) = lane s c vs i) ∧
      (∀ k, k < 256 → min all room ≤ k → lane t c vd k = 0xFFFFFFFF) ∧
      (∀ i, i < 256 → pd ≠ 0 → holds t c pd i = (holds s c pm i && decide (room ≤ rank s c pm i))) ∧
      (∀ r, gpr t c r = if r = sf ∧ r ≠ 0 then gpr s c sf + BitVec.ofNat 64 (min all room) else gpr s c r) ∧
      (∀ r, r ≠ vd → t.vr c r = s.vr c r) ∧ (∀ p, p ≠ pd → t.pr c p = s.pr c p) ∧
      t.f .CORE_PACK_OVF_STEP_OVF c = min (s.f .CORE_PACK_OVF_STEP_OVF c + (all - room)) (2 ^ 32 - 1) ∧
      t.f .CORE_PACK_OVF_TOTAL c = min (s.f .CORE_PACK_OVF_TOTAL c + (all - room)) (2 ^ 32 - 1) ∧ wentOn s t c ∧
      coreFrame s t c (fldsAt [.CORE_PACK_OVF_STEP_OVF, .CORE_PACK_OVF_TOTAL] c) (fun k l => scalars k (vectors k (predicates k l))) ∧
      sameBytes s t := by
  intro room all
  obtain ⟨s1, t, h1, ht, hwent, hframe, hquiet, hend⟩ := one_seq_regs c 1 (.pack c sc sf pd pm vs vd) (semPack c sc sf pd pm vs vd s) s hi rfl rfl rfl
    (fldsAt [.CORE_PACK_OVF_STEP_OVF, .CORE_PACK_OVF_TOTAL] c) (fun k l => scalars k (vectors k (predicates k l)))
    (fun s1 h1 => ⟨(regs_semPack_run ..).1, onlyCore_semPack_run .., semPack_run_frame _ _ _ _ _ _ _ h1,
      (congrArg Core.loops (core_semPack_run c sc sf pd pm vs vd s s1) :)⟩) (fldsAt_false (by decide) _ _) (fldsAt_false (by decide) _ _)
  have hcore := core_semPack_run c sc sf pd pm vs vd s s1
  obtain ⟨-, hstep, htotal⟩ := regs_semPack_run c sc sf pd pm vs vd s s1
  obtain ⟨hvd, hvr⟩ : t.vr c vd = packElems 32 (packLanes s c pm vs room) ∧ ∀ r, r ≠ vd → t.vr c r = s1.vr c r :=
    vr_of_written (by rw [quietCore_vregs hquiet, hcore])
  obtain ⟨hpd, hpr⟩ : (pd ≠ 0 → t.pr c pd = packBits (packMask s c pm room)) ∧ ∀ p, p ≠ pd → t.pr c p = s1.pr c p :=
    pr_of_written (by rw [quietCore_pregs hquiet, hcore])
  have hgpr : ∀ r, gpr t c r = if r = sf ∧ r ≠ 0 then BitVec.ofNat 64 (s.sr c sf + (packMoved s c pm room).length) else gpr s1 c r :=
    gpr_of_written (by rw [quietCore_sregs hquiet, hcore])
  refine ⟨t, ht, ?_, ?_, ?_, ?_, ?_, ?_, ?_, ?_, hwent, hframe, ?_⟩
  · intro i hlt hp hr
    rw [lane_of_packElems hvd ((rank_le ..).trans_lt hlt), packLanes_moved vs hlt hp hr, lane]
  · intro k hk hr
    rw [lane_of_packElems hvd hk, packLanes_rest vs hk hr]
    rfl
  · intro i hlt h0
    rw [holds, hpd h0, testBit_packBits _ _ hlt, packMask_bit hlt]
  · intro r
    rw [hgpr r, gpr_congr (quietCore_sregs h1.2.1), packMoved_length, BitVec.ofNat_add]
    rfl
  · exact fun r hr => (hvr r hr).trans (vr_congr (quietCore_vregs h1.2.1) r)
  · exact fun p hp => (hpr p hp).trans (pr_congr (quietCore_pregs h1.2.1) p)
  · rw [hend _ (by decide +kernel) _ (fldsAt_false (by decide) _ _), hstep, counted_f h1 (by decide +kernel) (by decide)]
  · rw [hend _ (by decide +kernel) _ (fldsAt_false (by decide) _ _), htotal, counted_f h1 (by decide +kernel) (by decide)]
  · exact sameBytes_of_coreFrame hframe (congrArg Core.store hframe.2.2 :) (fldsAt_false (by decide) _ _) (fldsAt_false (by decide) _ _)

/-! ### UNPACK -/

/-- The lanes of vd after UNPACK. -/
def unpackLanes (s : State) (c : Nat) (pm : BitVec 3) (vs : BitVec 5) : List Nat :=
  (List.range 256).map (fun i => if holds s c pm i then elem (s.vr c vs) 32 (rank s c pm i) else 0)

theorem unpackLanes_getD {s : State} {c : Nat} {pm : BitVec 3} {vs : BitVec 5} {i : Nat} (hi : i < 256) :
    (unpackLanes s c pm vs).getD i 0 = if holds s c pm i then elem (s.vr c vs) 32 (rank s c pm i) else 0 := by
  rw [List.getD_eq_getElem?_getD, unpackLanes, List.getElem?_map, List.getElem?_range hi]
  rfl

/-- UNPACK's effect, write by write: the set lanes below a lane are as many as its rank. -/
theorem semUnpack_run (c : CoreId) (sf : BitVec 5) (pm : BitVec 3) (vs vd : BitVec 5) (s t : State) :
    (semUnpack c sf pm vs vd s).run t =
      (t.setVr c vd (packElems 32 (unpackLanes s c pm vs))).setSr c sf (s.sr c sf + rank s c pm 256) := by
  have hl : unpackLanes s c pm vs = (List.range 256).map (fun i =>
      if (s.pr c pm).toNat.testBit i then elem (s.vr c vs) 32 ((setLanes (s.pr c pm)).filter (fun j => j < i)).length else 0) := by
    refine List.map_congr_left fun i hi => ?_
    have hr : (setLanes (s.pr c pm)).filter (fun j => decide (j < i)) = (List.range i).filter (holds s c pm) :=
      filter_lt_filter_range (List.mem_range.mp hi).le
    rw [hr]
    rfl
  rw [hl]
  rfl

theorem core_semUnpack_run (c : CoreId) (sf : BitVec 5) (pm : BitVec 3) (vs vd : BitVec 5) (s t : State) :
    ((semUnpack c sf pm vs vd s).run t).core c = { t.core c with
      vregs := Map.set 0 (t.core c).vregs vd.toNat (packElems 32 (unpackLanes s c pm vs))
      sregs := if sf = 0 then (t.core c).sregs else Map.set 0 (t.core c).sregs sf.toNat (BitVec.ofNat 64 (s.sr c sf + rank s c pm 256)) } := by
  rw [semUnpack_run]
  simp only [State.core_setSr, State.core_setVr]

theorem semUnpack_run_frame {s s1 : State} (c : CoreId) (sf : BitVec 5) (pm : BitVec 3) (vs vd : BitVec 5) (h : counted s s1 c) :
    scalars (s.core c) (vectors (s.core c) (issueCore (s.core c) (((semUnpack c sf pm vs vd s).run s1).core c))) = s.core c := by
  rw [core_semUnpack_run]
  exact counted_put h (fun k l => scalars k (vectors k l)) rfl rfl

theorem onlyCore_semUnpack_run (c : CoreId) (sf : BitVec 5) (pm : BitVec 3) (vs vd : BitVec 5) (s t : State) :
    onlyCore t ((semUnpack c sf pm vs vd s).run t) c := by
  rw [semUnpack_run]
  exact onlyCore_trans (onlyCore_setVr ..) (onlyCore_setSr ..)

theorem regs_semUnpack_run (c : CoreId) (sf : BitVec 5) (pm : BitVec 3) (vs vd : BitVec 5) (s t : State) :
    ((semUnpack c sf pm vs vd s).run t).regs = t.regs := by
  rw [semUnpack_run, State.setSr_regs, State.setVr_regs]

/-- UNPACK (R87, R88), lane by lane. -/
theorem unpack_sets (s : State) (c : CoreId) (sf : BitVec 5) (pm : BitVec 3) (vs vd : BitVec 5) (hi : canIssue s c) :
    ∃ t, exec (.unpack c sf pm vs vd) s = .next t ∧
      (∀ i, i < 256 → lane t c vd i = if holds s c pm i then lane s c vs (rank s c pm i) else 0) ∧
      (∀ r, gpr t c r = if r = sf ∧ r ≠ 0 then gpr s c sf + BitVec.ofNat 64 (rank s c pm 256) else gpr s c r) ∧
      (∀ r, r ≠ vd → t.vr c r = s.vr c r) ∧ wentOn s t c ∧ coreFrame s t c noFld (fun k l => scalars k (vectors k l)) ∧ sameBytes s t := by
  obtain ⟨s1, t, h1, ht, hwent, hframe, hquiet⟩ := one_seq c 1 (.unpack c sf pm vs vd) (semUnpack c sf pm vs vd s) s hi rfl rfl rfl
    noFld (fun k l => scalars k (vectors k l))
    (fun s1 h1 => ⟨sameRegs_of_regs (sameRegs_refl s1 _) (regs_semUnpack_run ..), onlyCore_semUnpack_run .., semUnpack_run_frame _ _ _ _ _ h1,
      (congrArg Core.loops (core_semUnpack_run c sf pm vs vd s s1) :)⟩) rfl rfl
  have hcore := core_semUnpack_run c sf pm vs vd s s1
  obtain ⟨hvd, hvr⟩ : t.vr c vd = packElems 32 (unpackLanes s c pm vs) ∧ ∀ r, r ≠ vd → t.vr c r = s1.vr c r :=
    vr_of_written (by rw [quietCore_vregs hquiet, hcore])
  have hgpr : ∀ r, gpr t c r = if r = sf ∧ r ≠ 0 then BitVec.ofNat 64 (s.sr c sf + rank s c pm 256) else gpr s1 c r :=
    gpr_of_written (by rw [quietCore_sregs hquiet, hcore])
  refine ⟨t, ht, ?_, ?_, ?_, hwent, hframe, ?_⟩
  · intro i hlt
    rw [lane_of_packElems hvd hlt, unpackLanes_getD hlt, apply_ite (BitVec.ofNat 32)]
    rfl
  · intro r
    rw [hgpr r, gpr_congr (quietCore_sregs h1.2.1), BitVec.ofNat_add]
    rfl
  · exact fun r hr => (hvr r hr).trans (vr_congr (quietCore_vregs h1.2.1) r)
  · exact sameBytes_of_coreFrame hframe (congrArg Core.store hframe.2.2 :) rfl rfl

/-- Settles O22: PACK and UNPACK, each by the lemma above that says what it sets. -/
theorem packUnpack : Obligations.PackUnpack := ⟨pack_sets, unpack_sets⟩

end Sys2Proof.Machine
end

section
/-!
REFUTATION of O36. The clause of a core's slot asks neither that the stream is aligned (R176) nor that HBM lists no byte past its end. A unit that begins
in the last bytes of HBM runs past the end, where the chip-local map reads zero (R157), whatever the memory lists there.
-/
namespace Sys2Proof.Machine

/-- A slot that a running core owns, and that neither refresh nor margin nor heat takes, serves the core's streams (R172). -/
theorem exec_hbmSlot_core {s : State} {st : StackId} {i : Fin 50} {l : Nat} {c : CoreId}
    (hfree : ¬(s.rgnStopped (20 + st.val / 3) = true ∨ (s.stack st).asleep = true ∨ i.val = 4 * st.val ∨ i.val = 4 * st.val + 1 ∨
      (4 * st.val + 2 ≤ i.val ∧ i.val < 4 * st.val + 2 + s.f .HBM_STATUS_MARGIN_ACT st)))
    (hcool : ¬(s.f .HBM_STATUS_HOT st = 1 ∧ (i.val = 4 * st.val + 2 ∨ i.val = 4 * st.val + 3)))
    (howner : Map.get SlotOwner.none (s.stack st).owners (s.bellSlot i) = .core l) (hphys : s.physical l = some c.val)
    (hrun : s.rgnStopped (c.val / 8) = false) :
    exec (.hbmSlot st i) s = .next (s.serveStreams c st 768 (s.core c).streams) := by
  change execHbmSlot st i s = _
  simp only [execHbmSlot, if_neg hfree, if_neg hcool, howner, hphys, hrun]
  rfl

/-- A load of one unit, of which the first byte is the last of HBM. No instruction starts it: R176 asks for alignment, the statement does not. -/
def strayStream : Stream :=
  { slot := 0, load := true, local_ := 0, far := hbmBytes - 1, rowBytes := 64, rows := 1, stride := 0, ps := false, ev := none, side := .own, done := [],
    asked := 0, pieces := [], miss := false, left := [] }

/-- Logical core 0 is core 0, holds the stray stream and owns slot 0 of the last stack; the byte after the last of HBM is listed as 1. -/
def strayState : State :=
  let s := { State.reset with hbm := [(hbmBytes, 1)] }
  ((s.setF .CORE_BIND_BOUND 0 1).setCore 0 { Core.reset with streams := [strayStream] }).setStack 11 { Stack.reset with owners := [(0, .core 0)] }

theorem strayState_slot : exec (.hbmSlot 11 0) strayState = .next (strayState.serveStreams 0 11 768 [strayStream]) :=
  exec_hbmSlot_core (c := 0) (by decide +kernel) (by decide +kernel) (l := 0) (by decide +kernel) (by decide +kernel) (by decide +kernel)

/-- The second byte of the unit lands as zero. -/
theorem strayState_landed : ((strayState.serveStreams 0 11 768 [strayStream]).core 0).store.rd 1 = 0 := by decide +kernel

/-- At its far address HBM lists a one. -/
theorem strayState_listed : strayState.hbm.rd (strayStream.farAt 0 + 1) = 1 := by decide +kernel

/-- Refutes O36: byte 1 of unit 0 of `strayStream` lands as 0, where the clause of a core's slot says the 1 that HBM lists past its end. -/
theorem not_hbmSlots : ¬ Obligations.HbmSlots := by
  rintro ⟨hslot, -⟩
  obtain ⟨-, -, -, -, hcore⟩ := hslot strayState 11 0
  obtain ⟨t, -, ht, -, -, hdata, -⟩ := hcore 0 0 strayStream (by decide +kernel) (by decide +kernel) (by decide +kernel) (by decide +kernel)
    (by decide +kernel) (by decide +kernel) rfl rfl rfl (by decide +kernel)
  obtain rfl : strayState.serveStreams 0 11 768 [strayStream] = t := Host.Outcome.next.inj (strayState_slot.symm.trans ht)
  have hbyte : ((strayState.serveStreams 0 11 768 [strayStream]).core 0).store.rd 1 = strayState.hbm.rd (strayStream.farAt 0 + 1) :=
    hdata 0 (by decide +kernel) 1 (by decide)
  rw [strayState_landed, strayState_listed] at hbyte
  exact absurd hbyte (by decide)

end Sys2Proof.Machine
end

section
/-!
SUPPORT for O44. What an operation of one link leaves alone: registers outside a list, the other links, what the link holds for its peer, and the notices
that firmware owes but for those it adds. Each operation that a retrain is made of has a frame of this kind.
-/
namespace Sys2Proof.Machine

@[simp] theorem State.link_modLink_same (s : State) (n : Nat) (g : LinkUnit → LinkUnit) : (s.modLink n g).link n = g (s.link n) :=
  State.link_setLink_same ..

/-- An operation of link n leads from s to t: only registers of `l` changed, no other link, neither the link's buffer and queue of frames nor its flush
token nor its peer, and firmware owes the notices `ns` besides those it owed. -/
structure LinkFrame (l : List Fld) (ns : List Notice) (n : Nat) (s t : State) : Prop where
  regs : sameRegs s t (flds l)
  others : otherLinks s t n
  rb : (t.link n).rb = (s.link n).rb
  txq : (t.link n).txq = (s.link n).txq
  flushFlag : (t.link n).flushFlag = (s.link n).flushFlag
  peer : (t.link n).peer = (s.link n).peer
  notices : t.topo.toSend = s.topo.toSend ++ ns

namespace LinkFrame

variable {l l' : List Fld} {ns ns' : List Notice} {n : Nat} {s t u : State}

/-- A state with the same registers, links and notices. -/
theorem of_eq (hr : t.regs = s.regs) (hl : t.links = s.links) (hn : t.topo = s.topo) : LinkFrame l [] n s t := by
  have hlink (m : Nat) : t.link m = s.link m := by simp only [State.link, hl]
  refine ⟨sameRegs_of_regs (sameRegs_refl s _) hr, fun m _ => hlink m, ?_, ?_, ?_, ?_, ?_⟩ <;> simp [hlink, hn]

theorem refl (l : List Fld) (n : Nat) (s : State) : LinkFrame l [] n s s := of_eq rfl rfl rfl

theorem trans (h : LinkFrame l ns n s t) (k : LinkFrame l ns' n t u) : LinkFrame l (ns ++ ns') n s u where
  regs := sameRegs_trans h.regs k.regs
  others m hm := (k.others m hm).trans (h.others m hm)
  rb := k.rb.trans h.rb
  txq := k.txq.trans h.txq
  flushFlag := k.flushFlag.trans h.flushFlag
  peer := k.peer.trans h.peer
  notices := by rw [k.notices, h.notices, List.append_assoc]

/-- An operation that adds no notice, after another. -/
theorem andThen (h : LinkFrame l ns n s t) (k : LinkFrame l [] n t u) : LinkFrame l ns n s u := ns.append_nil ▸ h.trans k

theorem mono (h : LinkFrame l' ns n s t) (hl : l'.all (touches l) = true) : LinkFrame l ns n s t :=
  { h with regs := sameRegs_mono h.regs fun _ _ => touches_mono hl }

/-- A register field that is not listed. -/
theorem f (h : LinkFrame l ns n s t) (g : Fld) (hm : g ∈ allFlds) (hg : touches l g = false) (i : Nat) : t.f g i = s.f g i := h.regs g hm i hg

theorem now_eq (h : LinkFrame l ns n s t) (hg : touches l .BEL_NOW_BELL = false) : t.now = s.now := h.f .BEL_NOW_BELL (by decide +kernel) hg 0

theorem peerOf_eq (h : LinkFrame l ns n s t) (hg : touches l .LNK_PEER_CHIP = false) : t.peerOf n = s.peerOf n := by
  rw [State.peerOf, State.peerOf, h.peer, h.f .LNK_PEER_CHIP (by decide +kernel) hg]

theorem up_eq (h : LinkFrame l ns n s t) (hg : touches l .LNK_STATUS_STATE = false) : t.up n = s.up n := by
  rw [State.up, State.up, h.f .LNK_STATUS_STATE (by decide +kernel) hg]

theorem raiseNotice (h : LinkFrame l ns n s t) (cls suspect detail : Nat) :
    LinkFrame l (ns ++ [⟨suspect, cls, t.now, detail⟩]) n s (t.raiseNotice cls suspect detail) :=
  { h with
    notices := by
      rw [← List.append_assoc, ← h.notices]
      rfl }

theorem setF (h : LinkFrame l ns n s t) (g : Fld) (j v : Nat) (hg : g.code < 1024 ∧ touches l g = true) : LinkFrame l ns n s (t.setF g j v) :=
  { h with regs := sameRegs_setF_flds h.regs g j v hg.1 hg.2 }

theorem bump (h : LinkFrame l ns n s t) (g : Fld) (j k : Nat) (hg : g.code < 1024 ∧ touches l g = true) : LinkFrame l ns n s (t.bump g j k) :=
  h.setF g j _ hg

theorem setFb (h : LinkFrame l ns n s t) (g : Fld) (j b : Nat) (v : Bool) (hg : g.code < 1024 ∧ touches l g = true) :
    LinkFrame l ns n s (t.setFb g j b v) :=
  h.setF g j _ hg

theorem ite {c : Prop} [Decidable c] (h : LinkFrame l ns n s t) (k : LinkFrame l ns n s u) : LinkFrame l ns n s (if c then t else u) := by
  split_ifs
  · exact h
  · exact k

/-- A change of link n that keeps what it holds for its peer. -/
theorem modLink (h : LinkFrame l ns n s t) (g : LinkUnit → LinkUnit) (hrb : ∀ x, (g x).rb = x.rb := by exact fun _ => rfl)
    (htxq : ∀ x, (g x).txq = x.txq := by exact fun _ => rfl) (hfl : ∀ x, (g x).flushFlag = x.flushFlag := by exact fun _ => rfl)
    (hp : ∀ x, (g x).peer = x.peer := by exact fun _ => rfl) : LinkFrame l ns n s (t.modLink n g) := by
  have hlink := t.link_modLink_same n g
  refine ⟨sameRegs_of_regs h.regs rfl, fun m hm => (State.link_setLink_other _ _ hm).trans (h.others m hm), ?_, ?_, ?_, ?_, h.notices⟩
  · rw [hlink, hrb, h.rb]
  · rw [hlink, htxq, h.txq]
  · rw [hlink, hfl, h.flushFlag]
  · rw [hlink, hp, h.peer]

/-- Listed fields returned to their reset values one after another. -/
theorem unsetFs (h : LinkFrame l ns n s t) (gs : List Fld) (j : Nat) (hg : ∀ g ∈ gs, g.code < 1024 ∧ touches l g = true) :
    LinkFrame l ns n s (gs.foldl (fun s g => s.unsetF g j) t) := by
  induction gs generalizing t with
  | nil => exact h
  | cons g gs ih => exact ih (h.setF g j _ (hg g List.mem_cons_self)) fun g' hm => hg g' (List.mem_cons_of_mem _ hm)

end LinkFrame

/-- An interrupt leaves the links alone. -/
theorem State.irqMasterIf_frame (s : State) (en : Bool) (src : IrqSrc) (l : List Fld) (n : Nat) : LinkFrame l [] n s (s.irqMasterIf en src) :=
  .ite (.ite (.refl ..) (.of_eq rfl rfl rfl)) (.refl ..)

/-- Marking a command as started leaves the links alone. -/
theorem State.markStarted_frame (s : State) (code : Nat) (b : Bool) (l : List Fld) (n : Nat) : LinkFrame l [] n s (s.markStarted code b) := by
  unfold State.markStarted
  split
  · exact .refl ..
  · exact .of_eq rfl rfl rfl

/-! ### The parts of a link reset (R201, R240) -/

/-- The fields that a link reset may change: those it resets, and those that the commits of LNK_CFG and OPN_RBUF set. -/
def resetFlds (grace : Bool) : List Fld :=
  linkResetFlds grace ++ ([.CLK_XALIGN_ALIGNED, .CLK_XALIGN_FAIL, .CLK_XALIGN_FAIL_REGION] ++ [.LNK_LANE_SIGNAL, .LNK_LANE_LOCK, .LNK_LANE_SNR,
    .LNK_LANE_SYMERR, .LNK_STATUS_CFG_MISMATCH, .OPN_STATUS_CFG_MISMATCH, .OPN_RBUF_ACT_REQ, .OPN_RBUF_ACT_RPL])

theorem resetFlds_touched (grace : Bool) : ∀ g ∈ resetFlds grace, g.code < 1024 ∧ touches (resetFlds grace) g = true := by
  cases grace <;> decide

theorem State.commitCfg_frame (s : State) (n : Nat) : LinkFrame [.LNK_STATUS_CFG_MISMATCH] [] n s (s.commitCfg n) := by
  have h : LinkFrame [.LNK_STATUS_CFG_MISMATCH] [] n s s := .refl ..
  exact .ite (h.modLink _) ((h.modLink _).setF _ _ _ (by decide))

theorem State.commitRbuf_frame (s : State) (n : Nat) :
    LinkFrame [.OPN_STATUS_CFG_MISMATCH, .OPN_RBUF_ACT_REQ, .OPN_RBUF_ACT_RPL] [] n s (s.commitRbuf n) := by
  have h : LinkFrame [.OPN_STATUS_CFG_MISMATCH, .OPN_RBUF_ACT_REQ, .OPN_RBUF_ACT_RPL] [] n s s := .refl ..
  exact .ite (h.setF _ _ _ (by decide)) ((h.setF _ _ _ (by decide)).setF _ _ _ (by decide))

theorem State.commitCfg_assign (s : State) (n : Nat) : ((s.commitCfg n).link n).assign = (s.link n).assign := by
  unfold State.commitCfg
  extract_lets mask wm ok s1
  have h : (s1.link n).assign = (s.link n).assign := (congrArg LinkUnit.assign (s.link_modLink_same n _) :)
  split_ifs
  · exact h
  · exact h

theorem State.commitRbuf_link (s : State) (n m : Nat) : (s.commitRbuf n).link m = s.link m := by
  unfold State.commitRbuf
  extract_lets die others q r
  split_ifs <;> rfl

theorem State.setLanes_frame (s : State) (n sig lock : Nat) :
    LinkFrame [.LNK_LANE_SIGNAL, .LNK_LANE_LOCK] [] n s (s.setLanes n sig lock) :=
  upto_inv (LinkFrame _ [] n s) 4 _ s (.refl ..) fun _ _ _ h => (h.setF _ _ _ (by decide)).setF _ _ _ (by decide)

/-- Grace runs for link n, which has not flushed: a link reset leaves its numbering alone (R202). -/
def State.inGrace (s : State) (n : Nat) : Bool := decide (s.f .LNK_STATUS_GRACE n = 1 ∧ (s.link n).flushFlag = false)

theorem State.linkReset_frame (s : State) (n : Nat) : LinkFrame (resetFlds (s.inGrace n)) [] n s (s.linkReset n) := by
  unfold State.linkReset
  extract_lets grace lock s0 s1 s2 s3
  have ht := resetFlds_touched (decide grace)
  have hcfg : ∀ b, [Fld.LNK_STATUS_CFG_MISMATCH].all (touches (resetFlds b)) = true := by decide
  have hrbuf : ∀ b, [Fld.OPN_STATUS_CFG_MISMATCH, .OPN_RBUF_ACT_REQ, .OPN_RBUF_ACT_RPL].all (touches (resetFlds b)) = true := by decide
  have h0 : LinkFrame (resetFlds (decide grace)) [] n s s0 := (LinkFrame.refl ..).unsetFs _ _ fun g hg =>
    ht g (List.mem_append_right _ (List.mem_append_left _ hg))
  have h1 : LinkFrame (resetFlds (decide grace)) [] n s s1 := h0.unsetFs _ _ fun g hg => ht g (List.mem_append_left _ hg)
  have h2 : LinkFrame (resetFlds (decide grace)) [] n s s2 := upto_inv (LinkFrame _ [] n s) 4 _ s1 h1 fun i t _ h =>
    (((h.setF _ _ _ (ht _ (by simp [resetFlds]))).setF _ _ _ (ht _ (by simp [resetFlds]))).setF _ _ _ (ht _ (by simp [resetFlds]))).setF _ _ _
      (ht _ (by simp [resetFlds]))
  have h3 : LinkFrame (resetFlds (decide grace)) [] n s s3 := h2.modLink _
  exact (h3.andThen ((s3.commitCfg_frame n).mono (hcfg _))).andThen (((s3.commitCfg n).commitRbuf_frame n).mono (hrbuf _))

/-- After a link reset no frame is assigned to a stall. -/
theorem State.linkReset_assign (s : State) (n : Nat) : ((s.linkReset n).link n).assign = false := by
  unfold State.linkReset
  extract_lets grace lock s0 s1 s2 s3
  rw [State.commitRbuf_link, State.commitCfg_assign, State.link_modLink_same]

end Sys2Proof.Machine
end

section
/-!
SUPPORT for O44. Leaving UP, and the two ways to train again: what each sets and, by its frame, what it leaves alone (R198, R202).
-/
namespace Sys2Proof.Machine

/-! ### Leaving UP (R202, R281) -/

theorem State.up_iff {s : State} {n : Nat} : s.up n = true ↔ s.f .LNK_STATUS_STATE n = lkUp := beq_iff_eq

/-- The notice of class LINK_DOWN that link n owes as it leaves UP. -/
def State.downNotices (s : State) (n : Nat) : List Notice := if s.up n then [⟨s.peerOf n, 0x1, s.now, n⟩] else []

/-- The fields that leaving UP may change. -/
def leaveFlds : List Fld := [.LNK_STATUS_GRACE, .LNK_STATUS_RETRAIN_PEND, .BEL_STATUS_PARENT_FRESH]

theorem LinkFrame.unfresh {ns : List Notice} {n : Nat} {s t : State} (h : LinkFrame leaveFlds ns n s t) (m : Nat) :
    LinkFrame leaveFlds ns n s (t.unfresh m) := by
  unfold State.unfresh
  extract_lets s1
  have h1 : LinkFrame leaveFlds ns n s s1 := .ite (h.setFb _ _ _ _ (by decide)) h
  exact .ite (h1.setFb _ _ _ _ (by decide)) h1

theorem State.leaveUp_frame (s : State) (n : Nat) : LinkFrame leaveFlds (s.downNotices n) n s (s.leaveUp n) := by
  unfold State.leaveUp State.downNotices
  cases hu : s.up n with
  | false => exact .refl ..
  | true =>
    rw [if_neg (by decide : ¬true = false), if_pos rfl]
    extract_lets s1
    have h1 : LinkFrame leaveFlds [] n s s1 :=
      ((((LinkFrame.refl ..).setF _ _ _ (by decide)).setF _ _ _ (by decide)).unfresh n).modLink _
    have h2 := h1.andThen (s1.irqMasterIf_frame (s.f .LNK_CTRL_DOWN_IRQ_EN n == 1) (.link n) leaveFlds n)
    exact h2.now_eq (by decide) ▸ h2.raiseNotice 0x1 (s.peerOf n) n

theorem State.unfresh_f (s : State) (n : Nat) (g : Fld) (hg : (Fld.BEL_STATUS_PARENT_FRESH.code % 1024 == g.code % 1024) = false) (j : Nat) :
    (s.unfresh n).f g j = s.f g j := by
  unfold State.unfresh
  extract_lets s1
  have h1 : s1.f g j = s.f g j := by
    rw [apply_ite (fun t : State => t.f g j), State.setFb, State.f_setF_code _ _ _ _ _ _ hg, ite_self]
  rw [apply_ite (fun t : State => t.f g j), State.setFb, State.f_setF_code _ _ _ _ _ _ hg, ite_self, h1]

theorem State.leaveUp_grace {s : State} {n : Nat} (hu : s.up n = true) : (s.leaveUp n).f .LNK_STATUS_GRACE n = 1 := by
  unfold State.leaveUp
  rw [if_neg (by simp [hu])]
  extract_lets s1
  have h1 : s1.f .LNK_STATUS_GRACE n = 1 := by
    refine (State.unfresh_f _ n _ (by decide) n).trans ?_
    rw [State.f_setF_code _ _ _ _ _ _ (by decide), State.f_setF_same]
    rfl
  exact ((s1.irqMasterIf_frame (s.f .LNK_CTRL_DOWN_IRQ_EN n == 1) (.link n) [] n).f _ (by decide +kernel) rfl n).trans h1

/-- A link that leaves UP and has not flushed has its grace. -/
theorem State.leaveUp_inGrace {s : State} {n : Nat} (hu : s.up n = true) (hf : (s.link n).flushFlag = false) :
    (s.leaveUp n).inGrace n = true :=
  decide_eq_true ⟨State.leaveUp_grace hu, (s.leaveUp_frame n).flushFlag.trans hf⟩

/-! ### Training again (R198) -/

/-- The fields that entering a training state may change. -/
def trainFlds : List Fld := [.LNK_STATUS_STATE, .LNK_CNT_FAST_COUNT, .LNK_CNT_FULL_COUNT, .LNK_CTRL_RETRAIN, .LNK_CTRL_RESET]

theorem State.toFast_frame (s : State) (n : Nat) : LinkFrame trainFlds [] n s (s.toFast n) :=
  (((LinkFrame.refl ..).setF _ _ _ (by decide)).bump _ _ _ (by decide)).setF _ _ _ (by decide)

theorem State.toFull_frame (s : State) (n : Nat) : LinkFrame trainFlds [] n s (s.toFull n) :=
  (((LinkFrame.refl ..).setF _ _ _ (by decide)).bump _ _ _ (by decide)).setF _ _ _ (by decide)

@[simp] theorem State.toFast_link (s : State) (n m : Nat) : (s.toFast n).link m = s.link m := rfl
@[simp] theorem State.toFull_link (s : State) (n m : Nat) : (s.toFull n).link m = s.link m := rfl

theorem State.toFast_state (s : State) (n : Nat) : (s.toFast n).f .LNK_STATUS_STATE n = lkFast := by
  rw [State.toFast, State.bump, State.f_setF_code _ _ _ _ _ _ (by decide), State.f_setF_code _ _ _ _ _ _ (by decide)]
  exact State.f_setF_same ..

theorem State.toFull_state (s : State) (n : Nat) : (s.toFull n).f .LNK_STATUS_STATE n = lkFull := by
  rw [State.toFull, State.bump, State.f_setF_code _ _ _ _ _ _ (by decide), State.f_setF_code _ _ _ _ _ _ (by decide)]
  exact State.f_setF_same ..

theorem LinkFrame.dropKeys {l : List Fld} {ns : List Notice} {n : Nat} {s t : State} (h : LinkFrame l ns n s t) : LinkFrame l ns n s (t.dropKeys n) :=
  h.modLink _

theorem State.dropKeys_keyZ (s : State) (n : Nat) : ((s.dropKeys n).link n).keyZ = none := by rw [State.dropKeys, State.link_modLink_same]

/-- The fields that a link reset and the training after it may change. -/
def restartFlds (grace : Bool) : List Fld := resetFlds grace ++ trainFlds

theorem restartFlds_reset : ∀ grace, (resetFlds grace).all (touches (restartFlds grace)) = true := by decide

theorem restartFlds_train : ∀ grace, trainFlds.all (touches (restartFlds grace)) = true := by decide

theorem State.fastRetrain_frame (s : State) (n : Nat) :
    LinkFrame (restartFlds ((s.leaveUp n).inGrace n)) [] n (s.leaveUp n) (s.fastRetrain n) :=
  (((s.leaveUp n).linkReset_frame n).mono (restartFlds_reset _)).andThen ((State.toFast_frame _ n).mono (restartFlds_train _))

theorem State.resetWrite_eq {s : State} {n : Nat} (h : s.f .LNK_STATUS_STATE n ≠ lkOff) :
    s.resetWrite n = ((((s.leaveUp n).linkReset n).dropKeys n).modLink n (fun l => { l with coeffs := 0 })).toFull n := if_neg h

theorem State.resetWrite_frame {s : State} {n : Nat} (h : s.f .LNK_STATUS_STATE n ≠ lkOff) :
    LinkFrame (restartFlds ((s.leaveUp n).inGrace n)) [] n (s.leaveUp n) (s.resetWrite n) := by
  rw [State.resetWrite_eq h]
  have hr := ((s.leaveUp n).linkReset_frame n).mono (restartFlds_reset _)
  exact (hr.dropKeys.modLink fun l => { l with coeffs := 0 }).andThen ((State.toFull_frame _ n).mono (restartFlds_train _))

theorem State.resetWrite_state {s : State} {n : Nat} (h : s.f .LNK_STATUS_STATE n ≠ lkOff) :
    (s.resetWrite n).f .LNK_STATUS_STATE n = lkFull := by
  rw [State.resetWrite_eq h, State.toFull_state]

/-- A write of LNK_CTRL.RESET discards the coefficients and the secret of the link (R366). -/
theorem State.resetWrite_link {s : State} {n : Nat} (h : s.f .LNK_STATUS_STATE n ≠ lkOff) :
    ((s.resetWrite n).link n).coeffs = 0 ∧ ((s.resetWrite n).link n).keyZ = none := by
  rw [State.resetWrite_eq h, State.toFull_link, State.link_modLink_same]
  refine ⟨rfl, ?_⟩
  dsimp only
  exact State.dropKeys_keyZ ..

/-! ### What the statement says of a restart -/

section Restart

variable {s t u : State} {n : Nat} {b : Bool}

/-- Leaving UP and what restarts the link after it, as one. -/
theorem LinkFrame.fromUp (h : LinkFrame (restartFlds b) [] n (s.leaveUp n) t) :
    LinkFrame (leaveFlds ++ restartFlds b) (s.downNotices n) n s t := by
  have hl : ∀ b, leaveFlds.all (touches (leaveFlds ++ restartFlds b)) = true := by decide
  have hr : ∀ b, (restartFlds b).all (touches (leaveFlds ++ restartFlds b)) = true := by decide
  exact ((s.leaveUp_frame n).mono (hl b)).andThen (h.mono (hr b))

theorem LinkFrame.leftUp (h : LinkFrame (restartFlds b) [] n (s.leaveUp n) t) (hu : s.up n = true) : leftUp s t n := by
  have hg : ∀ b, touches (restartFlds b) .LNK_STATUS_GRACE = false := by decide
  refine ⟨(h.f _ (by decide +kernel) (hg b) n).trans (State.leaveUp_grace hu), ?_⟩
  rw [h.fromUp.notices, State.downNotices, if_pos hu]

/-- The numbering of link n that a fast retrain keeps (R202). -/
def numberFlds : List Fld := [.LNK_SEQ_TX_NEXT, .LNK_SEQ_TX_ACKED, .LNK_SEQ_RX_LAST, .LNK_ENC_EPOCH]

theorem numberFlds_all : ∀ g ∈ numberFlds, g ∈ allFlds := by decide +kernel

theorem State.fastRetrain_retrained (hu : s.up n = true) : fastRetrained s (s.fastRetrain n) n := by
  have h := s.fastRetrain_frame n
  refine ⟨State.toFast_state .., h.leftUp hu, h.fromUp.rb, h.fromUp.txq, ?_, ?_, h.fromUp.others⟩
  · rw [State.fastRetrain, State.toFast_link, State.linkReset_assign]
  · intro hf g hg
    rw [State.leaveUp_inGrace hu hf] at h
    have hkept : ∀ g ∈ numberFlds, touches (leaveFlds ++ restartFlds true) g = false := by decide
    exact h.fromUp.f g (numberFlds_all g hg) (hkept g hg) n

/-- A retrain after a step that leaves the link's numbering, the bell number and the link's peer alone. -/
theorem LinkFrame.thenRetrained {l : List Fld} (h : LinkFrame l [] n s t)
    (hl : ∀ g ∈ numberFlds ++ [.BEL_NOW_BELL, .LNK_PEER_CHIP], touches l g = false) (k : fastRetrained t u n) : fastRetrained s u n := by
  obtain ⟨hst, ⟨hgrace, hsend⟩, hrb, htxq, hassign, hseq, hothers⟩ := k
  refine ⟨hst, ⟨hgrace, ?_⟩, hrb.trans h.rb, htxq.trans h.txq, hassign, ?_, fun m hm => (hothers m hm).trans (h.others m hm)⟩
  · rw [hsend, h.notices, List.append_nil, h.peerOf_eq (hl _ (by simp)), h.now_eq (hl _ (by simp))]
  · intro hf g hg
    exact (hseq (h.flushFlag.trans hf) g hg).trans (h.f g (numberFlds_all g hg) (hl g (List.mem_append_left _ hg)) n)

end Restart

end Sys2Proof.Machine
end

section
/-!
PROOF of O44. Each command of the statement by the lemmas above, and the arming of a rekey.
-/
namespace Sys2Proof.Machine

/-! ### Retrains and resets (R204-R206, R366, R413, R414) -/

/-- A retrain on request, of the peer or of a write of LNK_CTRL.RETRAIN, happens in UP alone (R413, R414). -/
theorem retrainRequest_sets (s : State) (n : LinkId) :
    let up := s.f .LNK_STATUS_STATE n = lkUp
    ∀ i ∈ [Instr.peerTrainingPattern n, .lnkRetrainWrite n], (¬up → exec i s = .next s) ∧ (up → ∃ t, exec i s = .next t ∧ fastRetrained s t n) := by
  intro up i hi
  have hx : exec i s = .next (if s.up n then s.fastRetrain n else s) := by
    simp only [List.mem_cons, List.not_mem_nil, or_false] at hi
    obtain rfl | rfl := hi <;> rfl
  rw [hx]
  refine ⟨fun h => congrArg Host.Outcome.next (if_neg (mt State.up_iff.mp h)), fun h => ?_⟩
  have hu := State.up_iff.mpr h
  exact ⟨_, congrArg Host.Outcome.next (if_pos hu), State.fastRetrain_retrained hu⟩

/-- ERR_LIMIT_RETRAIN (R206). -/
theorem errLimitRetrain_sets (s : State) (n : LinkId) :
    let up := s.f .LNK_STATUS_STATE n = lkUp
    (¬up ∨ (s.link n).retrainNow = false → exec (.errLimitRetrain n) s = .next s) ∧
    (up → (s.link n).retrainNow = true → ∃ t, exec (.errLimitRetrain n) s = .next t ∧ fastRetrained s t n) := by
  intro up
  have hx : exec (.errLimitRetrain n) s = .next (if s.up n && (s.link n).retrainNow then s.fastRetrain n else s) := rfl
  rw [hx]
  refine ⟨fun h => congrArg Host.Outcome.next (if_neg ?_), fun h hr => ?_⟩
  · rw [Bool.and_eq_true, State.up_iff]
    rintro ⟨hu, hr⟩
    exact h.elim (· hu) (by simp [hr])
  · have hu := State.up_iff.mpr h
    exact ⟨_, congrArg Host.Outcome.next (if_pos (by rw [hu, hr]; rfl)), State.fastRetrain_retrained hu⟩

/-- The counting of a lane loss and the lanes it leaves. -/
def State.loseLanes (s : State) (n left : Nat) : State :=
  (s.bump .LNK_CNT_LANELOSS_COUNT n).setLanes n (sumTo 4 (fun i => s.f .LNK_LANE_SIGNAL (4 * n + i) * 2 ^ i)) left

theorem State.loseLanes_frame (s : State) (n left : Nat) :
    LinkFrame [.LNK_CNT_LANELOSS_COUNT, .LNK_LANE_SIGNAL, .LNK_LANE_LOCK] [] n s (s.loseLanes n left) :=
  ((LinkFrame.refl ..).bump _ _ _ (by decide)).andThen ((State.setLanes_frame ..).mono (by decide))

theorem State.loseLanes_count (s : State) (n left : Nat) :
    (s.loseLanes n left).f .LNK_CNT_LANELOSS_COUNT n = min (s.f .LNK_CNT_LANELOSS_COUNT n + 1) (2 ^ Fld.LNK_CNT_LANELOSS_COUNT.w - 1) :=
  ((State.setLanes_frame ..).f _ (by decide +kernel) (by decide) n).trans (State.f_bump_same ..)

/-- LANE_LOSS (R204). -/
theorem laneLoss_sets (s : State) (n : LinkId) (lock : BitVec 4) :
    let up := s.f .LNK_STATUS_STATE n = lkUp
    let use := s.f .LNK_STATUS_LANES_OK n
    (¬up ∨ use &&& lock.toNat = use → exec (.laneLoss n lock) s = .next s) ∧
    (up → use &&& lock.toNat ≠ use → ∃ t, exec (.laneLoss n lock) s = .next t ∧ fastRetrained s t n ∧
      t.f .LNK_CNT_LANELOSS_COUNT n = min (s.f .LNK_CNT_LANELOSS_COUNT n + 1) (2 ^ Fld.LNK_CNT_LANELOSS_COUNT.w - 1)) := by
  intro up use
  have hx : exec (.laneLoss n lock) s =
      .next (if s.up n && use &&& lock.toNat != use then (s.loseLanes n (use &&& lock.toNat)).fastRetrain n else s) := rfl
  rw [hx]
  clear_value use
  refine ⟨fun h => congrArg Host.Outcome.next (if_neg ?_), fun h hl => ?_⟩
  · rw [Bool.and_eq_true, State.up_iff, bne_iff_ne]
    rintro ⟨hu, hl⟩
    exact h.elim (· hu) hl
  · have hf := s.loseLanes_frame n (use &&& lock.toNat)
    have hu : s.up n = true := State.up_iff.mpr h
    have hcnt : ∀ b, touches (leaveFlds ++ restartFlds b) .LNK_CNT_LANELOSS_COUNT = false := by decide
    refine ⟨_, congrArg Host.Outcome.next (if_pos (by rw [hu, bne_iff_ne.mpr hl]; rfl)),
      hf.thenRetrained (by decide) (State.fastRetrain_retrained ((hf.up_eq (by decide)).trans hu)), ?_⟩
    exact ((State.fastRetrain_frame ..).fromUp.f _ (by decide +kernel) (hcnt _) n).trans (State.loseLanes_count ..)

/-- LNK_RESET_WRITE (R198, R366). -/
theorem lnkResetWrite_sets (s : State) (n : LinkId) :
    (s.f .LNK_STATUS_STATE n = lkOff → exec (.lnkResetWrite n) s = .next s) ∧
    (s.f .LNK_STATUS_STATE n ≠ lkOff → ∃ t, exec (.lnkResetWrite n) s = .next t ∧ t.f .LNK_STATUS_STATE n = lkFull ∧ (t.link n).coeffs = 0 ∧
      (t.link n).keyZ = none ∧ (s.f .LNK_STATUS_STATE n = lkUp → leftUp s t n) ∧ otherLinks s t n) := by
  refine ⟨fun h => congrArg Host.Outcome.next (if_pos h), fun h => ?_⟩
  have hf := State.resetWrite_frame h
  obtain ⟨hcoeffs, hkey⟩ := State.resetWrite_link h
  exact ⟨_, rfl, State.resetWrite_state h, hcoeffs, hkey, fun hu => hf.leftUp (State.up_iff.mpr hu), hf.fromUp.others⟩

/-! ### LINK_RETRAIN (R205) -/

/-- LINK_RETRAIN has started, with its width staged. -/
def State.stageWidth (s : State) (n width : Nat) : State := (s.markStarted 0x42 false).setF .LNK_CFG_WIDTH_MAX n width

theorem State.stageWidth_frame (s : State) (n width : Nat) : LinkFrame [.LNK_CFG_WIDTH_MAX] [] n s (s.stageWidth n width) :=
  (s.markStarted_frame ..).setF _ _ _ (by decide)

theorem State.stageWidth_width (s : State) (n : Nat) {width : Nat} (h : width ≤ 3) : (s.stageWidth n width).f .LNK_CFG_WIDTH_MAX n = width :=
  (State.f_setF_same ..).trans (Nat.mod_eq_of_lt (Nat.lt_succ_of_le h))

/-- The link trains again with the staged width: fast from UP, in full from another state but OFF. -/
theorem stagedRetrain_sets (s : State) (n : LinkId) {width : Nat} (hw : width ≤ 3) (h : s.f .LNK_STATUS_STATE n ≠ lkOff) :
    let t := s.stageWidth n width
    let u := if s.up n then t.retrainWrite n else t.resetWrite n
    u.f .LNK_CFG_WIDTH_MAX n = width ∧ u.f .LNK_STATUS_STATE n = (if s.f .LNK_STATUS_STATE n = lkUp then lkFast else lkFull) ∧ otherLinks s u n := by
  intro t u
  have ht : LinkFrame [.LNK_CFG_WIDTH_MAX] [] n s t := s.stageWidth_frame n width
  have htw : t.f .LNK_CFG_WIDTH_MAX n = width := s.stageWidth_width n hw
  have htu : t.up n = s.up n := ht.up_eq (by decide)
  have hts : t.f .LNK_STATUS_STATE n ≠ lkOff := fun e => h ((ht.f _ (by decide +kernel) (by decide) n).symm.trans e)
  clear_value t
  have hwid : ∀ b, touches (leaveFlds ++ restartFlds b) .LNK_CFG_WIDTH_MAX = false := by decide
  obtain ⟨hframe, hst⟩ : LinkFrame (restartFlds ((t.leaveUp n).inGrace n)) [] n (t.leaveUp n) u ∧
      u.f .LNK_STATUS_STATE n = (if s.up n then lkFast else lkFull) := by
    cases hu : s.up n with
    | true =>
      have e : u = t.fastRetrain n := (if_pos hu).trans (if_pos (htu.trans hu))
      rw [e]
      exact ⟨State.fastRetrain_frame .., State.toFast_state ..⟩
    | false =>
      have e : u = t.resetWrite n := if_neg (by rw [hu]; decide)
      rw [e]
      exact ⟨State.resetWrite_frame hts, State.resetWrite_state hts⟩
  refine ⟨(hframe.fromUp.f _ (by decide +kernel) (hwid _) n).trans htw, ?_, fun m hm => (hframe.fromUp.others m hm).trans (ht.others m hm)⟩
  rw [hst]
  exact if_congr State.up_iff rfl rfl

/-- LINK_RETRAIN: a width outside its range and a link that is OFF are refused (R205). -/
theorem linkRetrain_sets (s : State) (n : LinkId) :
    (∀ width : BitVec 8, width.toNat = 0 ∨ 3 < width.toNat → exec (.linkRetrain n width) s = .next (s.refuse 0x42 0x0A)) ∧
    (∀ width : BitVec 8, 1 ≤ width.toNat → width.toNat ≤ 3 →
      (s.f .LNK_STATUS_STATE n = lkOff → exec (.linkRetrain n width) s = .next (s.refuse 0x42 0x07)) ∧
      (s.f .LNK_STATUS_STATE n ≠ lkOff → ∃ t, exec (.linkRetrain n width) s = .next t ∧ t.f .LNK_CFG_WIDTH_MAX n = width.toNat ∧
        t.f .LNK_STATUS_STATE n = (if s.f .LNK_STATUS_STATE n = lkUp then lkFast else lkFull) ∧ otherLinks s t n)) := by
  refine ⟨fun width h => congrArg Host.Outcome.next (if_pos h), fun width h1 h3 => ?_⟩
  have hw : ¬(width.toNat = 0 ∨ 3 < width.toNat) := by omega
  refine ⟨fun h => congrArg Host.Outcome.next ((if_neg hw).trans (if_pos h)), fun h => ?_⟩
  exact ⟨_, congrArg Host.Outcome.next ((if_neg hw).trans (if_neg h)), stagedRetrain_sets s n h3 h⟩

/-! ### REKEY_ARM (R208) -/

/-- The registers of a rekey at a bell, armed or not, with its status. -/
def State.rekeyRegs (s : State) (n bell : Nat) (arm : Bool) (status : Nat) : State :=
  ((s.setF .LNK_ENC_REKEY_BELL n bell).setF .LNK_ENC_REKEY_ARM n (b2n arm)).setF .LNK_ENC_REKEY_STATUS n status

theorem State.rekeyRegs_sets (s : State) (n : Nat) {bell status : Nat} (arm : Bool) (hb : bell < 2 ^ 32) (hs : status < 8) :
    let t := s.rekeyRegs n bell arm status
    t.f .LNK_ENC_REKEY_BELL n = bell ∧ t.f .LNK_ENC_REKEY_STATUS n = status ∧ t.f .LNK_ENC_REKEY_ARM n = b2n arm ∧
      sameRegs s t (fldsAt [.LNK_ENC_REKEY_BELL, .LNK_ENC_REKEY_STATUS, .LNK_ENC_REKEY_ARM] n) := by
  refine ⟨?_, ?_, ?_, ?_⟩
  · rw [State.rekeyRegs, State.f_setF_code _ _ _ _ _ _ (by decide), State.f_setF_code _ _ _ _ _ _ (by decide), State.f_setF_same]
    exact Nat.mod_eq_of_lt hb
  · rw [State.rekeyRegs, State.f_setF_same]
    exact Nat.mod_eq_of_lt hs
  · rw [State.rekeyRegs, State.f_setF_code _ _ _ _ _ _ (by decide), State.f_setF_same]
    cases arm <;> rfl
  · exact sameRegs_setF (sameRegs_setF (sameRegs_setF (sameRegs_refl s _) _ _ _ (by decide) (fldsAt_code (by decide) n)) _ _ _ (by decide)
      (fldsAt_code (by decide) n)) _ _ _ (by decide) (fldsAt_code (by decide) n)

/-- Link n with the next epoch's key loaded for a bell (R208). -/
def LinkUnit.armed (l : LinkUnit) (bell key : Nat) : LinkUnit := { l with rekey := some bell, nextKey := some key }

/-- REKEY_ARM (R208): refused when too soon or without a secret, else armed with the key of the next epoch. -/
theorem rekeyArm_sets (s : State) (n : LinkId) (bell : BitVec 32) :
    let d := ahead s bell.toNat
    let z := (s.link n).keyZ
    ∃ t, exec (.rekeyArm n bell) s = .next t ∧ t.f .LNK_ENC_REKEY_BELL n = bell.toNat ∧
      t.f .LNK_ENC_REKEY_STATUS n = (if d < 64 then 2 else if z = none then 3 else 1) ∧
      t.f .LNK_ENC_REKEY_ARM n = (if 64 ≤ d ∧ z ≠ none then 1 else 0) ∧
      (64 ≤ d → z ≠ none → (t.link n).rekey = some ((s.now : Int) + d).toNat ∧ (t.link n).nextKey ≠ none) ∧
      (d < 64 ∨ z = none → t.link n = s.link n) ∧ otherLinks s t n ∧
      sameRegs s t (fldsAt [.LNK_ENC_REKEY_BELL, .LNK_ENC_REKEY_STATUS, .LNK_ENC_REKEY_ARM] n) ∧ { t with regs := s.regs, links := s.links } = s := by
  intro d z
  have hd : bellDist s bell.toNat = d := bellDist_eq_ahead s bell.toNat
  by_cases hsoon : d < 64
  · obtain ⟨hbell, hst, harm, hregs⟩ := s.rekeyRegs_sets n (status := 2) false bell.isLt (by decide)
    have hx : exec (.rekeyArm n bell) s = .next (s.rekeyRegs n bell.toNat false 2) := congrArg Host.Outcome.next (if_pos (hd.symm ▸ hsoon))
    refine ⟨_, hx, hbell, ?_, ?_, fun h => absurd hsoon (not_lt.mpr h), fun _ => rfl, fun _ _ => rfl, hregs, rfl⟩
    · rw [hst, if_pos hsoon]
    · rw [harm, if_neg fun h => absurd hsoon (not_lt.mpr h.1)]
      rfl
  · have hx : exec (.rekeyArm n bell) s = .next (match z with
        | none => s.rekeyRegs n bell.toNat false 3
        | some k => (s.rekeyRegs n bell.toNat true 1).modLink n fun l =>
            l.armed (bellOf s bell.toNat).toNat (s.epochKey n k (s.f .LNK_ENC_EPOCH n + 1))) :=
      congrArg Host.Outcome.next (if_neg (hd.symm ▸ hsoon))
    cases hz : z with
    | none =>
      obtain ⟨hbell, hst, harm, hregs⟩ := s.rekeyRegs_sets n (status := 3) false bell.isLt (by decide)
      rw [hz] at hx
      refine ⟨_, hx, hbell, ?_, ?_, fun _ h => absurd rfl h, fun _ => rfl, fun _ _ => rfl, hregs, rfl⟩
      · rw [hst, if_neg hsoon, if_pos rfl]
      · rw [harm, if_neg fun h => h.2 rfl]
        rfl
    | some k =>
      obtain ⟨hbell, hst, harm, hregs⟩ := s.rekeyRegs_sets n (status := 1) true bell.isLt (by decide)
      rw [hz] at hx
      refine ⟨_, hx, hbell, ?_, ?_, fun _ _ => ?_, fun h => ?_, fun m hm => State.link_setLink_other _ _ hm, hregs, rfl⟩
      · exact hst.trans (by simp [hsoon])
      · exact harm.trans (by simp [not_lt.mp hsoon, b2n])
      · rw [State.link_modLink_same, ← hd]
        exact ⟨rfl, Option.some_ne_none _⟩
      · exact absurd h (by simp [hsoon])

/-- Settles O44: each command by the lemma above that says what it sets; the timeout of LINK_RETRAIN is its own equation. -/
theorem linkResets : Obligations.LinkResets := by
  refine ⟨fun s n => ?_, fun _ => rfl, rekeyArm_sets⟩
  obtain ⟨herr, herrUp⟩ := errLimitRetrain_sets s n
  obtain ⟨hoff, hreset⟩ := lnkResetWrite_sets s n
  obtain ⟨hwidth, hretrain⟩ := linkRetrain_sets s n
  exact ⟨retrainRequest_sets s n, herr, herrUp, laneLoss_sets s n, hoff, hreset, hwidth, hretrain⟩

end Sys2Proof.Machine
end
